-- ==== Sys2Proof/Word.lean ====
section
/-! DEFINITION. The machine's word types and their plainest arithmetic (spec R4, R7). -/

namespace Sys2Proof

/-- A word is 8 bytes (R7). -/
abbrev Word := BitVec 64
/-- A byte. -/
abbrev Byte := BitVec 8
/-- The contents of a v register: 64 bytes, lane 0 in the low bits (R159, R4). -/
abbrev Line := BitVec 512
/-- A membership: bit s is query slot s (R61). -/
abbrev Members := BitVec 256

/-- Bits [hi:lo] of a number. -/
def bitsOf (x hi lo : Nat) : Nat := (x >>> lo) % 2 ^ (hi + 1 - lo)

/-- Bit i of a number. -/
def bitOf (x i : Nat) : Bool := x.testBit i

/-- Truth as a number. -/
def boolNat (b : Bool) : Nat := if b then 1 else 0

/-- A number as a word, modulo 2^64. -/
def word (n : Nat) : Word := BitVec.ofNat 64 n

end Sys2Proof
end

