-- ==== Sys2Proof/Syntax.lean ====
section
/-! DEFINITION. The syntax of Ferurn: operands, the fields of an instruction word, and one constructor for each row of the
opcode table: 193 instructions of the opcode map (R180) and 99 device events, which no word encodes. -/

namespace Sys2Proof

/-- An operand field of 20 bits, read by class (R173). `bad` is a field whose payload has a reserved bit set, names an m
register from 4 to 7, file 3, or a row above 1,279: a fault of cause 0x02 where it stands (R173). -/
inductive Operand where
  | g (n : BitVec 5)
  | v (n : BitVec 5)
  | p (n : BitVec 3)
  | w (n : BitVec 3)
  | m (n : BitVec 2)
  | port (n : BitVec 3)
  | row (n : BitVec 11)
  | imm (x : BitVec 17)
  | mem (base : BitVec 5) (off : BitVec 12)
  | sys (n : BitVec 17)
  | none
  | bad (raw : BitVec 20)
  deriving DecidableEq, Repr

/-- What every instruction word holds besides its opcode (R171). -/
structure Fields where
  /-- bit 87: the guard holds when the predicate is false -/
  neg : Bool
  /-- bits [86:84]: the guard predicate -/
  pred : BitVec 3
  /-- bits [83:77]: stall count, yield, reuse A, reuse B: hints, which change timing only (R178) -/
  hints : BitVec 7
  /-- bit 76, reserved -/
  rsv : Bool
  d : Operand
  a : Operand
  b : Operand
  /-- bits [15:0]: the modifier (R175) -/
  modf : BitVec 16
  deriving DecidableEq, Repr

/-- What the issue of no mapped opcode met (R183 check 1, R39). -/
inductive IllegalFetch where
  /-- a word whose opcode is reserved -/
  | reserved (op : BitVec 8) (f : Fields)
  /-- a fetch at or past the end of the code -/
  | pastEnd
  deriving DecidableEq, Repr

/-- A host access through BAR 2 (R371): a read or a write of one 8-byte word at an offset of the compatibility region, an AtomicOp the
function completes (R357), or a read or a write of n bytes, lowest first. -/
inductive HostRequest where
  | read (off : Nat)
  | write (off : Nat) (v : Word)
  | fetchAdd (off : Nat) (v : Word)
  | cas (off : Nat) (cmp v : Word)
  | readBytes (off n : Nat)
  | writeBytes (off n v : Nat)
  /-- a configuration read of 8 bytes of the bring-up block, or of its capability header at negative places (R427) -/
  | config (header : Bool) (i : Nat)
  deriving DecidableEq, Repr

/-- An Ultra Ethernet transport packet that reaches this module (R423). -/
inductive Packet where
  /-- a piece of a write-mode message: job, the sender's number of the packet, remote address, bytes, remote barrier (0 for none) -/
  | write (job num : Nat) (addr : Word) (bytes : List Byte) (barrier : Word)
  /-- a piece of a tagged message: job, the sender's number of the packet, and of the message, tag, message length, offset, bytes -/
  | tagged (job num message : Nat) (tag : Word) (len off : Nat) (bytes : List Byte)
  /-- a peer acknowledges n bytes at an offset of `XSEND` job j -/
  | ack (j off n : Nat)
  /-- a peer lets n more bytes of job j come -/
  | credit (j n : Nat)
  /-- a peer refuses the rest of job j -/
  | refuse (j : Nat)
  /-- a piece read by `XGET` job j: offset and bytes -/
  | data (j : Nat) (off : Nat) (bytes : List Byte)
  /-- a peer's read of n bytes here, under a job -/
  | read (job : Nat) (addr : Word) (n : Nat)
  deriving DecidableEq, Repr

/-- The readings of one telemetry interval (R440). -/
structure Telemetry where
  throttle : BitVec 16
  hottest : BitVec 16
  inlet : BitVec 16
  power : BitVec 16
  deriving DecidableEq, Repr

/-- What a scrub read of a word meets (R442, R443). -/
inductive MemError where
  | clean
  /-- one flipped bit, corrected; the flag says that it recurs when read back -/
  | corrected (recurs : Bool)
  /-- more: the launches whose accesses to a handler table, a queue or the warren met it -/
  | uncorrectable (met : List Nat)
  deriving DecidableEq, Repr

/-- What reaches the module from outside it: the host, a debugger, the links and their physics, the network, the clock source
and the board controller. An input event of Instr acts on the input at hand (State.input). -/
inductive Input where
  | none
  /-- function, mailbox, value -/
  | tailWrite (f m : Nat) (v : Word)
  | cancelWrite (f m : Nat) (v : Word)
  /-- writing function, function, mailbox, both words -/
  | mailboxConfigWrite (by_ f m : Nat) (w0 w1 : Word)
  | eventRingConfigWrite (by_ f e : Nat) (w0 w1 : Word)
  /-- function, page address -/
  | migGive (f : Nat) (a : Word)
  | migTake (f : Nat) (a : Word)
  | migHoldWrite (f : Nat) (v : Word)
  | hostWindow (f : Nat) (r : HostRequest)
  /-- the host reads n bytes of BAR 0 of a function -/
  | barRead (f off n : Nat)
  /-- the host's own access to its memory, the offset being a byte there -/
  | hostMemory (r : HostRequest)
  /-- register address, value -/
  | registerWrite (a : Nat) (v : Word)
  /-- the physical function sets a function's compatibility region: function, base, size -/
  | compatSet (f base size : Nat)
  | functionReset (t : Nat)
  /-- core -/
  | debuggerHalt (c : Nat)
  | debuggerResume (c : Nat)
  /-- router, port, lane group, and whether the replay succeeds -/
  | flitCrc (r p lane : Nat) (replayOk : Bool)
  /-- router, port, and the flits that the link carried in the last 10 µs -/
  | narrowing (r p flits : Nat)
  /-- router, port, and the flits that a virtual channel's queue holds -/
  | widening (r p flits : Nat)
  | renegotiated (r p : Nat)
  | routerFailure (r : Nat)
  | uePort (p : Nat) (up : Bool)
  | packet (x : Packet)
  /-- a job, and the offset of its packet that was lost -/
  | packetLost (j off : Nat)
  /-- tenant, peer, round trip, window, marked -/
  | congestion (t p rtt win marked : Nat)
  /-- estimated error in ns -/
  | servoLock (err : Int)
  | disciplineLost (err : Int)
  | holdoverLimit (err : Int)
  /-- port, estimated error, slew in ns -/
  | servoUpdate (port : Nat) (err slew : Int)
  /-- a port's announced master, by its data set as one number, or none any more -/
  | announce (port : Nat) (master : Option Nat)
  /-- a PTP event message passes a port: sent, or received -/
  | ptpEvent (port : Nat) (sent : Bool)
  /-- the board controller's clock -/
  | boardTime (t : Word)
  | trainingFailure (stack : Nat)
  | powerLimit (w : Nat)
  /-- readings, and the fraction of clocks to withhold -/
  | throttle (x : Telemetry)
  /-- die, degrees C times 10 -/
  | critical (die temp : Nat)
  | telemetry (x : Telemetry)
  /-- a word's address in the model's numbering, and what the scrubber meets there -/
  | scrub (a : Nat) (e : MemError)
  deriving DecidableEq, Repr

/-- The instructions of the opcode map and the device's events, one constructor for each row of the opcode table. -/
inductive Instr where
  /-- `NOP`, opcode 0x00 (R190). -/
  | nop (f : Fields)
  /-- `BRA`, opcode 0x01 (R190). -/
  | bra (f : Fields)
  /-- `JMP`, opcode 0x02 (R190). -/
  | jmp (f : Fields)
  /-- `CALL`, opcode 0x03 (R190). -/
  | call (f : Fields)
  /-- `RET`, opcode 0x04 (R190). -/
  | ret (f : Fields)
  /-- `LOOP`, opcode 0x05 (R190). -/
  | loop (f : Fields)
  /-- `END`, opcode 0x06 (R39). -/
  | endFiring (f : Fields)
  /-- `YIELD`, opcode 0x07 (R192). -/
  | yield (f : Fields)
  /-- `JTAB`, opcode 0x08 (R190). -/
  | jtab (f : Fields)
  /-- `TRAP`, opcode 0x09 (R193). -/
  | trap (f : Fields)
  /-- `WAITB`, opcode 0x0A (R194). -/
  | waitb (f : Fields)
  /-- `WAITC`, opcode 0x0B (R195). -/
  | waitc (f : Fields)
  /-- `BRK`, opcode 0x0C (R193). -/
  | brk (f : Fields)
  /-- `SLEEP`, opcode 0x0D (R192). -/
  | sleep (f : Fields)
  /-- `ADD`, opcode 0x10 (R197). -/
  | add (f : Fields)
  /-- `SUB`, opcode 0x11 (R197). -/
  | sub (f : Fields)
  /-- `MUL`, opcode 0x12 (R197). -/
  | mul (f : Fields)
  /-- `MULH`, opcode 0x13 (R197). -/
  | mulh (f : Fields)
  /-- `MAD`, opcode 0x14 (R197). -/
  | mad (f : Fields)
  /-- `DIV`, opcode 0x15 (R198). -/
  | div (f : Fields)
  /-- `REM`, opcode 0x16 (R198). -/
  | rem (f : Fields)
  /-- `ABS`, opcode 0x17 (R197). -/
  | abs (f : Fields)
  /-- `MIN`, opcode 0x18 (R197). -/
  | min (f : Fields)
  /-- `MAX`, opcode 0x19 (R197). -/
  | max (f : Fields)
  /-- `ADDS`, opcode 0x1A (R197). -/
  | adds (f : Fields)
  /-- `SUBS`, opcode 0x1B (R197). -/
  | subs (f : Fields)
  /-- `AVG`, opcode 0x1C (R197). -/
  | avg (f : Fields)
  /-- `SAD`, opcode 0x1D (R197). -/
  | sad (f : Fields)
  /-- `CLAMP`, opcode 0x1E (R197). -/
  | clamp (f : Fields)
  /-- `AND`, opcode 0x20 (R197). -/
  | and (f : Fields)
  /-- `OR`, opcode 0x21 (R197). -/
  | or (f : Fields)
  /-- `XOR`, opcode 0x22 (R197). -/
  | xor (f : Fields)
  /-- `ANDN`, opcode 0x23 (R197). -/
  | andn (f : Fields)
  /-- `SHL`, opcode 0x24 (R199). -/
  | shl (f : Fields)
  /-- `SHR`, opcode 0x25 (R199). -/
  | shr (f : Fields)
  /-- `SAR`, opcode 0x26 (R199). -/
  | sar (f : Fields)
  /-- `ROL`, opcode 0x27 (R199). -/
  | rol (f : Fields)
  /-- `CLZ`, opcode 0x28 (R199). -/
  | clz (f : Fields)
  /-- `POPC`, opcode 0x29 (R199). -/
  | popc (f : Fields)
  /-- `BREV`, opcode 0x2A (R199). -/
  | brev (f : Fields)
  /-- `EXT`, opcode 0x2B (R200). -/
  | ext (f : Fields)
  /-- `INS`, opcode 0x2C (R200). -/
  | ins (f : Fields)
  /-- `HASH`, opcode 0x2D (R201). -/
  | hash (f : Fields)
  /-- `MIX`, opcode 0x2E (R201). -/
  | mix (f : Fields)
  /-- `MOV`, opcode 0x30 (R202). -/
  | mov (f : Fields)
  /-- `MOVH`, opcode 0x31 (R203). -/
  | movh (f : Fields)
  /-- `SEL`, opcode 0x32 (R204). -/
  | sel (f : Fields)
  /-- `CMP`, opcode 0x33 (R205). -/
  | cmp (f : Fields)
  /-- `PAND`, opcode 0x34 (R206). -/
  | pand (f : Fields)
  /-- `POR`, opcode 0x35 (R206). -/
  | por (f : Fields)
  /-- `PXOR`, opcode 0x36 (R206). -/
  | pxor (f : Fields)
  /-- `LEA`, opcode 0x37 (R207). -/
  | lea (f : Fields)
  /-- `MOVS`, opcode 0x38 (R208). -/
  | movs (f : Fields)
  /-- `MOVW`, opcode 0x39 (R209). -/
  | movw (f : Fields)
  /-- `IOTA`, opcode 0x3A (R210). -/
  | iota (f : Fields)
  /-- `BCAST`, opcode 0x3B (R210). -/
  | bcast (f : Fields)
  /-- `EXTL`, opcode 0x3C (R210). -/
  | extl (f : Fields)
  /-- `INSL`, opcode 0x3D (R210). -/
  | insl (f : Fields)
  /-- `CMPV`, opcode 0x3E (R205). -/
  | cmpv (f : Fields)
  /-- `FADD`, opcode 0x40 (R211). -/
  | fadd (f : Fields)
  /-- `FSUB`, opcode 0x41 (R211). -/
  | fsub (f : Fields)
  /-- `FMUL`, opcode 0x42 (R211). -/
  | fmul (f : Fields)
  /-- `FMA`, opcode 0x43 (R211). -/
  | fma (f : Fields)
  /-- `FMS`, opcode 0x44 (R211). -/
  | fms (f : Fields)
  /-- `FNMA`, opcode 0x45 (R211). -/
  | fnma (f : Fields)
  /-- `FMIN`, opcode 0x46 (R213). -/
  | fmin (f : Fields)
  /-- `FMAX`, opcode 0x47 (R213). -/
  | fmax (f : Fields)
  /-- `FABS`, opcode 0x48 (R213). -/
  | fabs (f : Fields)
  /-- `FNEG`, opcode 0x49 (R213). -/
  | fneg (f : Fields)
  /-- `FCMP`, opcode 0x4A (R215). -/
  | fcmp (f : Fields)
  /-- `FCLASS`, opcode 0x4B (R216). -/
  | fclass (f : Fields)
  /-- `FDIV`, opcode 0x4C (R212). -/
  | fdiv (f : Fields)
  /-- `FSQRT`, opcode 0x4D (R212). -/
  | fsqrt (f : Fields)
  /-- `FRCP`, opcode 0x4E (R212). -/
  | frcp (f : Fields)
  /-- `FRSQ`, opcode 0x4F (R212). -/
  | frsq (f : Fields)
  /-- `FEXP2`, opcode 0x50 (R212). -/
  | fexp2 (f : Fields)
  /-- `FLOG2`, opcode 0x51 (R212). -/
  | flog2 (f : Fields)
  /-- `FTANH`, opcode 0x52 (R212). -/
  | ftanh (f : Fields)
  /-- `FSCALE`, opcode 0x53 (R214). -/
  | fscale (f : Fields)
  /-- `FCVT`, opcode 0x54 (R217). -/
  | fcvt (f : Fields)
  /-- `FTOI`, opcode 0x55 (R218). -/
  | ftoi (f : Fields)
  /-- `ITOF`, opcode 0x56 (R218). -/
  | itof (f : Fields)
  /-- `FRND`, opcode 0x57 (R219). -/
  | frnd (f : Fields)
  /-- `FDOT`, opcode 0x58 (R220). -/
  | fdot (f : Fields)
  /-- `QNT`, opcode 0x59 (R221). -/
  | qnt (f : Fields)
  /-- `DQNT`, opcode 0x5A (R222). -/
  | dqnt (f : Fields)
  /-- `PLSPLIT`, opcode 0x5B (R223). -/
  | plsplit (f : Fields)
  /-- `PLJOIN`, opcode 0x5C (R223). -/
  | pljoin (f : Fields)
  /-- `VSHUF`, opcode 0x60 (R225). -/
  | vshuf (f : Fields)
  /-- `VPERM2`, opcode 0x61 (R225). -/
  | vperm2 (f : Fields)
  /-- `VROT`, opcode 0x62 (R225). -/
  | vrot (f : Fields)
  /-- `VZIP`, opcode 0x63 (R225). -/
  | vzip (f : Fields)
  /-- `VUNZIP`, opcode 0x64 (R225). -/
  | vunzip (f : Fields)
  /-- `VCOMP`, opcode 0x65 (R226). -/
  | vcomp (f : Fields)
  /-- `VEXP`, opcode 0x66 (R226). -/
  | vexp (f : Fields)
  /-- `VRED`, opcode 0x67 (R228). -/
  | vred (f : Fields)
  /-- `VSCAN`, opcode 0x68 (R229). -/
  | vscan (f : Fields)
  /-- `VTOPK`, opcode 0x69 (R231). -/
  | vtopk (f : Fields)
  /-- `VSORT`, opcode 0x6A (R230). -/
  | vsort (f : Fields)
  /-- `VDIST`, opcode 0x6B (R232). -/
  | vdist (f : Fields)
  /-- `VMATCH`, opcode 0x6C (R225). -/
  | vmatch (f : Fields)
  /-- `VSEG`, opcode 0x6D (R229). -/
  | vseg (f : Fields)
  /-- `MSET`, opcode 0x70 (R233). -/
  | mset (f : Fields)
  /-- `MAND`, opcode 0x71 (R233). -/
  | mand (f : Fields)
  /-- `MOR`, opcode 0x72 (R233). -/
  | mor (f : Fields)
  /-- `MANDN`, opcode 0x73 (R233). -/
  | mandn (f : Fields)
  /-- `MCNT`, opcode 0x74 (R233). -/
  | mcnt (f : Fields)
  /-- `MFIND`, opcode 0x75 (R233). -/
  | mfind (f : Fields)
  /-- `MSPLIT`, opcode 0x76 (R233). -/
  | msplit (f : Fields)
  /-- `MPRED`, opcode 0x77 (R234). -/
  | mpred (f : Fields)
  /-- `QLD`, opcode 0x78 (R235). -/
  | qld (f : Fields)
  /-- `QST`, opcode 0x79 (R236). -/
  | qst (f : Fields)
  /-- `WALK`, opcode 0x7A (R237). -/
  | walk (f : Fields)
  /-- `MTOV`, opcode 0x7B (R234). -/
  | mtov (f : Fields)
  /-- `VTOM`, opcode 0x7C (R234). -/
  | vtom (f : Fields)
  /-- `MMEET`, opcode 0x7D (R238). -/
  | mmeet (f : Fields)
  /-- `LD`, opcode 0x80 (R240). -/
  | ld (f : Fields)
  /-- `ST`, opcode 0x81 (R240). -/
  | st (f : Fields)
  /-- `LDV`, opcode 0x82 (R240). -/
  | ldv (f : Fields)
  /-- `STV`, opcode 0x83 (R240). -/
  | stv (f : Fields)
  /-- `LDX`, opcode 0x84 (R241). -/
  | ldx (f : Fields)
  /-- `STX`, opcode 0x85 (R241). -/
  | stx (f : Fields)
  /-- `LDFE`, opcode 0x86 (R242). -/
  | ldfe (f : Fields)
  /-- `LDFF`, opcode 0x87 (R242). -/
  | ldff (f : Fields)
  /-- `STEF`, opcode 0x88 (R242). -/
  | stef (f : Fields)
  /-- `STXF`, opcode 0x89 (R242). -/
  | stxf (f : Fields)
  /-- `FEMARK`, opcode 0x8A (R242). -/
  | femark (f : Fields)
  /-- `FEPOLL`, opcode 0x8B (R242). -/
  | fepoll (f : Fields)
  /-- `LATOM`, opcode 0x8C (R244). -/
  | latom (f : Fields)
  /-- `BINIT`, opcode 0x90 (R245). -/
  | binit (f : Fields)
  /-- `BEXPECT`, opcode 0x91 (R246). -/
  | bexpect (f : Fields)
  /-- `BARRIVE`, opcode 0x92 (R246). -/
  | barrive (f : Fields)
  /-- `BPOLL`, opcode 0x93 (R246). -/
  | bpoll (f : Fields)
  /-- `FENCE`, opcode 0x94 (R247). -/
  | fence (f : Fields)
  /-- `SEND`, opcode 0x95 (R250). -/
  | send (f : Fields)
  /-- `SENDT`, opcode 0x96 (R252). -/
  | sendt (f : Fields)
  /-- `TRYSEND`, opcode 0x97 (R250). -/
  | trysend (f : Fields)
  /-- `RECV`, opcode 0x98 (R254). -/
  | recv (f : Fields)
  /-- `PEEK`, opcode 0x99 (R254). -/
  | peek (f : Fields)
  /-- `CTRL`, opcode 0x9A (R253). -/
  | ctrl (f : Fields)
  /-- `CHCNT`, opcode 0x9B (R254). -/
  | chcnt (f : Fields)
  /-- `GANG`, opcode 0x9C (R255). -/
  | gang (f : Fields)
  /-- `HMASK`, opcode 0x9D (R256). -/
  | hmask (f : Fields)
  /-- `HPRIO`, opcode 0x9E (R256). -/
  | hprio (f : Fields)
  /-- `SPAWN`, opcode 0x9F (R257). -/
  | spawn (f : Fields)
  /-- `COPY`, opcode 0xA0 (R262). -/
  | copy (f : Fields)
  /-- `COPY2`, opcode 0xA1 (R262). -/
  | copy2 (f : Fields)
  /-- `GET`, opcode 0xA2 (R262). -/
  | get (f : Fields)
  /-- `PUT`, opcode 0xA3 (R262). -/
  | put (f : Fields)
  /-- `GETX`, opcode 0xA4 (R264). -/
  | getx (f : Fields)
  /-- `PUTX`, opcode 0xA5 (R264). -/
  | putx (f : Fields)
  /-- `AMO`, opcode 0xA6 (R265). -/
  | amo (f : Fields)
  /-- `AMOX`, opcode 0xA7 (R266). -/
  | amox (f : Fields)
  /-- `AMOF`, opcode 0xA8 (R265). -/
  | amof (f : Fields)
  /-- `ROTATE`, opcode 0xA9 (R268). -/
  | rotate (f : Fields)
  /-- `JOB`, opcode 0xAA (R269). -/
  | job (f : Fields)
  /-- `EMSG`, opcode 0xAB (R270). -/
  | emsg (f : Fields)
  /-- `XSEND`, opcode 0xAC (R274). -/
  | xsend (f : Fields)
  /-- `XPOST`, opcode 0xAD (R274). -/
  | xpost (f : Fields)
  /-- `XGET`, opcode 0xAE (R274). -/
  | xget (f : Fields)
  /-- `MLDS`, opcode 0xB0 (R280). -/
  | mlds (f : Fields)
  /-- `MSWAP`, opcode 0xB1 (R281). -/
  | mswap (f : Fields)
  /-- `MMA`, opcode 0xB2 (R283). -/
  | mma (f : Fields)
  /-- `MMAG`, opcode 0xB3 (R285). -/
  | mmag (f : Fields)
  /-- `MACC`, opcode 0xB4 (R289). -/
  | macc (f : Fields)
  /-- `MCVT`, opcode 0xB5 (R290). -/
  | mcvt (f : Fields)
  /-- `MRDA`, opcode 0xB6 (R289). -/
  | mrda (f : Fields)
  /-- `MWRA`, opcode 0xB7 (R289). -/
  | mwra (f : Fields)
  /-- `MSTAT`, opcode 0xB8 (R291). -/
  | mstat (f : Fields)
  /-- `SRCH`, opcode 0xC0 (R272). -/
  | srch (f : Fields)
  /-- `SRCHF`, opcode 0xC1 (R272). -/
  | srchf (f : Fields)
  /-- `MPATH`, opcode 0xC2 (R273). -/
  | mpath (f : Fields)
  /-- `SACQ`, opcode 0xD0 (R297). -/
  | sacq (f : Fields)
  /-- `SREL`, opcode 0xD1 (R298). -/
  | srel (f : Fields)
  /-- `SSHRINK`, opcode 0xD2 (R298). -/
  | sshrink (f : Fields)
  /-- `SURR`, opcode 0xD3 (R299). -/
  | surr (f : Fields)
  /-- `SVERD`, opcode 0xD4 (R300). -/
  | sverd (f : Fields)
  /-- `SQRY`, opcode 0xD5 (R301). -/
  | sqry (f : Fields)
  /-- `ESTSET`, opcode 0xD6 (R302). -/
  | estset (f : Fields)
  /-- `COMMIT`, opcode 0xD7 (R303). -/
  | commit (f : Fields)
  /-- `WUEND`, opcode 0xD8 (R304). -/
  | wuend (f : Fields)
  /-- `LAUNCH`, opcode 0xD9 (R305). -/
  | launch (f : Fields)
  /-- `MOVSW`, opcode 0xE0 (R307). -/
  | movsw (f : Fields)
  /-- `RFT`, opcode 0xE1 (R306). -/
  | rft (f : Fields)
  /-- `CSAVE`, opcode 0xE2 (R308). -/
  | csave (f : Fields)
  /-- `CREST`, opcode 0xE3 (R308). -/
  | crest (f : Fields)
  /-- `NIINV`, opcode 0xE4 (R309). -/
  | niinv (f : Fields)
  /-- `NISYNC`, opcode 0xE5 (R309). -/
  | nisync (f : Fields)
  /-- `JRNL`, opcode 0xE6 (R311). -/
  | jrnl (f : Fields)
  /-- `EVPOST`, opcode 0xE7 (R312). -/
  | evpost (f : Fields)
  /-- `PERF`, opcode 0xE8 (R313). -/
  | perf (f : Fields)
  /-- `IDLE`, opcode 0xE9 (R310). -/
  | idle (f : Fields)
  /-- `SPILLNI`, opcode 0xEA (R310). -/
  | spillni (f : Fields)
  /-- PLACEMENT (R49): The device places a queued launch once its predecessor's record is written and its cores and number are free. -/
  | placement (q : Nat)
  /-- EXPIRED_IN_QUEUE (R49): A launch whose deadline passed while waiting gets an EXPIRED record once its predecessor's record is written. -/
  | expiredInQueue (q : Nat)
  /-- SEED_SEND (R62): The device reads the walk launch's seed list and sends the seeds in order. -/
  | seedSend (l : Nat)
  /-- FIRING_START (R43): A free slot selects the greatest-keyed pending firing of the highest band and starts it. -/
  | firingStart (c : Nat)
  /-- BUCKET_RECOMPUTE (R43): At least once per µs the core recomputes every launch's slack bucket. -/
  | bucketRecompute (c : Nat)
  /-- ESTIMATE_ARRIVAL (R302): An ESTSET reaching the hub becomes the standing estimate and is sent to every core of the launch. -/
  | estimateArrival (l : Nat)
  /-- STALL_RESUME (R40): A stalled slot's condition clears and issue resumes at the stalled instruction. -/
  | stallResume (c k : Nat)
  /-- FULL_EMPTY_GRANT (R88): A bank grants the oldest waiting full/empty access when the bit changes. -/
  | fullEmptyGrant (cl a : Nat)
  /-- CHANNEL_WORD_ARRIVAL (R45): A destination NI accepts a channel word into a free slot and re-evaluates firing rules. -/
  | channelWordArrival (c : Nat) (net : Nat)
  /-- WORD_REOFFER (R251): A held word is offered again when the destination reports a freed slot. -/
  | wordReoffer (c : Nat) (net : Nat)
  /-- FREE_SLOT_RETURN (R47): A returned free slot raises the sender's mirror and re-evaluates firing rules. -/
  | freeSlotReturn (c ch : Nat)
  /-- RING_WORD_ARRIVAL (R90): A word pushed at k4 or k5 arrives in the neighbour's ring queue. -/
  | ringWordArrival (c : Nat)
  /-- WALKER_MESSAGE_ARRIVAL (R68): A walker message reaches its owner's warren and creates or merges into an entry. -/
  | walkerMessageArrival (c : Nat)
  /-- HOLD_REACHED (R67): A collecting warren entry's hold expires and it becomes pending. -/
  | holdReached (cl e : Nat)
  /-- JOB_PIECE_LAND (R261): A piece of an engine job lands, setting full/empty bits and arriving at its barrier. -/
  | jobPieceLand (j : Nat)
  /-- SEARCH_LIST_LAND (R78): A channel search engine computes its candidates' distances and lands its best-k list. -/
  | searchListLand (j ch : Nat)
  /-- ROTATION_RUN (R93): A formed gang's rotation moves each core's source to its successor's destination. -/
  | rotationRun (cl : Nat)
  /-- ASYNC_TRAP_DELIVERY (R186): A pending asynchronous trap is delivered as a trap firing. -/
  | asyncTrapDelivery (c : Nat)
  /-- GANG_FORMATION (R255): All eight cores hold equal gang requests and the gang forms. -/
  | gangFormation (cl : Nat)
  /-- MSWAP_APPLY (R281): The array exchanges planes once earlier operations and MLDSes are done. -/
  | mswapApply (cl : Nat)
  /-- ARRAY_OPERATION_FORM (R283): All members have issued and the array operation forms, or fails on disagreement. -/
  | arrayOperationForm (cl : Nat)
  /-- ARRAY_OPERATION_COMPLETE (R286): A member's last row is written and its barrier receives one arrival. -/
  | arrayOperationComplete (cl k : Nat)
  /-- DEADLINE_EXPIRY (R141): A core reaches the deadline, stops the launch's firings, discards its words and starts wrap-up. -/
  | deadlineExpiry (l c : Nat)
  /-- DESCHEDULED_EXPIRY (R140): The deadline passes while the context is saved; expiry is recorded and the context marked expired. -/
  | descheduledExpiry (l : Nat)
  /-- WRAPUP_QUIET_POINT (R146): A wrap-up barrier wait ends at a quiet point with the cancelled flag set. -/
  | wrapupQuietPoint (l : Nat)
  /-- WRAPUP_BUDGET_EXHAUSTED (R143): A wrap-up firing reaches its instruction budget and ends. -/
  | wrapupBudgetExhausted (c k : Nat)
  /-- WALL_BUDGET_EXPIRY (R147): The wall budget runs out and every wrap-up firing stops. -/
  | wallBudgetExpiry (l : Nat)
  /-- LAUNCH_COMPLETE (R54): No firing, word or operation remains and the COMPLETE record is written. -/
  | launchComplete (l : Nat)
  /-- COMPLETION_RECORD_WRITE (R150): In the ending, once operations land, the record is written word 0 last and the event posted. -/
  | completionRecordWrite (l : Nat)
  /-- RECALL_HEAD (R125): A recall reaches its queue head and is satisfied, stripped or starts a surrender firing. -/
  | recallHead (c : Nat)
  /-- RECALL_PLACE (R126): A waiting recall is placed when its holder's queue frees. -/
  | recallPlace (c : Nat)
  /-- SURRENDER_BOUND_EXCEEDED (R127): A surrender routine would exceed its bound and the sett is force-stripped. -/
  | surrenderBoundExceeded (c k : Nat)
  /-- FINISH_LIMIT_PASSED (R127): A Finishing sett not released within the finish limit is force-stripped. -/
  | finishLimitPassed (cl g : Nat)
  /-- MAILBOX_SLOT_CONSUME (R363): The mailbox engine acquires a sealed slot, submits or voids it, and advances C. -/
  | mailboxSlotConsume (f m : Nat)
  /-- REQUEST_PAGE_INVALIDATE (R380): A kind 0 request invalidates one page's translations and synchronises. -/
  | requestPageInvalidate (r : Nat)
  /-- REQUEST_TENANT_INVALIDATE (R380): A kind 1 request invalidates all of a tenant's translations. -/
  | requestTenantInvalidate (r : Nat)
  /-- REQUEST_ALL_INVALIDATE (R380): A kind 2 request invalidates every translation. -/
  | requestAllInvalidate (r : Nat)
  /-- CONTEXT_LOAD (R376): A kind 3 request applies a tenant context record, zeroing clusters that change hands. -/
  | contextLoad (r : Nat)
  /-- QUOTA_CHANGE (R381): A kind 5 request changes a tenant's granule quota and frees granules above it. -/
  | quotaChange (r : Nat)
  /-- RECLAIM (R381): A kind 6 request frees at least n granules of a tenant's setts in named clusters. -/
  | reclaim (r : Nat)
  /-- TENANT_RESET (R391): A kind 4 request resets a tenant, quiescing and ending its launches and zeroing its clusters. -/
  | tenantReset (r : Nat)
  /-- JOB_RETRY (R384): A job waiting on an absent page retries when a covering invalidation completes. -/
  | jobRetry (j : Nat)
  /-- SLICE_BOUNDARY (R397): A partition's slice ends or idles and the Bruin pool chooses the next context. -/
  | sliceBoundary (t : Nat)
  /-- QUIESCENCE_LIMIT (R400): The latency limit elapses and outstanding jobs are recorded as replay entries. -/
  | quiescenceLimit (t : Nat)
  /-- CONTEXT_SAVE_COMPLETE (R400): A save finishes and the entry becomes saved, with its counts written. -/
  | contextSaveComplete (t : Nat)
  /-- PREEMPTION_INTERRUPT (R398): Cause 1 reaches a core and every slot freezes. -/
  | preemptionInterrupt (c : Nat)
  /-- CONTEXT_RESTORE (R405): Cause 4 makes every frozen slot resume as its state word records. -/
  | contextRestore (c : Nat)
  /-- RESET_INTERRUPT (R398): Cause 5 enters the privileged handler for a reset. -/
  | resetInterrupt (c : Nat)
  /-- ILLEGAL_INSTRUCTION (R183): The issue of a word with a reserved opcode, or a fetch at or past the end of the code, faults exactly with cause 0x01. -/
  | illegalInstruction (x : IllegalFetch)
  /-- DEADLINE_BEFORE_PLACEMENT (R149): A queued launch that is not behind earlier launches, but still waits at placement for cores, a launch number or a spill area, passes its deadline and ends with status 3 without placement. -/
  | deadlineBeforePlacement (q : Nat)
  /-- LAUNCH_NUMBER_RELEASE (R50): A launch number becomes reusable once every word and message carrying it is delivered or discarded. -/
  | launchNumberRelease
  /-- REFUSAL_WINDOW_END (R128): A sett's refusal window closes after 1 ms of device time. -/
  | refusalWindowEnd
  /-- TAIL_WRITE (R361): A write to TAIL raises it to the larger of its value and the written value. -/
  | tailWrite
  /-- CANCEL_WRITE (R364): A write to CANCEL cancels a consumed pending launch of the mailbox or is ignored. -/
  | cancelWrite
  /-- MAILBOX_CONFIG_WRITE (R359): The physical function writes a mailbox's base, enable, queue and capacity. -/
  | mailboxConfigWrite
  /-- EVENT_RING_CONFIG_WRITE (R366): The physical function writes an event ring's base, enable, vector and capacity. -/
  | eventRingConfigWrite
  /-- MIGGIVE (R369): The driver gives a host page to the device, and waiting jobs retry. -/
  | miggive
  /-- MIGTAKE (R369): The driver takes a page for the host; the device invalidates, drains and posts 0x0041. -/
  | migtake
  /-- MIGHOLD_WRITE (R370): The physical function sets the page-move hold time. -/
  | migholdWrite
  /-- PAGE_HOLD_END (R370): A page's hold time ends and a queued move request is served. -/
  | pageHoldEnd
  /-- HOST_WINDOW_REQUEST (R371): A host BAR 2 request is applied in order by its quadrant's service core. -/
  | hostWindowRequest
  /-- REGISTER_WRITE (R427): A write to a register with no behaviour of its own stores its value. -/
  | registerWrite
  /-- FUNCTION_LEVEL_RESET (R391): A PCI Express function level reset resets its tenant. -/
  | functionLevelReset
  /-- SECOND_STAGE_RECORD_MOVE (R388): The secure management core moves a queued second-stage fault record into the ring. -/
  | secondStageRecordMove
  /-- DEBUGGER_HALT (R398): Cause 2 freezes a core without quiescence. -/
  | debuggerHalt
  /-- DEBUGGER_RESUME (R398): Cause 3 resumes a halted core. -/
  | debuggerResume
  /-- LAUNCH_AREA_RELEASE (R407): A faulted launch's spill area is released 10 s after its record. -/
  | launchAreaRelease
  /-- FLIT_CRC_FAILURE (R415): A flit fails its CRC and is replayed from the sender's buffer. -/
  | flitCrcFailure
  /-- POWER_NARROWING (R416): A lightly loaded link halves its width after 10 µs. -/
  | powerNarrowing
  /-- LINK_WIDENING (R416): A link doubles its width when a queue holds 32 flits. -/
  | linkWidening
  /-- RENEGOTIATION_END (R416): A link renegotiation completes and traffic resumes. -/
  | renegotiationEnd
  /-- ROUTER_FAILURE (R419): A router leaves service with its clusters, and launches holding its cores are cancelled. -/
  | routerFailure
  /-- REQUEST_RESEND (R419): After 50 µs an NI resends a request that crossed a failed router. -/
  | requestResend
  /-- UE_PORT_STATE_CHANGE (R420): An Ultra Ethernet port goes up or down and an event is posted. -/
  | uePortStateChange
  /-- TRANSPORT_PACKET_ARRIVAL (R423): A transport packet is matched to a receive job, translated and placed. -/
  | transportPacketArrival
  /-- PACKET_RESEND (R426): Lost transport packets are resent on other ports. -/
  | packetResend
  /-- CONGESTION_TABLE_UPDATE (R424): Every µs the engine rewrites each peer's congestion entry. -/
  | congestionTableUpdate
  /-- TOKEN_BUCKET_REFILL (R425): At every µs a tenant's bucket gains its rate up to its burst. -/
  | tokenBucketRefill
  /-- SERVO_LOCK (R137): The PTP servo locks and discipline is gained. -/
  | servoLock
  /-- DISCIPLINE_LOST (R137): No valid Sync for 4 s, or source disqualified, enters holdover. -/
  | disciplineLost
  /-- HOLDOVER_LIMIT_PASSED (R137): Holdover error first exceeds the limit and an event is posted. -/
  | holdoverLimitPassed
  /-- MODULE_RESET (R433): At reset the boot ROM chooses and verifies a firmware slot and starts Plovulo. -/
  | moduleReset
  /-- SELF_TEST_COMPLETE (R428): SRAM and fabric tests pass, spares are placed and reduced clocks set. -/
  | selfTestComplete
  /-- SELF_TEST_FAILURE (R428): A bring-up test fails and the module enters the failed phase. -/
  | selfTestFailure
  /-- SECOND_TIER_TRAINED (R428): The second tier trains, device time is set and reduced service begins. -/
  | secondTierTrained
  /-- HBM_TRAINED (R431): All HBM stacks train and the switch to full service starts. -/
  | hbmTrained
  /-- HBM_TRAINING_FAILURE (R428): A stack fails its third training attempt and the module stays reduced. -/
  | hbmTrainingFailure
  /-- CLOCK_SWITCH_COMPLETE (R431): The carve-out is copied, clocks raised and full service entered. -/
  | clockSwitchComplete
  /-- UPDATE_COMMAND (R434): Command 1 verifies and writes a firmware image to the other slot and updates a marker. -/
  | updateCommand
  /-- ATTEST_COMMAND (R436): Command 2 writes a signed attestation report to the buffer. -/
  | attestCommand
  /-- POWER_LIMIT_SET (R437): The board controller sets the module power limit. -/
  | powerLimitSet
  /-- THROTTLE_START (R438): Power or temperature crosses its limit and issue is withheld. -/
  | throttleStart
  /-- THROTTLE_END (R438): Power and temperature return within the envelope and throttling ends. -/
  | throttleEnd
  /-- CRITICAL_TEMPERATURE (R439): A die reaches 105 °C; issue stops and power removal is requested. -/
  | criticalTemperature
  /-- TELEMETRY_RECORD (R440): Every 1 ms a telemetry record is posted. -/
  | telemetryRecord
  /-- SCRUB_PASS (R442): The scrubber reads and rewrites SRAM words. -/
  | scrubPass
  /-- SERVO_UPDATE (R136): The PTP servo on the Bruin pool takes a timestamped PTP message, updates its error estimate and source selection, and slews device time. -/
  | servoUpdate
  /-- COMMAND_DONE (R427): A bring-up command that has run for some time (update or attest) finishes, and its result becomes 2 done or 3 refused. -/
  | commandDone
  /-- POWER_LOSS (R434): Power to the module is lost, whether cut by the board controller after a critical temperature or otherwise, leaving flash and marker copies as they then stand. -/
  | powerLoss
  deriving DecidableEq, Repr

/-- The opcode byte and the fields of an instruction word; none for an event, which no word encodes (R180). -/
def Instr.word? : Instr → Option (BitVec 8 × Fields)
  | .nop f => some (0x00, f)
  | .bra f => some (0x01, f)
  | .jmp f => some (0x02, f)
  | .call f => some (0x03, f)
  | .ret f => some (0x04, f)
  | .loop f => some (0x05, f)
  | .endFiring f => some (0x06, f)
  | .yield f => some (0x07, f)
  | .jtab f => some (0x08, f)
  | .trap f => some (0x09, f)
  | .waitb f => some (0x0A, f)
  | .waitc f => some (0x0B, f)
  | .brk f => some (0x0C, f)
  | .sleep f => some (0x0D, f)
  | .add f => some (0x10, f)
  | .sub f => some (0x11, f)
  | .mul f => some (0x12, f)
  | .mulh f => some (0x13, f)
  | .mad f => some (0x14, f)
  | .div f => some (0x15, f)
  | .rem f => some (0x16, f)
  | .abs f => some (0x17, f)
  | .min f => some (0x18, f)
  | .max f => some (0x19, f)
  | .adds f => some (0x1A, f)
  | .subs f => some (0x1B, f)
  | .avg f => some (0x1C, f)
  | .sad f => some (0x1D, f)
  | .clamp f => some (0x1E, f)
  | .and f => some (0x20, f)
  | .or f => some (0x21, f)
  | .xor f => some (0x22, f)
  | .andn f => some (0x23, f)
  | .shl f => some (0x24, f)
  | .shr f => some (0x25, f)
  | .sar f => some (0x26, f)
  | .rol f => some (0x27, f)
  | .clz f => some (0x28, f)
  | .popc f => some (0x29, f)
  | .brev f => some (0x2A, f)
  | .ext f => some (0x2B, f)
  | .ins f => some (0x2C, f)
  | .hash f => some (0x2D, f)
  | .mix f => some (0x2E, f)
  | .mov f => some (0x30, f)
  | .movh f => some (0x31, f)
  | .sel f => some (0x32, f)
  | .cmp f => some (0x33, f)
  | .pand f => some (0x34, f)
  | .por f => some (0x35, f)
  | .pxor f => some (0x36, f)
  | .lea f => some (0x37, f)
  | .movs f => some (0x38, f)
  | .movw f => some (0x39, f)
  | .iota f => some (0x3A, f)
  | .bcast f => some (0x3B, f)
  | .extl f => some (0x3C, f)
  | .insl f => some (0x3D, f)
  | .cmpv f => some (0x3E, f)
  | .fadd f => some (0x40, f)
  | .fsub f => some (0x41, f)
  | .fmul f => some (0x42, f)
  | .fma f => some (0x43, f)
  | .fms f => some (0x44, f)
  | .fnma f => some (0x45, f)
  | .fmin f => some (0x46, f)
  | .fmax f => some (0x47, f)
  | .fabs f => some (0x48, f)
  | .fneg f => some (0x49, f)
  | .fcmp f => some (0x4A, f)
  | .fclass f => some (0x4B, f)
  | .fdiv f => some (0x4C, f)
  | .fsqrt f => some (0x4D, f)
  | .frcp f => some (0x4E, f)
  | .frsq f => some (0x4F, f)
  | .fexp2 f => some (0x50, f)
  | .flog2 f => some (0x51, f)
  | .ftanh f => some (0x52, f)
  | .fscale f => some (0x53, f)
  | .fcvt f => some (0x54, f)
  | .ftoi f => some (0x55, f)
  | .itof f => some (0x56, f)
  | .frnd f => some (0x57, f)
  | .fdot f => some (0x58, f)
  | .qnt f => some (0x59, f)
  | .dqnt f => some (0x5A, f)
  | .plsplit f => some (0x5B, f)
  | .pljoin f => some (0x5C, f)
  | .vshuf f => some (0x60, f)
  | .vperm2 f => some (0x61, f)
  | .vrot f => some (0x62, f)
  | .vzip f => some (0x63, f)
  | .vunzip f => some (0x64, f)
  | .vcomp f => some (0x65, f)
  | .vexp f => some (0x66, f)
  | .vred f => some (0x67, f)
  | .vscan f => some (0x68, f)
  | .vtopk f => some (0x69, f)
  | .vsort f => some (0x6A, f)
  | .vdist f => some (0x6B, f)
  | .vmatch f => some (0x6C, f)
  | .vseg f => some (0x6D, f)
  | .mset f => some (0x70, f)
  | .mand f => some (0x71, f)
  | .mor f => some (0x72, f)
  | .mandn f => some (0x73, f)
  | .mcnt f => some (0x74, f)
  | .mfind f => some (0x75, f)
  | .msplit f => some (0x76, f)
  | .mpred f => some (0x77, f)
  | .qld f => some (0x78, f)
  | .qst f => some (0x79, f)
  | .walk f => some (0x7A, f)
  | .mtov f => some (0x7B, f)
  | .vtom f => some (0x7C, f)
  | .mmeet f => some (0x7D, f)
  | .ld f => some (0x80, f)
  | .st f => some (0x81, f)
  | .ldv f => some (0x82, f)
  | .stv f => some (0x83, f)
  | .ldx f => some (0x84, f)
  | .stx f => some (0x85, f)
  | .ldfe f => some (0x86, f)
  | .ldff f => some (0x87, f)
  | .stef f => some (0x88, f)
  | .stxf f => some (0x89, f)
  | .femark f => some (0x8A, f)
  | .fepoll f => some (0x8B, f)
  | .latom f => some (0x8C, f)
  | .binit f => some (0x90, f)
  | .bexpect f => some (0x91, f)
  | .barrive f => some (0x92, f)
  | .bpoll f => some (0x93, f)
  | .fence f => some (0x94, f)
  | .send f => some (0x95, f)
  | .sendt f => some (0x96, f)
  | .trysend f => some (0x97, f)
  | .recv f => some (0x98, f)
  | .peek f => some (0x99, f)
  | .ctrl f => some (0x9A, f)
  | .chcnt f => some (0x9B, f)
  | .gang f => some (0x9C, f)
  | .hmask f => some (0x9D, f)
  | .hprio f => some (0x9E, f)
  | .spawn f => some (0x9F, f)
  | .copy f => some (0xA0, f)
  | .copy2 f => some (0xA1, f)
  | .get f => some (0xA2, f)
  | .put f => some (0xA3, f)
  | .getx f => some (0xA4, f)
  | .putx f => some (0xA5, f)
  | .amo f => some (0xA6, f)
  | .amox f => some (0xA7, f)
  | .amof f => some (0xA8, f)
  | .rotate f => some (0xA9, f)
  | .job f => some (0xAA, f)
  | .emsg f => some (0xAB, f)
  | .xsend f => some (0xAC, f)
  | .xpost f => some (0xAD, f)
  | .xget f => some (0xAE, f)
  | .mlds f => some (0xB0, f)
  | .mswap f => some (0xB1, f)
  | .mma f => some (0xB2, f)
  | .mmag f => some (0xB3, f)
  | .macc f => some (0xB4, f)
  | .mcvt f => some (0xB5, f)
  | .mrda f => some (0xB6, f)
  | .mwra f => some (0xB7, f)
  | .mstat f => some (0xB8, f)
  | .srch f => some (0xC0, f)
  | .srchf f => some (0xC1, f)
  | .mpath f => some (0xC2, f)
  | .sacq f => some (0xD0, f)
  | .srel f => some (0xD1, f)
  | .sshrink f => some (0xD2, f)
  | .surr f => some (0xD3, f)
  | .sverd f => some (0xD4, f)
  | .sqry f => some (0xD5, f)
  | .estset f => some (0xD6, f)
  | .commit f => some (0xD7, f)
  | .wuend f => some (0xD8, f)
  | .launch f => some (0xD9, f)
  | .movsw f => some (0xE0, f)
  | .rft f => some (0xE1, f)
  | .csave f => some (0xE2, f)
  | .crest f => some (0xE3, f)
  | .niinv f => some (0xE4, f)
  | .nisync f => some (0xE5, f)
  | .jrnl f => some (0xE6, f)
  | .evpost f => some (0xE7, f)
  | .perf f => some (0xE8, f)
  | .idle f => some (0xE9, f)
  | .spillni f => some (0xEA, f)
  | .illegalInstruction (.reserved op f) => some (op, f)
  | .illegalInstruction .pastEnd => none
  | .placement _ => none
  | .expiredInQueue _ => none
  | .seedSend _ => none
  | .firingStart _ => none
  | .bucketRecompute _ => none
  | .estimateArrival _ => none
  | .stallResume _ _ => none
  | .fullEmptyGrant _ _ => none
  | .channelWordArrival _ _ => none
  | .wordReoffer _ _ => none
  | .freeSlotReturn _ _ => none
  | .ringWordArrival _ => none
  | .walkerMessageArrival _ => none
  | .holdReached _ _ => none
  | .jobPieceLand _ => none
  | .searchListLand _ _ => none
  | .rotationRun _ => none
  | .asyncTrapDelivery _ => none
  | .gangFormation _ => none
  | .mswapApply _ => none
  | .arrayOperationForm _ => none
  | .arrayOperationComplete _ _ => none
  | .deadlineExpiry _ _ => none
  | .descheduledExpiry _ => none
  | .wrapupQuietPoint _ => none
  | .wrapupBudgetExhausted _ _ => none
  | .wallBudgetExpiry _ => none
  | .launchComplete _ => none
  | .completionRecordWrite _ => none
  | .recallHead _ => none
  | .recallPlace _ => none
  | .surrenderBoundExceeded _ _ => none
  | .finishLimitPassed _ _ => none
  | .mailboxSlotConsume _ _ => none
  | .requestPageInvalidate _ => none
  | .requestTenantInvalidate _ => none
  | .requestAllInvalidate _ => none
  | .contextLoad _ => none
  | .quotaChange _ => none
  | .reclaim _ => none
  | .tenantReset _ => none
  | .jobRetry _ => none
  | .sliceBoundary _ => none
  | .quiescenceLimit _ => none
  | .contextSaveComplete _ => none
  | .preemptionInterrupt _ => none
  | .contextRestore _ => none
  | .resetInterrupt _ => none
  | .deadlineBeforePlacement _ => none
  | .launchNumberRelease => none
  | .refusalWindowEnd => none
  | .tailWrite => none
  | .cancelWrite => none
  | .mailboxConfigWrite => none
  | .eventRingConfigWrite => none
  | .miggive => none
  | .migtake => none
  | .migholdWrite => none
  | .pageHoldEnd => none
  | .hostWindowRequest => none
  | .registerWrite => none
  | .functionLevelReset => none
  | .secondStageRecordMove => none
  | .debuggerHalt => none
  | .debuggerResume => none
  | .launchAreaRelease => none
  | .flitCrcFailure => none
  | .powerNarrowing => none
  | .linkWidening => none
  | .renegotiationEnd => none
  | .routerFailure => none
  | .requestResend => none
  | .uePortStateChange => none
  | .transportPacketArrival => none
  | .packetResend => none
  | .congestionTableUpdate => none
  | .tokenBucketRefill => none
  | .servoLock => none
  | .disciplineLost => none
  | .holdoverLimitPassed => none
  | .moduleReset => none
  | .selfTestComplete => none
  | .selfTestFailure => none
  | .secondTierTrained => none
  | .hbmTrained => none
  | .hbmTrainingFailure => none
  | .clockSwitchComplete => none
  | .updateCommand => none
  | .attestCommand => none
  | .powerLimitSet => none
  | .throttleStart => none
  | .throttleEnd => none
  | .criticalTemperature => none
  | .telemetryRecord => none
  | .scrubPass => none
  | .servoUpdate => none
  | .commandDone => none
  | .powerLoss => none

end Sys2Proof
end

