-- ==== Sys2Proof/Machine/Forms.lean ====
section
/-! DEFINITION. The operand forms and modifiers each entry accepts: what check 4 of R183 reads, in the order of R447. -/

namespace Sys2Proof

/-- What an operand position permits: the operand letters of R187, and the run base of an engine command (R259). -/
inductive OpCls where
  /-- G: a g register, or a k port -/
  | gk
  /-- g: a g register only -/
  | g
  | v | p | w | m
  | imm | mem | sys | none | port | row
  /-- a g register from lo to hi: an argument run's base -/
  | run (lo hi : Nat)
  deriving DecidableEq, Repr

/-- Does a position of this letter permit this operand (R187)? -/
def OpCls.admits : OpCls → Operand → Bool
  | .gk, .g _ => true
  | .gk, .port _ => true
  | .g, .g _ => true
  | .v, .v _ => true
  | .p, .p _ => true
  | .w, .w _ => true
  | .m, .m _ => true
  | .imm, .imm _ => true
  | .mem, .mem _ _ => true
  | .sys, .sys _ => true
  | .none, .none => true
  | .port, .port _ => true
  | .row, .row _ => true
  | .run lo hi, .g n => decide (lo ≤ n.toNat) && decide (n.toNat ≤ hi)
  | _, _ => false

/-- One form of an entry: what each position permits, and which modifiers name this form. -/
structure Form where
  d : List OpCls
  a : List OpCls
  b : List OpCls
  modOk : Nat → Bool

/-- Does any letter of a list permit the operand? -/
def admitsAny (l : List OpCls) (o : Operand) : Bool := l.any (fun c => c.admits o)

/-- Check 4 of R183 in R447's order: none when it passes, else the TRAPVAL of the first failing field. -/
def check4 (forms : List Form) (f : Fields) : Option Nat :=
  if f.rsv then some 1
  else
    let fd := forms.filter (fun x => admitsAny x.d f.d)
    if fd.isEmpty then some 2
    else
      let fa := fd.filter (fun x => admitsAny x.a f.a)
      if fa.isEmpty then some 3
      else
        let fb := fa.filter (fun x => admitsAny x.b f.b)
        if fb.isEmpty then some 4
        else if fb.any (fun x => x.modOk f.modf.toNat) then none
        else some 5

namespace Modf

/-- [15:11] -/
def fmt (x : Nat) : Nat := bitsOf x 15 11
/-- [10:8] -/
def rnd (x : Nat) : Nat := bitsOf x 10 8
/-- [7] -/
def sat (x : Nat) : Bool := bitOf x 7
/-- [6:5] -/
def width (x : Nat) : Nat := bitsOf x 6 5
/-- [2:1], the order of R176 -/
def order (x : Nat) : Nat := bitsOf x 2 1
/-- [5:3], the scope of R176 -/
def scope (x : Nat) : Nat := bitsOf x 5 3

def zero (x : Nat) : Bool := x == 0
/-- Only bits below n may be set, and their value must lie in a set. -/
def low (n : Nat) (ok : Nat → Bool) (x : Nat) : Bool := x < 2 ^ n && ok x
def below (k : Nat) (x : Nat) : Bool := x < k
/-- R188: width in [6:5]; [4] only where .u is taken; [3:0] in a set. -/
def int (u : Bool) (ok : Nat → Bool) (x : Nat) : Bool :=
  bitsOf x 15 7 == 0 && (u || !bitOf x 4) && ok (bitsOf x 3 0)
/-- R211: f32, bf16 or f16, a rounding mode, saturate, [6:0] zero. -/
def float (x : Nat) : Bool := fmt x ≤ 2 && rnd x ≤ 5 && bitsOf x 6 0 == 0
/-- The codes FCVT takes on each side (R217). -/
def plain (c : Nat) : Bool := c ≤ 15 || c == 31
/-- R176: an order of the list, and a scope of R100, given or zero; [0] in a set. -/
def ordered (orders : List Nat) (bit0 : Bool) (x : Nat) : Bool :=
  bitsOf x 15 7 == 0 && (bit0 || !bitOf x 0) && orders.contains (order x) &&
    (if bitOf x 6 then decide (scope x ≤ 5) else scope x == 0)
/-- R259: an engine command's modifier: a scope only with an order. -/
def engine (orders : List Nat) (x : Nat) : Bool :=
  ordered orders true x && (order x != 0 || !bitOf x 6)
/-- R227: the reduction modifier. -/
def reduce (ex : Bool) (x : Nat) : Bool :=
  let op := bitsOf x 2 0
  (ex || !bitOf x 3) &&
  (if op ≤ 4 then bitsOf x 15 7 == 0 && (op == 1 || op == 2 || !bitOf x 4)
   else fmt x ≤ 2 && rnd x ≤ 5 && bitsOf x 6 4 == 0)
/-- R230: the sort modifier. -/
def sort (x : Nat) : Bool :=
  let key := bitsOf x 1 0
  let w := width x
  let fm := fmt x
  bitsOf x 10 7 == 0 &&
  (if key == 0 then fm == 0
   else if key == 1 then !bitOf x 4 && ((fm == 0 && w == 1) || ((fm == 1 || fm == 2) && w == 2))
   else if key == 2 then !bitOf x 4 && fm == 0 && w == 0
   else false)
/-- The element formats of SRCH and VDIST (R232, R272). -/
def dist (c : Nat) : Bool := c ≤ 7 || (9 ≤ c && c ≤ 12)
/-- Lanes of a width code. -/
def lanes (w : Nat) : Nat := 8 * 2 ^ w

end Modf

namespace Forms
open Modf

def G : List OpCls := [.gk]
def g1 : List OpCls := [.g]
def V : List OpCls := [.v]
def P : List OpCls := [.p]
def W : List OpCls := [.w]
def M : List OpCls := [.m]
def I : List OpCls := [.imm]
def N : List OpCls := [.none]
def Mem : List OpCls := [.mem]
def S : List OpCls := [.sys]
def Row : List OpCls := [.row]
def Port : List OpCls := [.port]
def GI : List OpCls := [.gk, .imm]
def gI : List OpCls := [.g, .imm]
def GIN : List OpCls := [.gk, .imm, .none]
def run (n : Nat) : List OpCls := [.run 1 (32 - n)]

/-- The shapes of R187. -/
def binary (md : Nat → Bool) : List Form := [⟨G, G, GI, md⟩, ⟨V, V, [.v, .gk, .imm], md⟩]
def binaryRmw (md : Nat → Bool) : List Form := [⟨g1, G, GI, md⟩, ⟨V, V, [.v, .gk, .imm], md⟩]
def unary (md : Nat → Bool) : List Form := [⟨G, G, N, md⟩, ⟨V, V, N, md⟩]
/-- The shapes of R211: no immediate. -/
def fbinary (md : Nat → Bool) : List Form := [⟨G, G, G, md⟩, ⟨V, V, [.v, .gk], md⟩]
def fbinaryRmw (md : Nat → Bool) : List Form := [⟨g1, G, G, md⟩, ⟨V, V, [.v, .gk], md⟩]
/-- An engine command of run length n (R259). -/
def command (n : Nat) (md : Nat → Bool) : List Form := [⟨N, Mem, run n, md⟩]

def noOp (x : Nat) : Bool := x == 0
def widthOnly : Nat → Bool := int false noOp
/-- A permute's modifier: width, [4] zero, [3:0] in a set (R225). -/
def perm (ok : Nat → Bool) : Nat → Bool := int false ok
def listWidth (x : Nat) : Bool := width x != 3

end Forms

open Modf Forms in
/-- The forms of an opcode, by the tables of the instruction chapters; none for a reserved opcode (R180). -/
def formsOf : Nat → List Form
  -- control (R190)
  | 0x00 => [⟨N, N, N, zero⟩]
  | 0x01 => [⟨N, I, N, zero⟩]
  | 0x02 => [⟨N, g1, N, zero⟩]
  | 0x03 => [⟨g1, gI, N, zero⟩]
  | 0x04 => [⟨N, [.g, .none], N, zero⟩]
  | 0x05 => [⟨g1, I, N, zero⟩]
  | 0x06 => [⟨N, N, N, zero⟩]
  | 0x07 => [⟨N, N, N, zero⟩]
  | 0x08 => [⟨N, g1, I, zero⟩]
  | 0x09 => [⟨N, gI, N, zero⟩]
  | 0x0A => [⟨[.g, .none], Mem, gI, zero⟩]
  | 0x0B => [⟨[.g, .none], Port, gI, zero⟩]
  | 0x0C => [⟨N, [.imm, .none], N, zero⟩]
  | 0x0D => [⟨N, gI, N, zero⟩]
  -- integer (R197)
  | 0x10 => binary (int true noOp)
  | 0x11 => binary (int true noOp)
  | 0x12 => binary (int true noOp)
  | 0x13 => binary (int true noOp)
  | 0x14 => binaryRmw (int true noOp)
  | 0x15 => binary (int true noOp)
  | 0x16 => binary (int true noOp)
  | 0x17 => unary (int false noOp)
  | 0x18 => binary (int true noOp)
  | 0x19 => binary (int true noOp)
  | 0x1A => binary (int true noOp)
  | 0x1B => binary (int true noOp)
  | 0x1C => binary (int true noOp)
  | 0x1D => binaryRmw (int true noOp)
  | 0x1E => binaryRmw (int true noOp)
  | 0x20 => binary (int true noOp)
  | 0x21 => binary (int true noOp)
  | 0x22 => binary (int true noOp)
  | 0x23 => binary (int true noOp)
  | 0x24 => binary (int true noOp)
  | 0x25 => binary (int true noOp)
  | 0x26 => binary (int true noOp)
  | 0x27 => binary (int true noOp)
  | 0x28 => unary (int true noOp)
  | 0x29 => unary (int true noOp)
  | 0x2A => unary (int true noOp)
  | 0x2B => binary (int true noOp)
  | 0x2C => binaryRmw (int true noOp)
  | 0x2D => binary (fun x => int true noOp x && width x == 0)
  | 0x2E => binaryRmw (fun x => int true noOp x && width x == 0)
  -- moves and compares (R202 to R210)
  | 0x30 => [⟨G, GI, N, zero⟩, ⟨V, V, N, zero⟩, ⟨P, P, N, zero⟩, ⟨W, W, N, zero⟩, ⟨M, M, N, zero⟩]
  | 0x31 => [⟨g1, I, N, below 4⟩]
  | 0x32 => [⟨G, G, GI, below 8⟩,
             ⟨P, P, P, fun x => bitsOf x 15 7 == 0 && bitsOf x 4 3 == 0⟩,
             ⟨V, V, [.v, .gk, .imm], fun x => bitsOf x 15 7 == 0 && bitsOf x 4 3 == 0⟩]
  | 0x33 => [⟨P, G, GI, int true (below 7)⟩]
  | 0x34 => [⟨P, P, P, below 2⟩, ⟨W, W, W, below 2⟩]
  | 0x35 => [⟨P, P, P, below 2⟩, ⟨W, W, W, below 2⟩]
  | 0x36 => [⟨P, P, P, below 2⟩, ⟨W, W, W, below 2⟩]
  | 0x37 => [⟨G, Mem, N, widthOnly⟩]
  | 0x38 => [⟨G, S, N, zero⟩, ⟨S, GI, N, zero⟩]
  | 0x39 => [⟨W, G, N, zero⟩, ⟨G, W, N, zero⟩, ⟨P, G, N, zero⟩, ⟨G, P, N, zero⟩, ⟨M, G, GI, zero⟩, ⟨G, M, GI, zero⟩]
  | 0x3A => [⟨V, GIN, GIN, int true noOp⟩]
  | 0x3B => [⟨V, GI, N, int true noOp⟩, ⟨V, V, GI, int true noOp⟩]
  | 0x3C => [⟨G, V, GI, int true noOp⟩]
  | 0x3D => [⟨V, G, GI, int true noOp⟩]
  | 0x3E => [⟨W, V, [.v, .gk, .imm], int true (below 7)⟩]
  -- float (R211 to R223)
  | 0x40 => fbinary float
  | 0x41 => fbinary float
  | 0x42 => fbinary float
  | 0x43 => fbinaryRmw float
  | 0x44 => fbinaryRmw float
  | 0x45 => fbinaryRmw float
  | 0x46 => fbinary float
  | 0x47 => fbinary float
  | 0x48 => unary float
  | 0x49 => unary float
  | 0x4A =>
    let md := fun x => fmt x ≤ 2 && bitsOf x 10 7 == 0 && bitsOf x 6 4 == 0 && (!bitOf x 3 || decide (bitsOf x 2 0 ≤ 5))
    [⟨P, G, G, md⟩, ⟨W, V, [.v, .gk], md⟩]
  | 0x4B => unary (fun x => fmt x ≤ 2 && bitsOf x 10 0 == 0)
  | 0x4C => fbinary float
  | 0x4D => unary float
  | 0x4E => unary float
  | 0x4F => unary float
  | 0x50 => unary float
  | 0x51 => unary float
  | 0x52 => unary float
  | 0x53 => [⟨G, G, GI, float⟩, ⟨V, V, [.v, .gk, .imm], float⟩]
  | 0x54 =>
    let md := fun x => plain (fmt x) && rnd x ≤ 5 && bitsOf x 6 5 == 0 && plain (bitsOf x 4 0)
    [⟨G, G, N, md⟩, ⟨V, V, GIN, md⟩]
  | 0x55 => unary (fun x => fmt x ≤ 2 && rnd x ≤ 5 && bitsOf x 6 5 == 0 && bitsOf x 3 0 == 0)
  | 0x56 => unary (fun x => fmt x ≤ 2 && rnd x ≤ 5 && bitsOf x 6 5 == 0 && bitsOf x 3 0 == 0)
  | 0x57 => unary (fun x => float x && rnd x ≤ 4)
  | 0x58 => [⟨g1, V, V, fun x => fmt x ≤ 7 && rnd x ≤ 5 && bitsOf x 6 0 == 0⟩]
  | 0x59 =>
    let ok := fun x => decide (23 ≤ fmt x) && decide (fmt x ≤ 30) && rnd x ≤ 5 && bitsOf x 6 5 == 0
    [⟨V, V, V, fun x => ok x && bitsOf x 4 0 == 0⟩, ⟨V, V, N, fun x => ok x && (bitsOf x 4 0 == 1 || bitsOf x 4 0 == 2)⟩]
  | 0x5A => [⟨V, V, GIN, fun x => fmt x ≤ 2 && rnd x ≤ 5 && bitsOf x 6 5 == 0 &&
               decide (23 ≤ bitsOf x 4 0) && decide (bitsOf x 4 0 ≤ 30)⟩]
  | 0x5B => [⟨G, V, GI, zero⟩]
  | 0x5C => [⟨V, G, GI, zero⟩]
  -- vector (R225 to R232)
  | 0x60 => [⟨V, V, V, perm noOp⟩]
  | 0x61 => [⟨V, V, V, perm noOp⟩]
  | 0x62 => [⟨V, V, GI, perm (below 2)⟩]
  | 0x63 => [⟨V, V, V, perm (below 2)⟩]
  | 0x64 => [⟨V, V, V, perm (below 2)⟩]
  | 0x65 => [⟨V, V, W, perm noOp⟩]
  | 0x66 => [⟨V, V, W, perm (below 2)⟩]
  | 0x67 => [⟨G, V, [.w, .none], reduce false⟩]
  | 0x68 => [⟨V, V, [.w, .none], reduce true⟩]
  | 0x69 => [⟨V, V, GI, below 2⟩]
  | 0x6A => [⟨V, V, N, sort⟩]
  | 0x6B => [⟨g1, V, V, fun x => dist (fmt x) && rnd x ≤ 5 && bitsOf x 6 1 == 0⟩]
  | 0x6C => [⟨W, V, V, perm noOp⟩, ⟨W, V, N, perm (fun x => x == 1)⟩]
  | 0x6D => [⟨V, V, W, reduce true⟩]
  -- membership (R233 to R238)
  | 0x70 => [⟨M, N, N, below 2⟩, ⟨M, N, GI, fun x => decide (2 ≤ x) && decide (x ≤ 4)⟩]
  | 0x71 => [⟨M, M, [.m, .v], zero⟩]
  | 0x72 => [⟨M, M, [.m, .v], zero⟩]
  | 0x73 => [⟨M, M, [.m, .v], zero⟩]
  | 0x74 => [⟨G, M, GIN, zero⟩]
  | 0x75 => [⟨G, M, GIN, below 2⟩]
  | 0x76 => [⟨M, M, M, zero⟩]
  | 0x77 => [⟨M, M, W, fun x => bitsOf x 15 7 == 0 && listWidth x && decide (bitsOf x 4 0 * lanes (width x) < 256)⟩]
  | 0x78 => [⟨V, Mem, GI, below 10⟩]
  | 0x79 => [⟨g1, Mem, Mem, below 4⟩]
  | 0x7A => [⟨V, G, M, below 32⟩]
  | 0x7B => [⟨V, M, N, fun x => x == 0 || (bitsOf x 15 7 == 0 && bitsOf x 4 0 == 1 && listWidth x)⟩,
             ⟨V, M, GI, fun x => bitsOf x 15 7 == 0 && bitsOf x 4 0 == 1 && listWidth x⟩]
  | 0x7C => [⟨M, V, N, fun x => x == 0 || (bitsOf x 15 7 == 0 && bitsOf x 4 0 == 1 && listWidth x)⟩]
  | 0x7D => [⟨M, G, N, zero⟩]
  -- local memory (R240 to R244)
  | 0x80 => [⟨G, Mem, N, ordered [0, 1] false⟩]
  | 0x81 => [⟨N, Mem, GI, ordered [0, 2] false⟩]
  | 0x82 => [⟨V, Mem, N, ordered [0, 1] false⟩]
  | 0x83 => [⟨N, Mem, V, ordered [0, 2] false⟩]
  | 0x84 => [⟨V, Mem, V, widthOnly⟩]
  | 0x85 => [⟨V, Mem, V, widthOnly⟩]
  | 0x86 => [⟨G, Mem, N, ordered [0, 1] false⟩]
  | 0x87 => [⟨G, Mem, N, ordered [0, 1] false⟩]
  | 0x88 => [⟨N, Mem, GI, ordered [0, 2] false⟩]
  | 0x89 => [⟨N, Mem, GI, ordered [0, 2] false⟩]
  | 0x8A => [⟨N, Mem, N, below 2⟩]
  | 0x8B => [⟨P, Mem, N, zero⟩]
  | 0x8C => [⟨g1, Mem, GI, below 10⟩]
  -- barriers, channels, gangs (R245 to R257)
  | 0x90 => [⟨N, Mem, GI, zero⟩]
  | 0x91 => [⟨N, Mem, GI, below 2⟩]
  | 0x92 => [⟨N, Mem, GI, zero⟩]
  | 0x93 => [⟨G, Mem, N, fun x => x == 0 || x == 2⟩]
  | 0x94 => [⟨N, N, N, ordered [0, 1, 2, 3] false⟩]
  | 0x95 => [⟨N, GI, GI, below 2⟩]
  | 0x96 => [⟨N, GI, GI, below 2⟩]
  | 0x97 => [⟨P, GI, GI, below 2⟩]
  | 0x98 => [⟨g1, Port, N, fun x => x == 0 || (decide (8 ≤ x) && decide (x < 16))⟩]
  | 0x99 => [⟨g1, Port, N, fun x => x == 0 || (decide (8 ≤ x) && decide (x < 16))⟩]
  | 0x9A => [⟨Port, GI, N, zero⟩, ⟨N, GI, GI, below 2⟩]
  | 0x9B => [⟨g1, [.port, .imm], N, zero⟩]
  | 0x9C => [⟨N, GI, N, zero⟩]
  | 0x9D => [⟨N, GI, N, below 2⟩]
  | 0x9E => [⟨N, GI, GI, zero⟩]
  | 0x9F => [⟨P, GI, N, fun x => decide (x < 128) && bitsOf x 1 0 != 3⟩]
  -- engines (R259 to R274)
  | 0xA0 => command 3 (engine [0])
  | 0xA1 => command 5 (engine [0])
  | 0xA2 => command 3 (engine [0, 1])
  | 0xA3 => command 3 (engine [0, 2])
  | 0xA4 => command 5 (engine [0])
  | 0xA5 => command 5 (engine [0])
  | 0xA6 => command 6 (engine [0, 1, 2])
  | 0xA7 => command 5 (engine [0])
  | 0xA8 => command 7 (engine [0, 1, 2])
  | 0xA9 => command 3 (engine [0])
  | 0xAA => [⟨N, Mem, GI, zero⟩]
  | 0xAB => command 2 zero
  | 0xAC => command 6 (engine [0])
  | 0xAD => command 3 (engine [0])
  | 0xAE => command 4 (engine [0])
  -- the matrix array (R278)
  | 0xB0 => [⟨N, Mem, N, fun x => bitsOf x 10 1 == 0 && fmt x != 31 && (!bitOf x 0 || !(decide (16 ≤ fmt x) && decide (fmt x ≤ 22)))⟩]
  | 0xB1 => [⟨N, N, N, zero⟩]
  | 0xB2 => [⟨Row, Mem, Mem, below 2⟩]
  | 0xB3 => [⟨Row, Mem, Mem, below 2⟩]
  | 0xB4 => [⟨Row, GI, N, below 2⟩]
  | 0xB5 => [⟨[.none, .g], Mem, Row, fun x => plain (fmt x) && rnd x ≤ 5 && bitsOf x 6 0 == 0⟩]
  | 0xB6 => [⟨V, Row, N, zero⟩]
  | 0xB7 => [⟨Row, V, N, below 2⟩]
  | 0xB8 => [⟨g1, [.row, .none], N, zero⟩]
  -- search and balance (R272, R273)
  | 0xC0 => command 6 (fun x => dist (fmt x) && bitsOf x 10 1 == 0)
  | 0xC1 => command 7 (fun x => dist (fmt x) && bitsOf x 10 1 == 0)
  | 0xC2 => [⟨g1, Mem, run 2, zero⟩]
  -- setts, deadlines, launches (R295)
  | 0xD0 => [⟨g1, GI, N, below 2⟩]
  | 0xD1 => [⟨N, G, N, zero⟩]
  | 0xD2 => [⟨N, G, GI, zero⟩]
  | 0xD3 => [⟨N, G, GI, zero⟩]
  | 0xD4 => [⟨N, N, N, fun x => x == 0 || x == 2⟩, ⟨N, GI, N, fun x => x == 1⟩]
  | 0xD5 => [⟨g1, G, N, below 2⟩]
  | 0xD6 => [⟨N, GI, N, zero⟩]
  | 0xD7 => [⟨N, G, G, zero⟩, ⟨N, GI, N, fun x => x == 1⟩]
  | 0xD8 => [⟨N, N, N, zero⟩]
  | 0xD9 => [⟨P, Mem, GI, zero⟩]
  -- traps and privileged operations (R295)
  | 0xE0 => [⟨g1, S, N, zero⟩, ⟨S, GI, N, zero⟩]
  | 0xE1 => [⟨N, N, N, below 2⟩]
  | 0xE2 => command 2 zero
  | 0xE3 => command 2 zero
  | 0xE4 => [⟨N, G, G, fun x => decide (x < 8) && bitsOf x 1 0 != 3⟩]
  | 0xE5 => [⟨N, N, N, zero⟩]
  | 0xE6 => [⟨g1, GI, N, below 2⟩, ⟨V, GI, N, fun x => x == 2⟩]
  | 0xE7 => [⟨P, GI, V, zero⟩]
  | 0xE8 => [⟨g1, GI, N, zero⟩, ⟨N, GI, N, fun x => x == 1⟩]
  | 0xE9 => [⟨N, N, N, zero⟩]
  | 0xEA => [⟨g1, G, N, zero⟩]
  | _ => []

end Sys2Proof
end

