-- ==== Sys2Proof/WellFormed.lean ====
section
/-! DEFINITION. Which instructions are well formed: an operand that some field value encodes, and fields that pass check 4 of
R183. An ill-formed instruction is no decoding error: its issue is an exact fault (R183). -/

namespace Sys2Proof

/-- Does some 20-bit field decode to this operand (R173)? -/
def Operand.encodable : Operand → Bool
  | .row n => decide (n.toNat ≤ 1279)
  | .bad raw =>
    let cls := raw.toNat >>> 17
    let pay := raw.toNat % 2 ^ 17
    if cls ≤ 1 then pay >>> 5 != 0
    else if cls == 2 then pay >>> 5 != 0 || bitsOf pay 4 3 == 3 || (bitsOf pay 4 3 == 2 && decide (bitsOf pay 2 0 > 3))
    else if cls == 3 then
      if bitOf pay 16 then bitsOf pay 15 11 != 0 || decide (bitsOf pay 10 0 > 1279) else bitsOf pay 15 3 != 0
    else if cls == 7 then pay != 0
    else false
  | _ => true

/-- An operand that an instruction may carry without a fault of cause 0x02. -/
def Operand.sound : Operand → Bool
  | .bad _ => false
  | o => o.encodable

/-- The fields as some word encodes them. -/
def Fields.encodable (f : Fields) : Bool := f.d.encodable && f.a.encodable && f.b.encodable

/-- An instruction that some word encodes: its operands are encodable, and illegalInstruction carries a reserved opcode. -/
def Instr.encodable (i : Instr) : Bool :=
  match i with
  | .illegalInstruction (.reserved op f) => (formsOf op.toNat).isEmpty && f.encodable
  | i =>
    match i.word? with
    | some (_, f) => f.encodable
    | none => false

/-- A well-formed instruction: it passes check 4 (R183, R447) and its operands are sound. An event has no fields to check. -/
def Instr.wellFormed (i : Instr) : Bool :=
  match i.word? with
  | some (op, f) => (check4 (formsOf op.toNat) f).isNone && f.d.sound && f.a.sound && f.b.sound
  | none => true

end Sys2Proof
end

