-- ==== Sys2Proof/Decode.lean ====
section
/-! DEFINITION. Decoding: total on any bytes. Twelve bytes always decode (R171): a reserved opcode gives illegalInstruction
(R183 check 1), and fewer than twelve bytes are rejected by name. The encoder follows, from the same tables. -/

namespace Sys2Proof

/-- Why bytes are no instruction. -/
inductive DecodeError where
  /-- fewer than the 12 bytes of an instruction (R171) -/
  | tooShort
  deriving DecidableEq, Repr

/-- An operand field, by the classes of R173. -/
def decodeOperand (x : BitVec 20) : Operand :=
  let cls := x.extractLsb' 17 3
  let pay := x.extractLsb' 0 17
  if cls = 0 then
    if pay.extractLsb' 5 12 = 0 then .g (pay.extractLsb' 0 5) else .bad x
  else if cls = 1 then
    if pay.extractLsb' 5 12 = 0 then .v (pay.extractLsb' 0 5) else .bad x
  else if cls = 2 then
    if pay.extractLsb' 5 12 = 0 then
      if pay.extractLsb' 3 2 = 0 then .p (pay.extractLsb' 0 3)
      else if pay.extractLsb' 3 2 = 1 then .w (pay.extractLsb' 0 3)
      else if pay.extractLsb' 3 2 = 2 then
        if pay.extractLsb' 2 1 = 0 then .m (pay.extractLsb' 0 2) else .bad x
      else .bad x
    else .bad x
  else if cls = 3 then
    if pay.extractLsb' 16 1 = 0 then
      if pay.extractLsb' 3 13 = 0 then .port (pay.extractLsb' 0 3) else .bad x
    else
      if pay.extractLsb' 11 5 = 0 ∧ (pay.extractLsb' 0 11).toNat ≤ 1279 then .row (pay.extractLsb' 0 11) else .bad x
  else if cls = 4 then .imm pay
  else if cls = 5 then .mem (pay.extractLsb' 12 5) (pay.extractLsb' 0 12)
  else if cls = 6 then .sys pay
  else if pay = 0 then .none else .bad x

/-- The fields of a word besides its opcode (R171). -/
def decodeFields (x : BitVec 96) : Fields where
  neg := x.getLsbD 87
  pred := x.extractLsb' 84 3
  hints := x.extractLsb' 77 7
  rsv := x.getLsbD 76
  d := decodeOperand (x.extractLsb' 56 20)
  a := decodeOperand (x.extractLsb' 36 20)
  b := decodeOperand (x.extractLsb' 16 20)
  modf := x.extractLsb' 0 16

/-- The instruction of an opcode (R180): a reserved code is an illegal instruction. -/
def instrOf (op : BitVec 8) (f : Fields) : Instr :=
  match op.toNat with
  | 0x00 => .nop f
  | 0x01 => .bra f
  | 0x02 => .jmp f
  | 0x03 => .call f
  | 0x04 => .ret f
  | 0x05 => .loop f
  | 0x06 => .endFiring f
  | 0x07 => .yield f
  | 0x08 => .jtab f
  | 0x09 => .trap f
  | 0x0A => .waitb f
  | 0x0B => .waitc f
  | 0x0C => .brk f
  | 0x0D => .sleep f
  | 0x10 => .add f
  | 0x11 => .sub f
  | 0x12 => .mul f
  | 0x13 => .mulh f
  | 0x14 => .mad f
  | 0x15 => .div f
  | 0x16 => .rem f
  | 0x17 => .abs f
  | 0x18 => .min f
  | 0x19 => .max f
  | 0x1A => .adds f
  | 0x1B => .subs f
  | 0x1C => .avg f
  | 0x1D => .sad f
  | 0x1E => .clamp f
  | 0x20 => .and f
  | 0x21 => .or f
  | 0x22 => .xor f
  | 0x23 => .andn f
  | 0x24 => .shl f
  | 0x25 => .shr f
  | 0x26 => .sar f
  | 0x27 => .rol f
  | 0x28 => .clz f
  | 0x29 => .popc f
  | 0x2A => .brev f
  | 0x2B => .ext f
  | 0x2C => .ins f
  | 0x2D => .hash f
  | 0x2E => .mix f
  | 0x30 => .mov f
  | 0x31 => .movh f
  | 0x32 => .sel f
  | 0x33 => .cmp f
  | 0x34 => .pand f
  | 0x35 => .por f
  | 0x36 => .pxor f
  | 0x37 => .lea f
  | 0x38 => .movs f
  | 0x39 => .movw f
  | 0x3A => .iota f
  | 0x3B => .bcast f
  | 0x3C => .extl f
  | 0x3D => .insl f
  | 0x3E => .cmpv f
  | 0x40 => .fadd f
  | 0x41 => .fsub f
  | 0x42 => .fmul f
  | 0x43 => .fma f
  | 0x44 => .fms f
  | 0x45 => .fnma f
  | 0x46 => .fmin f
  | 0x47 => .fmax f
  | 0x48 => .fabs f
  | 0x49 => .fneg f
  | 0x4A => .fcmp f
  | 0x4B => .fclass f
  | 0x4C => .fdiv f
  | 0x4D => .fsqrt f
  | 0x4E => .frcp f
  | 0x4F => .frsq f
  | 0x50 => .fexp2 f
  | 0x51 => .flog2 f
  | 0x52 => .ftanh f
  | 0x53 => .fscale f
  | 0x54 => .fcvt f
  | 0x55 => .ftoi f
  | 0x56 => .itof f
  | 0x57 => .frnd f
  | 0x58 => .fdot f
  | 0x59 => .qnt f
  | 0x5A => .dqnt f
  | 0x5B => .plsplit f
  | 0x5C => .pljoin f
  | 0x60 => .vshuf f
  | 0x61 => .vperm2 f
  | 0x62 => .vrot f
  | 0x63 => .vzip f
  | 0x64 => .vunzip f
  | 0x65 => .vcomp f
  | 0x66 => .vexp f
  | 0x67 => .vred f
  | 0x68 => .vscan f
  | 0x69 => .vtopk f
  | 0x6A => .vsort f
  | 0x6B => .vdist f
  | 0x6C => .vmatch f
  | 0x6D => .vseg f
  | 0x70 => .mset f
  | 0x71 => .mand f
  | 0x72 => .mor f
  | 0x73 => .mandn f
  | 0x74 => .mcnt f
  | 0x75 => .mfind f
  | 0x76 => .msplit f
  | 0x77 => .mpred f
  | 0x78 => .qld f
  | 0x79 => .qst f
  | 0x7A => .walk f
  | 0x7B => .mtov f
  | 0x7C => .vtom f
  | 0x7D => .mmeet f
  | 0x80 => .ld f
  | 0x81 => .st f
  | 0x82 => .ldv f
  | 0x83 => .stv f
  | 0x84 => .ldx f
  | 0x85 => .stx f
  | 0x86 => .ldfe f
  | 0x87 => .ldff f
  | 0x88 => .stef f
  | 0x89 => .stxf f
  | 0x8A => .femark f
  | 0x8B => .fepoll f
  | 0x8C => .latom f
  | 0x90 => .binit f
  | 0x91 => .bexpect f
  | 0x92 => .barrive f
  | 0x93 => .bpoll f
  | 0x94 => .fence f
  | 0x95 => .send f
  | 0x96 => .sendt f
  | 0x97 => .trysend f
  | 0x98 => .recv f
  | 0x99 => .peek f
  | 0x9A => .ctrl f
  | 0x9B => .chcnt f
  | 0x9C => .gang f
  | 0x9D => .hmask f
  | 0x9E => .hprio f
  | 0x9F => .spawn f
  | 0xA0 => .copy f
  | 0xA1 => .copy2 f
  | 0xA2 => .get f
  | 0xA3 => .put f
  | 0xA4 => .getx f
  | 0xA5 => .putx f
  | 0xA6 => .amo f
  | 0xA7 => .amox f
  | 0xA8 => .amof f
  | 0xA9 => .rotate f
  | 0xAA => .job f
  | 0xAB => .emsg f
  | 0xAC => .xsend f
  | 0xAD => .xpost f
  | 0xAE => .xget f
  | 0xB0 => .mlds f
  | 0xB1 => .mswap f
  | 0xB2 => .mma f
  | 0xB3 => .mmag f
  | 0xB4 => .macc f
  | 0xB5 => .mcvt f
  | 0xB6 => .mrda f
  | 0xB7 => .mwra f
  | 0xB8 => .mstat f
  | 0xC0 => .srch f
  | 0xC1 => .srchf f
  | 0xC2 => .mpath f
  | 0xD0 => .sacq f
  | 0xD1 => .srel f
  | 0xD2 => .sshrink f
  | 0xD3 => .surr f
  | 0xD4 => .sverd f
  | 0xD5 => .sqry f
  | 0xD6 => .estset f
  | 0xD7 => .commit f
  | 0xD8 => .wuend f
  | 0xD9 => .launch f
  | 0xE0 => .movsw f
  | 0xE1 => .rft f
  | 0xE2 => .csave f
  | 0xE3 => .crest f
  | 0xE4 => .niinv f
  | 0xE5 => .nisync f
  | 0xE6 => .jrnl f
  | 0xE7 => .evpost f
  | 0xE8 => .perf f
  | 0xE9 => .idle f
  | 0xEA => .spillni f
  | _ => .illegalInstruction (.reserved op f)

/-- The instruction of a 96-bit word. -/
def decodeWord (x : BitVec 96) : Instr := instrOf (x.extractLsb' 88 8) (decodeFields x)

/-- Bytes as a number, the first byte lowest (R4). -/
def natOfBytes : List Byte → Nat
  | [] => 0
  | b :: bs => b.toNat + 256 * natOfBytes bs

/-- The low k bytes of a number, the lowest first (R4). -/
def bytesOfNat : Nat → Nat → List Byte
  | 0, _ => []
  | k + 1, x => BitVec.ofNat 8 x :: bytesOfNat k (x / 256)

/-- An instruction off the front of a byte list, with the bytes after it. -/
def decodeBytes (bs : List Byte) : Except DecodeError (Instr × List Byte) :=
  if bs.length < 12 then .error .tooShort
  else .ok (decodeWord (BitVec.ofNat 96 (natOfBytes (bs.take 12))), bs.drop 12)

/-- What the decoder reads from an instruction whose bits, numbered from the first byte's lowest, are w. -/
def decodeTableWord (nbits w : Nat) : Option Instr :=
  if nbits ≤ 96 then
    match decodeBytes (bytesOfNat 12 (w % 2 ^ nbits)) with
    | .ok (i, _) => some i
    | .error _ => none
  else none

/-- An operand field from its parts: the class in [19:17], the payload in [16:0] (R173). -/
def encodeOperand : Operand → BitVec 20
  | .g n => (0 : BitVec 15) ++ n
  | .v n => (1 : BitVec 3) ++ (0 : BitVec 12) ++ n
  | .p n => (2 : BitVec 3) ++ (0 : BitVec 12) ++ (0 : BitVec 2) ++ n
  | .w n => (2 : BitVec 3) ++ (0 : BitVec 12) ++ (1 : BitVec 2) ++ n
  | .m n => (2 : BitVec 3) ++ (0 : BitVec 12) ++ (2 : BitVec 2) ++ (0 : BitVec 1) ++ n
  | .port n => (3 : BitVec 3) ++ (0 : BitVec 14) ++ n
  | .row n => (3 : BitVec 3) ++ (1 : BitVec 1) ++ (0 : BitVec 5) ++ n
  | .imm x => (4 : BitVec 3) ++ x
  | .mem base off => (5 : BitVec 3) ++ base ++ off
  | .sys n => (6 : BitVec 3) ++ n
  | .none => (7 : BitVec 3) ++ (0 : BitVec 17)
  | .bad raw => raw

/-- A bit. -/
def bit1 (b : Bool) : BitVec 1 := if b then 1 else 0

/-- The word of an opcode and its fields (R171). -/
def encodeFields (op : BitVec 8) (f : Fields) : BitVec 96 :=
  op ++ bit1 f.neg ++ f.pred ++ f.hints ++ bit1 f.rsv ++ encodeOperand f.d ++ encodeOperand f.a ++ encodeOperand f.b ++ f.modf

/-- The word of an instruction; an event and a fetch past the code have none. -/
def encode (i : Instr) : Option (BitVec 96) :=
  match i.word? with
  | some (op, f) => some (encodeFields op f)
  | none => none

end Sys2Proof
end

