-- ==== Sys2Proof/Machine/Num.lean ====
section
/-! DEFINITION. Number formats and exact arithmetic (spec chapter 08): exact values as signed rationals, decode, round_to,
totalorder, the stochastic rounding register, and the functions of R212. -/

namespace Sys2Proof.Num

/-- The exact value of an encoding (R151): NaN, an infinity, or ± num / den; num = 0 is a signed zero. den is never 0. -/
inductive XVal where
  | nan
  | inf (neg : Bool)
  | fin (neg : Bool) (num den : Nat)
  deriving DecidableEq, Repr

/-- 2^e as a fraction. -/
def pow2 (neg : Bool) (k : Nat) (e : Int) : XVal :=
  if 0 ≤ e then .fin neg (k * 2 ^ e.toNat) 1 else .fin neg k (2 ^ (-e).toNat)

/-- An integer as an exact value; 0 is +0. -/
def ofInt (z : Int) : XVal := .fin (decide (z < 0)) z.natAbs 1

/-- A w-bit number read as two's complement. -/
def signed (w x : Nat) : Int := if x % 2 ^ w < 2 ^ (w - 1) then ((x % 2 ^ w : Nat) : Int) else ((x % 2 ^ w : Nat) : Int) - 2 ^ w

/-- An integer modulo 2^w. -/
def wrap (w : Nat) (z : Int) : Nat := (z % (2 ^ w : Int)).toNat

/-- The layout of a float format (R154). -/
structure FloatFmt where
  e : Nat
  m : Nat
  bias : Nat
  /-- the largest finite magnitude's encoding -/
  maxEnc : Nat
  /-- has infinities, at maxEnc + 1 -/
  hasInf : Bool
  /-- the canonical NaN, where there is one -/
  nan : Option Nat
  deriving DecidableEq, Repr

/-- The float formats of codes 0 to 7 (R154). -/
def floatFmt : Nat → FloatFmt
  | 0 => ⟨8, 23, 127, 0x7F7FFFFF, true, some 0x7FC00000⟩
  | 1 => ⟨8, 7, 127, 0x7F7F, true, some 0x7FC0⟩
  | 2 => ⟨5, 10, 15, 0x7BFF, true, some 0x7E00⟩
  | 3 => ⟨4, 3, 7, 0x7E, false, some 0x7F⟩
  | 4 => ⟨5, 2, 15, 0x7B, true, some 0x7E⟩
  | 5 => ⟨3, 2, 3, 0x1F, false, none⟩
  | 6 => ⟨2, 3, 1, 0x1F, false, none⟩
  | _ => ⟨2, 1, 1, 0x7, false, none⟩

/-- The width in bits of a format's elements (R152); nested planes count their planes. -/
def fmtWidth (c : Nat) : Nat :=
  if c = 0 then 32
  else if c = 1 ∨ c = 2 ∨ c = 8 then 16
  else if c = 7 ∨ c = 11 ∨ c = 12 ∨ c = 27 ∨ c = 28 ∨ c = 30 then 4
  else if c = 13 ∨ c = 15 then 2
  else if c = 14 then 1
  else if 16 ≤ c ∧ c ≤ 22 then c - 14
  else 8

/-- The element format of a block-scaled code (R160), and any other code itself. -/
def elemFmt (c : Nat) : Nat :=
  if 23 ≤ c ∧ c ≤ 27 then c - 20
  else if c = 28 then 7
  else if c = 29 then 9
  else if c = 30 then 11
  else c

/-- The group length of a block-scaled code (R160). -/
def groupOf (c : Nat) : Nat := if c = 28 then 16 else 32

/-- Is the code one of the block-scaled ones? -/
def isBlock (c : Nat) : Bool := decide (23 ≤ c) && decide (c ≤ 30)
/-- Is the code a nested-plane one? -/
def isPlanes (c : Nat) : Bool := decide (16 ≤ c) && decide (c ≤ 22)

/-- The exact value of a float encoding (R154, R156). -/
def decodeFloat (c x : Nat) : XVal :=
  let f := floatFmt c
  let mag := x % 2 ^ (f.e + f.m)
  let neg := x.testBit (f.e + f.m)
  let ex := mag >>> f.m
  let mn := mag % 2 ^ f.m
  if mag > f.maxEnc then
    if f.hasInf && mag == f.maxEnc + 1 then .inf neg else if f.nan.isSome then .nan else .fin neg mag 1
  else if ex = 0 then
    if c = 1 then .fin neg 0 1 else pow2 neg mn (1 - (f.bias : Int) - f.m)
  else pow2 neg (2 ^ f.m + mn) ((ex : Int) - f.bias - f.m)

/-- The exact value of an encoding in any unscaled format: codes 0 to 15 and 31 (R154, R155, R158). -/
def decode (c x : Nat) : XVal :=
  if c ≤ 7 then decodeFloat c x
  else if c = 8 then ofInt (signed 16 x)
  else if c = 9 then ofInt (signed 8 x)
  else if c = 10 then ofInt (x % 256)
  else if c = 11 then ofInt (signed 4 x)
  else if c = 12 then ofInt (x % 16)
  else if c = 13 then
    match x % 4 with
    | 1 => ofInt 1
    | 3 => ofInt (-1)
    | _ => ofInt 0
  else if c = 14 then (if x % 2 = 1 then ofInt 1 else ofInt (-1))
  else if c = 15 then ofInt (signed 2 x)
  else if c = 31 then (if x % 256 = 255 then .nan else pow2 false 1 ((x % 256 : Nat) - 127))
  else .nan

/-- The exact value of a ue5m3 scale (R155). -/
def decodeUe5m3 (x : Nat) : XVal :=
  let x := x % 256
  if x = 255 then .nan
  else if x >>> 3 = 0 then pow2 false (x % 8) (-17)
  else pow2 false (8 + x % 8) ((x >>> 3 : Nat) - 18)

/-- The scale of a group of a block-scaled code (R160). -/
def decodeScale (c x : Nat) : XVal := if c = 28 then decodeUe5m3 x else decode 31 x

/-- Exact product (R157). -/
def XVal.mul : XVal → XVal → XVal
  | .nan, _ => .nan
  | _, .nan => .nan
  | .inf a, .inf b => .inf (a != b)
  | .inf a, .fin b n _ => if n = 0 then .nan else .inf (a != b)
  | .fin a n _, .inf b => if n = 0 then .nan else .inf (a != b)
  | .fin a n d, .fin b n' d' => .fin (a != b) (n * n') (d * d')

def XVal.neg : XVal → XVal
  | .nan => .nan
  | .inf a => .inf (!a)
  | .fin a n d => .fin (!a) n d

/-- The value with its sign cleared. -/
def XVal.abs : XVal → XVal
  | .nan => .nan
  | .inf _ => .inf false
  | .fin _ n d => .fin false n d

def XVal.isNan : XVal → Bool
  | .nan => true
  | _ => false

def XVal.isZero : XVal → Bool
  | .fin _ n _ => n == 0
  | _ => false

def XVal.sign : XVal → Bool
  | .nan => false
  | .inf a => a
  | .fin a _ _ => a

/-- Signed numerator of a finite value. -/
def snum (neg : Bool) (n : Nat) : Int := if neg then -(n : Int) else n

/-- Exact sum of two values; rd is round-down, under which an exact zero sum is -0 (R157). -/
def XVal.add (rd : Bool) : XVal → XVal → XVal
  | .nan, _ => .nan
  | _, .nan => .nan
  | .inf a, .inf b => if a = b then .inf a else .nan
  | .inf a, _ => .inf a
  | _, .inf b => .inf b
  | .fin a n d, .fin b n' d' =>
    let s := snum a n * d' + snum b n' * d
    if s = 0 then
      .fin (rd || (n == 0 && n' == 0 && a && b)) 0 1
    else .fin (decide (s < 0)) s.natAbs (d * d')

/-- Exact sum of a list of terms, as one sum (R157, R170). -/
def xsum (rd : Bool) (l : List XVal) : XVal :=
  let infs := l.filter (fun x => match x with | .inf _ => true | _ => false)
  if l.any XVal.isNan then .nan
  else match infs with
    | x :: xs => if xs.all (fun y => y == x) then x else .nan
    | [] =>
      if !l.isEmpty && l.all (fun x => x.isZero && x.sign) then .fin true 0 1
      else
        match l.foldl (fun acc x => match x with
          | .fin a n d => (acc.1 * d + snum a n * acc.2, acc.2 * d)
          | _ => acc) ((0 : Int), (1 : Nat)) with
        | (s, d) => if s = 0 then .fin rd 0 1 else .fin (decide (s < 0)) s.natAbs d

/-- Exact quotient (R212): a finite non-zero value over a zero is an infinity. -/
def XVal.div : XVal → XVal → XVal
  | .nan, _ => .nan
  | _, .nan => .nan
  | .inf _, .inf _ => .nan
  | .inf a, .fin b _ _ => .inf (a != b)
  | .fin a _ _, .inf b => .fin (a != b) 0 1
  | .fin a n d, .fin b n' d' =>
    if n' = 0 then (if n = 0 then .nan else .inf (a != b)) else .fin (a != b) (n * d') (d * n')

/-- Is a ≤ b, for values that are not NaN? -/
def XVal.le : XVal → XVal → Bool
  | .nan, _ => false
  | _, .nan => false
  | .inf a, y => a || (match y with | .inf b => !b | _ => false)
  | .fin _ _ _, .inf b => !b
  | .fin a n d, .fin b n' d' => decide (snum a n * d' ≤ snum b n' * d)

/-- Ordinary equality: -0 equals +0; NaN equals nothing (R157). -/
def XVal.eqv (a b : XVal) : Bool := a.le b && b.le a

/-- ⌊log2 (n / d)⌋ for n and d above 0. -/
def ilog2 (n d : Nat) : Int :=
  let e : Int := (Nat.log2 n : Int) - Nat.log2 d
  let ge := if 0 ≤ e then decide (d * 2 ^ e.toNat ≤ n) else decide (d ≤ n * 2 ^ (-e).toNat)
  if ge then e else e - 1

/-- Round t = n / d, of a sign, to an integer in a mode (R164, R166); l is L[23:0] for mode 5. -/
def roundNat (mode : Nat) (neg : Bool) (l n d : Nat) : Nat :=
  let q := n / d
  let r := n % d
  if r = 0 then q
  else
    let up :=
      if mode = 0 then decide (2 * r > d) || (decide (2 * r = d) && q % 2 == 1)
      else if mode = 1 then false
      else if mode = 2 then neg
      else if mode = 3 then !neg
      else if mode = 4 then decide (2 * r ≥ d)
      else decide (r * 2 ^ 24 / d + l ≥ 2 ^ 24)
    if up then q + 1 else q

/-- The magnitude part of an encoding of n / d in a float format, its exponent unbounded above (R164). -/
def roundMag (f : FloatFmt) (mode : Nat) (neg : Bool) (l n d : Nat) : Nat :=
  if n = 0 then 0
  else
    let emin : Int := 1 - (f.bias : Int)
    let e := max (ilog2 n d) emin
    let sh : Int := (f.m : Int) - e
    let q := if 0 ≤ sh then roundNat mode neg l (n * 2 ^ sh.toNat) d else roundNat mode neg l n (d * 2 ^ (-sh).toNat)
    (e - emin).toNat * 2 ^ f.m + q

/-- round_to for a float destination, codes 0 to 7 (R164, R156). -/
def roundFloat (c mode : Nat) (sat : Bool) (l : Nat) (v : XVal) : Nat :=
  let f := floatFmt c
  let sb := fun (neg : Bool) (mag : Nat) => (boolNat neg) * 2 ^ (f.e + f.m) + mag
  let tooBig := fun (neg : Bool) => if sat || f.nan.isNone then sb neg f.maxEnc
    else if f.hasInf then sb neg (f.maxEnc + 1) else f.nan.getD 0
  match v with
  | .nan => f.nan.getD 0
  | .inf neg => tooBig neg
  | .fin neg n d =>
    let mag := roundMag f mode neg l n d
    if mag > f.maxEnc then
      if mode = 1 ∨ (mode = 2 ∧ neg = false) ∨ (mode = 3 ∧ neg = true) then sb neg f.maxEnc else tooBig neg
    else if c = 1 ∧ mag < 2 ^ f.m then sb neg 0
    else sb neg mag

/-- The range of an integer format of codes 8 to 12 and 15 (R158). -/
def intRange (c : Nat) : Int × Int :=
  if c = 8 then (-32768, 32767) else if c = 9 then (-128, 127) else if c = 10 then (0, 255)
  else if c = 11 then (-8, 7) else if c = 12 then (0, 15) else (-2, 1)

/-- Round to an integer (R165); infinities and NaN are decided by the caller. -/
def roundToInt (mode l : Nat) (neg : Bool) (n d : Nat) : Int := snum neg (roundNat mode neg l n d)

/-- Round to an integer of w bits within lo to hi: clamp, or modulo 2^w (R165). -/
def roundIntRange (w : Nat) (lo hi : Int) (mode : Nat) (sat : Bool) (l : Nat) (v : XVal) : Nat :=
  match v with
  | .nan => 0
  | .inf neg => if sat then wrap w (if neg then lo else hi) else 0
  | .fin neg n d =>
    let z := roundToInt mode l neg n d
    if sat then wrap w (max lo (min hi z)) else wrap w z

/-- A conversion into e8m0 (R165). -/
def roundE8m0 (mode : Nat) (sat : Bool) (v : XVal) : Nat :=
  match v with
  | .nan => 0xFF
  | .inf _ => if sat then 254 else 0xFF
  | .fin _ n d =>
    if n = 0 then 0xFF
    else
      let lo := ilog2 n d
      let exact := if 0 ≤ lo then decide (n = d * 2 ^ lo.toNat) else decide (n * 2 ^ (-lo).toNat = d)
      let half := if 0 ≤ lo then decide (2 * n ≥ 3 * (d * 2 ^ lo.toNat)) else decide (2 * n * 2 ^ (-lo).toNat ≥ 3 * d)
      let e : Int :=
        if mode = 1 ∨ mode = 2 then lo
        else if mode = 3 then (if exact then lo else lo + 1)
        else if half then lo + 1 else lo
      if -127 ≤ e ∧ e ≤ 127 then (e + 127).toNat
      else if sat then (if e < 0 then 0 else 254) else 0xFF

/-- round_to(v, fmt, mode, sat) for codes 0 to 15 and 31 (R164, R165); l is L[23:0] after its advance. -/
def roundTo (c mode : Nat) (sat : Bool) (l : Nat) (v : XVal) : Nat :=
  if c ≤ 7 then roundFloat c mode sat l v
  else if c = 13 then
    match v with
    | .nan => 0
    | .inf neg => if neg then 3 else 1
    | .fin neg n d => wrap 2 (max (-1) (min 1 (roundToInt mode l neg n d)))
  else if c = 14 then (if v.sign then 0 else 1)
  else if c = 31 then roundE8m0 mode sat v
  else roundIntRange (fmtWidth c) (intRange c).1 (intRange c).2 mode sat l v

/-- round_to into ue5m3 under .ru, always saturating (R155, R221). -/
def roundUe5m3Up (v : XVal) : Nat :=
  match v with
  | .nan => 0xFF
  | .inf neg => if neg then 0 else 0xFE
  | .fin neg n d => if neg ∨ n = 0 then 0 else min 0xFE (roundMag ⟨5, 3, 15, 0xFE, false, none⟩ 3 false 0 n d)

/-- advance() of R166. -/
def advance (l : BitVec 32) : BitVec 32 :=
  if l.getLsbD 0 then (l >>> 1) ^^^ 0x80200003#32 else l >>> 1

/-- One result rounded, and L after it: mode 5 advances L once (R166). -/
def roundStep (c mode : Nat) (sat : Bool) (l : BitVec 32) (v : XVal) : Nat × BitVec 32 :=
  let l' := if mode = 5 then advance l else l
  (roundTo c mode sat (l'.toNat % 2 ^ 24) v, l')

/-- Results in increasing order, threading L (R166). -/
def roundAll (c mode : Nat) (sat : Bool) : BitVec 32 → List XVal → List Nat × BitVec 32
  | l, [] => ([], l)
  | l, v :: vs =>
    let r := roundStep c mode sat l v
    let rs := roundAll c mode sat r.2 vs
    (r.1 :: rs.1, rs.2)

/-- The place of an encoding in totalorder (R167): equal places compare equal. -/
def orderKey (c x : Nat) : Int :=
  let f := floatFmt c
  let mag := x % 2 ^ (f.e + f.m)
  let top := f.maxEnc + (if f.hasInf then 1 else 0)
  if f.nan.isSome && decide (mag > top) then (2 ^ (f.e + f.m + 1) : Int)
  else if x.testBit (f.e + f.m) then -(mag : Int) - 1 else mag

/-- The canonical NaN of a float format. -/
def nanOf (c : Nat) : Nat := (floatFmt c).nan.getD 0

/-- Is a float encoding NaN? -/
def isNanEnc (c x : Nat) : Bool := (decodeFloat c x).isNan

/-- The class bit of R216, of the encoding as written. -/
def classOf (c x : Nat) : Nat :=
  let f := floatFmt c
  let mag := x % 2 ^ (f.e + f.m)
  let neg := x.testBit (f.e + f.m)
  if mag > f.maxEnc then (if mag = f.maxEnc + 1 then (if neg then 0 else 7) else 8)
  else if mag = 0 then (if neg then 3 else 4)
  else if mag < 2 ^ f.m then (if neg then 2 else 5)
  else if neg then 1 else 6

/-- An encoding with a bf16 subnormal as zero of its sign (R156). -/
def flush (c x : Nat) : Nat :=
  if c = 1 ∧ x % 2 ^ 15 < 2 ^ 7 then x / 2 ^ 15 % 2 * 2 ^ 15 else x

/-- fmin and fmax of R213: a NaN gives the other operand, two NaNs the canonical NaN, and -0 is below +0. -/
def fminmax (c : Nat) (wantMax : Bool) (a b : Nat) : Nat :=
  if isNanEnc c a then (if isNanEnc c b then nanOf c else flush c b)
  else if isNanEnc c b then flush c a
  else
    let a' := flush c a
    let b' := flush c b
    if decide (orderKey c a' ≤ orderKey c b') != wantMax then a' else b'

/-- The integer square root: the largest s with s * s ≤ n, by bisection on fuel bits. -/
def isqrtAux : Nat → Nat → Nat → Nat
  | 0, _, s => s
  | k + 1, n, s => if (s + 2 ^ k) * (s + 2 ^ k) ≤ n then isqrtAux k n (s + 2 ^ k) else isqrtAux k n s
def isqrt (n : Nat) : Nat := isqrtAux (Nat.log2 n / 2 + 1) n 0

/-- Bits kept by the irrational functions below: far more than any rounding looks at (log 18). -/
def prec : Nat := 320

/-- The square root of n / d, exact where it is rational with this denominator, else a value strictly between the two
neighbours of a grid finer than any rounding point. -/
def sqrtFrac (n d : Nat) : Nat × Nat :=
  let k := prec + Nat.log2 d + 1
  let x := n * 2 ^ (2 * k) / d
  let s := isqrt x
  if s * s * d = n * 2 ^ (2 * k) then (s, 2 ^ k) else (2 * s + 1, 2 ^ (k + 1))

/-- The square root (R212). -/
def XVal.sqrt : XVal → XVal
  | .nan => .nan
  | .inf neg => if neg then .nan else .inf false
  | .fin neg n d => if n = 0 then .fin neg 0 1 else if neg then .nan else .fin false (sqrtFrac n d).1 (sqrtFrac n d).2

/-- 1 / a (R212). -/
def XVal.recip (v : XVal) : XVal := XVal.div (.fin false 1 1) v

/-- 1 / √a (R212). -/
def XVal.rsqrt : XVal → XVal
  | .nan => .nan
  | .inf neg => if neg then .nan else .fin false 0 1
  | .fin neg n d => if n = 0 then .inf neg else if neg then .nan else .fin false (sqrtFrac d n).1 (sqrtFrac d n).2

/-- Σ x^i / i! of a fixed-point x below 2^prec, by k terms from term t at index i. -/
def expSeries : Nat → Nat → Nat → Nat → Nat
  | 0, _, _, _ => 0
  | k + 1, x, i, t => t + expSeries k x (i + 1) (t * x / 2 ^ prec / (i + 1))

/-- Σ 1 / (i 2^i): ln 2, in fixed point. -/
def ln2Series : Nat → Nat → Nat
  | 0, _ => 0
  | k + 1, i => 2 ^ prec / (i * 2 ^ i) + ln2Series k (i + 1)
def ln2 : Nat := ln2Series 330 1

/-- Σ z^(2i+1) / (2i+1), in fixed point: t is z^(2i+1), z2 is z². -/
def atanhSeries : Nat → Nat → Nat → Nat → Nat
  | 0, _, _, _ => 0
  | k + 1, z2, i, t => t / (2 * i + 1) + atanhSeries k z2 (i + 1) (t * z2 / 2 ^ prec)

/-- 2^(n/d) for the fraction part n/d below 1, in fixed point. -/
def exp2Frac (n d : Nat) : Nat := expSeries 110 (n * ln2 / d) 0 (2 ^ prec)

/-- 2^a (R212). -/
def XVal.exp2 : XVal → XVal
  | .nan => .nan
  | .inf neg => if neg then .fin false 0 1 else .inf false
  | .fin neg n d =>
    let fl : Int := if neg then -(((n + d - 1) / d : Nat) : Int) else ((n / d : Nat) : Int)
    let fr : Nat := (snum neg n - fl * d).toNat
    if fl > 1100 then pow2 false 1 1100
    else if fl < -1100 then pow2 false 1 (-1100)
    else if fr = 0 then pow2 false 1 fl
    else pow2 false (exp2Frac fr d) (fl - prec)

/-- log2 a (R212). -/
def XVal.log2 : XVal → XVal
  | .nan => .nan
  | .inf neg => if neg then .nan else .inf false
  | .fin neg n d =>
    if n = 0 then .inf true
    else if neg then .nan
    else
      let k := ilog2 n d
      let (n', d') := if 0 ≤ k then (n, d * 2 ^ k.toNat) else (n * 2 ^ (-k).toNat, d)
      if n' = d' then ofInt k
      else
        let z := (n' - d') * 2 ^ prec / (n' + d')
        let lnm := 2 * atanhSeries 110 (z * z / 2 ^ prec) 0 z
        let s : Int := k * 2 ^ prec + (lnm * 2 ^ prec / ln2 : Nat)
        .fin (decide (s < 0)) s.natAbs (2 ^ prec)

/-- tanh a (R212). -/
def XVal.tanh : XVal → XVal
  | .nan => .nan
  | .inf neg => .fin neg 1 1
  | .fin neg n d =>
    if n = 0 then .fin neg 0 1
    else if n * 2 ^ 40 < d then .fin neg (n * (3 * d * d - n * n)) (3 * d * d * d)
    else if n > 200 * d then .fin neg (2 ^ 300 - 1) (2 ^ 300)
    else
      -- 2^y with y = 2x / ln 2, in fixed point
      let y := 2 * n * 2 ^ (2 * prec) / (d * ln2)
      let fl := y / 2 ^ prec
      let e2 := exp2Frac (y % 2 ^ prec) (2 ^ prec) * 2 ^ fl
      .fin neg (e2 - 2 ^ prec) (e2 + 2 ^ prec)

/-- a × 2^k (R214); k beyond ±1100 cannot change what a format holds. -/
def XVal.scale (v : XVal) (k : Int) : XVal :=
  let k := max (-1100) (min 1100 k)
  match v with
  | .fin neg n d => if 0 ≤ k then .fin neg (n * 2 ^ k.toNat) d else .fin neg n (d * 2 ^ (-k).toNat)
  | v => v

/-- Element i of a packed run of w-bit elements (R159). -/
def elem (w x i : Nat) : Nat := (x >>> (w * i)) % 2 ^ w

/-- The first n elements of width w. -/
def elems (w n x : Nat) : List Nat := (List.range n).map (elem w x)

/-- Elements packed low first (R159). -/
def pack (w : Nat) : List Nat → Nat
  | [] => 0
  | e :: es => e % 2 ^ w + 2 ^ w * pack w es

/-- x with element i replaced. -/
def setElem (w x i e : Nat) : Nat := x - elem w x i * 2 ^ (w * i) + (e % 2 ^ w) * 2 ^ (w * i)

/-- The f32 value of the low half of a word. -/
def f32 (x : Nat) : XVal := decodeFloat 0 (x % 2 ^ 32)

/-- The exact group sum of R168, signed zero by R157 under .rne. -/
def groupSum (terms : List XVal) : XVal := xsum false terms

/-- Split a list into groups of g, the last one short (R168). -/
def groups : Nat → Nat → List α → List (List α)
  | 0, _, _ => []
  | _ + 1, _, [] => []
  | k + 1, g, l => l.take g :: groups k g (l.drop g)

/-- group_acc of R168 over products, in groups of g, into f32 under .rne. -/
def groupAcc (g : Nat) (acc : Nat) (terms : List XVal) : Nat :=
  (groups terms.length g terms).foldl (fun acc t => roundFloat 0 0 false 0 (XVal.add false (f32 acc) (groupSum t))) acc

/-- The S32 chain of R169: the accumulator and whether a clamp changed a sum. -/
def s32Acc (g : Nat) (acc : Int) (terms : List Int) : Int × Bool :=
  (groups terms.length g terms).foldl (fun st t =>
    let z := st.1 + t.foldl (· + ·) 0
    let c := max (-2147483648) (min 2147483647 z)
    (c, st.2 || c != z)) (acc, false)

/-- The group size of R168 for the wider of two codes. -/
def groupSize (c1 c2 : Nat) : Nat :=
  if c1 = 0 ∨ c2 = 0 then 4
  else if c1 = 1 ∨ c1 = 2 ∨ c1 = 8 ∨ c2 = 1 ∨ c2 = 2 ∨ c2 = 8 then 16
  else 32

/-- plane_value of R162 without its scale: t at depth k from the high k bits of an 8-bit element. -/
def planeInt (k : Nat) (x : Nat) : Int :=
  let t : Int := signed 8 (x / 2 ^ (8 - k) * 2 ^ (8 - k))
  if k < 8 then t + 2 ^ (7 - k) else t

end Sys2Proof.Num
end

