-- ==== Sys2Proof/Config.lean ====
section
/-! DEFINITION. What the manual leaves to the implementation or gives no value: constants without a body, so that no proof
can rest on what they are (assumption log entries named at each). -/

namespace Sys2Proof.Config

/-- A fresh value for each index: what the manual gives an effect but no value (log 17). -/
opaque freeWord : Nat → Word

/-- Free values of one instant for each of many places, by the counter and the place (log 17): nothing constrains them. -/
opaque freeAt : Nat → Nat → Word

/-- Path 0x0 address of the control page (R375; reported at bring-up, no value stated; log 9). -/
opaque controlPage : Word
/-- Path 0x0 address of the schedule page (R394; log 9). -/
opaque schedulePage : Word
/-- Path 0x0 address of the fabric page (R411; log 9). -/
opaque fabricPage : Word

/-- Device physical page (64 KiB) of the register page at offset 0 of a function's BAR 0, as a leaf on path 0x0 names it (R361;
no address stated; log 9). -/
opaque barPage : Nat → Nat

/-- The home slice, quadrant × 16 + router, of a device physical address (R270, R371; no mapping stated; log 9). -/
opaque homeSlice : Nat → Nat

/-- The fused minimum security version (R432; log 9). -/
opaque fusedMinimum : Nat

/-- SHA3-256, named and not defined by the manual (R432; log 9). -/
opaque sha3 : List Byte → BitVec 256

/-- Whether an ML-DSA-44 signature over a digest verifies under the Laniwald key (R432; log 9). -/
opaque signatureVerifies : BitVec 256 → List Byte → Bool

/-- The resident privileged handler's code within a booted firmware image (R398, R432; no place in the image stated; log 11). -/
opaque handlerCode : List Byte → List Byte

/-- The ML-DSA-44 signature the module writes over a report's bytes (R436; log 9). -/
opaque signReport : List Byte → List Byte

/-- The module's identity public key and certificate (R435; log 9). -/
opaque identityKey : List Byte
opaque identityCertificate : List Byte

end Sys2Proof.Config
end

