-- ==== Sys2Proof/Machine/State.lean ====
section
/-! DEFINITION. The state of one Caerith C2 module as plain data: everything the manual gives it, and the model's own scheduling
data (INVENTORY.md, State). -/

namespace Sys2Proof.Machine

/-- A sparse table: the entries that were written, in rising key order; an absent key reads as its default. -/
abbrev Tab (α : Type) := List (Nat × α)

/-- Memory: (address, byte) cells in rising order, none equal to 0, which an unlisted address reads as (log 2). Addresses are in
the model's numbering (Machine/Ops.lean): one number for each byte of HBM, second tier, host memory, pools and stores. -/
abbrev Mem := List Host.Cell

/-- The handler kinds of R33, in their encoding's order. -/
inductive Kind where
  | plain | walker | light | trap | surrender | wrapup
  deriving DecidableEq, Repr

/-- Slot states (R40, R399). -/
inductive SlotSt where
  | free | running | stalled | frozen
  deriving DecidableEq, Repr

/-- What a stalled slot waits on (R40, R196, R239). -/
inductive Stall where
  /-- a port with no word to read -/
  | portEmpty (k : Nat)
  /-- a port with no room for a push -/
  | portFull (k : Nat)
  /-- fewer words than n at a port (R195) -/
  | words (k n : Nat)
  /-- a full/empty bit at a word, in the model's numbering, to be full or empty (R88) -/
  | feBit (a : Nat) (full : Bool)
  /-- word 0 of a barrier to reach a phase (R194) -/
  | barrier (a : Nat) (phase : Bool)
  /-- a gang to form or to complete (R255) -/
  | gang
  /-- an entry of the range scoreboard to free, by its job, of those that stood when the slot stalled (R94) -/
  | scoreboard (jobs : List Nat)
  /-- the same, for the ranges of a command (R260) -/
  | entries (jobs : List Nat)
  /-- jobs of its cluster that write the source of a posted `PUT` (R111) -/
  | footprint (jobs : List Nat)
  /-- the posted-store journal (R263) or a completion slot (R271) -/
  | journal
  | completion
  /-- an outbound queue: 0 request, 1 reply, 2 walker, 3 system -/
  | outQueue (net : Nat)
  /-- an output channel's credit (R250) -/
  | credit (ch : Nat)
  /-- device time (R192) -/
  | sleep (t : Nat)
  /-- the firing's own operations (R147) -/
  | commit
  /-- the answer to a request for a sett (R121) -/
  | request
  /-- an eviction of a sett, or jobs that write its granules from the n-th on (R298) -/
  | release (gen n : Nat)
  /-- acknowledgements of invalidations (R309) -/
  | nisync
  /-- a page of SPILLNI's buffer, of n bytes, or with n = 0 another slot's SPILLNI (R310) -/
  | spill (a : Word) (n : Nat)
  /-- the next interrupt (R310) -/
  | idle
  /-- an array operation that has not written one of n rows from a row (R287); without rows, an MSWAP not yet applied (R280) -/
  | array (rows : Option (Nat × Nat))
  deriving DecidableEq, Repr

/-- The writes that happen before something, by number, each with how far the chain from it has come: 0, or 1 past a release of device or
system scope, or 2 past an acquire of such a scope after it (R107, R112). -/
abbrev Seen := Tab Nat

/-- A release that a word holds (R106): its scope, the core that made it (none: the host), and what it releases; or, `plain`, what a read that
was no acquire leaves to a later `FENCE` (R105). -/
structure Release where
  scope : Nat
  by' : Option Nat
  seen : Seen
  plain : Bool
  deriving DecidableEq, Repr

/-- What orders a firing's next accesses (R105): the writes that happen before them, the releases that its loads have read for a later `FENCE`
to acquire, and those of its releasing `FENCE`s that its stores make. -/
structure Order where
  seen : Seen
  loaded : List Release
  fenced : List Release
  deriving DecidableEq, Repr

def Order.initial : Order := ⟨[], [], []⟩

/-- What the arrivals of a barrier's phase carry until it flips (R110), with the releases that their jobs read. -/
structure Arrivals where
  seen : Seen
  reads : List Release
  deriving DecidableEq, Repr

/-- One word of a queue, with its tag bit (R90) and what its sender released with it (R106). -/
structure QWord where
  word : Word
  tag : Bool
  launch : Nat
  seen : Seen
  deriving DecidableEq, Repr

/-- A register frame and its slot state (R85, R399). -/
structure Slot where
  st : SlotSt
  stall : Option Stall
  g : Vector Word 32
  v : Vector Line 32
  p : Vector Bool 8
  w : Vector Word 8
  m : Vector Members 4
  pc : Word
  launch : Nat
  handler : Nat
  kind : Kind
  /-- instructions issued, as R127 and R143 count them -/
  count : Nat
  /-- walker depth (R237) -/
  depth : Nat
  /-- the light flag and the recorded return address (R191) -/
  light : Bool
  lightRet : Word
  /-- a trap handler runs in the slot -/
  inTrap : Bool
  trapCause : Word
  trapPc : Word
  trapVal : Word
  trapAddr : Word
  qblock : Nat
  meets : Nat
  surrSett : Word
  /-- wake time of a SLEEP (R192) -/
  wake : Option Nat
  /-- the task word of a firing that SPAWN started, while unread (R90) -/
  task : Option Word
  /-- what orders its next accesses (model) -/
  order : Order
  /-- unused reserved slots of output channels 4 and 5 (R38) -/
  out4 : Nat
  out5 : Nat
  /-- words of a partial command pushed at k6 (R271) -/
  cmd : List Word
  /-- the job card's regions (start, length) and the commands it still covers (R269) -/
  card : List (Word × Nat)
  cover : Nat
  /-- a verdict was given (R131) -/
  verdict : Bool
  /-- this is a start firing of a field launch (R56) -/
  grain : Bool
  /-- the journal entry that a trap firing of cause 0x10 reports (R311) -/
  journal : Option Nat
  /-- what a stalled WAITB or WAITC waits on was seen to hold, with the word or count seen then (R146, R194, R195): it completes when it
  issues again -/
  met : Option Word
  /-- its `SPILLNI` has begun and waits for a page: another of its cluster waits for it (R310) -/
  spilling : Bool
  /-- a number of this firing, unlike every other's (model) -/
  fid : Nat
  deriving DecidableEq, Repr

/-- A Free slot: no firing stands in it (log 13). -/
def Slot.empty : Slot where
  st := .free
  stall := none
  g := Vector.replicate 32 0
  v := Vector.replicate 32 0
  p := Vector.replicate 8 false
  w := Vector.replicate 8 0
  m := Vector.replicate 4 0
  pc := 0
  launch := 0
  handler := 0
  kind := .plain
  count := 0
  depth := 0
  light := false
  lightRet := 0
  inTrap := false
  trapCause := 0
  trapPc := 0
  trapVal := 0
  trapAddr := 0
  qblock := 0
  meets := 0
  surrSett := 0
  wake := none
  task := none
  order := Order.initial
  out4 := 0
  out5 := 0
  cmd := []
  card := []
  cover := 0
  verdict := false
  grain := false
  journal := none
  met := none
  spilling := false
  fid := 0

/-- A handler table entry, as its four words lay it out (R33). -/
structure Handler where
  w0 : Word
  w1 : Word
  w2 : Word
  w3 : Word
  deriving DecidableEq, Repr

/-- The undeclared entry: every bit zero except the mask, word 0 [21] (R33, R378). -/
def Handler.masked : Handler := ⟨0x200000, 0, 0, 0⟩

/-- A word queued on an input channel (R45, R46). -/
structure ChanWord where
  handler : Nat
  chan : Nat
  launch : Nat
  word : Word
  tag : Bool
  /-- the slot that has reserved it (R38) -/
  resv : Option Nat
  /-- sent under a mirror's credit: its slot returns to that mirror (R47) -/
  credited : Bool
  seen : Seen
  deriving DecidableEq, Repr

/-- A word in an outbound queue, or turned back at its place there (R251). -/
structure OutWord where
  /-- the engine-space address it goes to (R248) -/
  dest : Word
  word : Word
  tag : Bool
  launch : Nat
  /-- sent under a mirror's credit, so always accepted -/
  credited : Bool
  /-- turned back, waiting for a freed slot -/
  turned : Bool
  /-- its place among the words that its core sent, on either network (R45) -/
  seq : Nat
  /-- the instruction that sent it, and its opcode (R184, R377) -/
  pc : Word
  op : Nat
  seen : Seen
  deriving DecidableEq, Repr

/-- A walker message (R61). -/
structure Walker where
  depth : Nat
  handler : Nat
  key : Nat
  launch : Nat
  block : Nat
  members : Members
  carry6 : Word
  carry7 : Word
  seen : Seen
  deriving DecidableEq, Repr

/-- A warren entry (R65 to R68): the message as merged, the merges, the rest of the hold in fabric clocks, and its owner. -/
structure WarrenEntry where
  msg : Walker
  owner : Nat
  meets : Nat
  /-- the fabric clock at which its hold is reached -/
  holdEnd : Nat
  pending : Bool
  /-- walker messages merged into it, for the discard count (R68) -/
  count : Nat
  serial : Nat
  since : Nat
  passed : Nat
  promos : Nat
  /-- the last fabric clock in which messages merged into it, those messages, and the contents, meets and count before them (R69) -/
  freshAt : Nat
  fresh : List Walker
  old : Walker × Nat × Nat
  deriving DecidableEq, Repr

/-- A walker message that found no entry (R70): its place in the cluster's order of arrival, and the granule it stands in, or
its number in its launch's spill queue; and in a granule its line of 64 bytes. -/
structure Spilled where
  msg : Walker
  seq : Nat
  granule : Nat
  line : Nat
  deriving DecidableEq, Repr

/-- An entry of a task queue (R257). -/
structure Task where
  handler : Nat
  word : Word
  launch : Nat
  seen : Seen
  deriving DecidableEq, Repr

/-- Where a pending firing comes from (R36), with the registers that its source sets (R37). -/
inductive Source where
  | field (lo hi : Word)
  | channel
  | message (addr : Word) (payload : List Word)
  | spawn (word : Word)
  | trap (cause : Nat) (pc val addr : Word)
  | recall (handle : Word)
  | expiry
  deriving DecidableEq, Repr

/-- A pending firing (R36, R43). -/
structure Pending where
  source : Source
  handler : Nat
  launch : Nat
  since : Nat
  serial : Nat
  passed : Nat
  promos : Nat
  deriving DecidableEq, Repr

/-- A posted-store journal entry (R263, R311). -/
structure JournalEntry where
  inUse : Bool
  refused : Bool
  pc : Word
  launch : Nat
  len : Nat
  addr : Word
  data : Line
  deriving DecidableEq, Repr

def JournalEntry.free : JournalEntry := ⟨false, false, 0, 0, 0, 0, 0⟩

/-- An asynchronous trap not yet delivered (R186). -/
structure AsyncTrap where
  cause : Nat
  pc : Word
  val : Word
  addr : Word
  launch : Nat
  deriving DecidableEq, Repr

/-- A core's gang request (R255). -/
structure GangReq where
  launch : Nat
  token : Word
  slot : Nat
  formed : Bool
  /-- the port that its token stands at, and the word: it is popped when the gang forms (R239) -/
  port : Option (Nat × QWord)
  deriving DecidableEq, Repr

/-- An accumulator row (R288). -/
structure AccRow where
  lanes : Line
  /-- kind S32 -/
  s32 : Bool
  ovf : Bool
  deriving DecidableEq, Repr

def AccRow.zero : AccRow := ⟨0, false, false⟩

/-- A range scoreboard entry: the lowest and highest byte offset, and the job that writes there (R94). -/
structure Range where
  lo : Nat
  hi : Nat
  job : Nat
  deriving DecidableEq, Repr

/-- A recall in a holder core's queue (R125): the sett's handle, whether its routine runs, a number of its own (model), and who asked. -/
structure Recall where
  handle : Word
  running : Bool
  id : Nat
  /-- the slot whose `SACQ` asks for it (R239) -/
  who : Option (Nat × Nat × Nat)
  deriving DecidableEq, Repr

/-- A core. -/
structure Core where
  /-- slots 0 to 7, and the privileged handler's frame under 8 (R398) -/
  slots : Tab Slot
  lastSlot : Nat
  /-- the placed image's key in State.images, if one was placed -/
  image : Option Nat
  partw : BitVec 16
  handlers : Tab Handler
  acc : Tab AccRow
  scoreboard : List Range
  channels : List ChanWord
  /-- used slots of each destination channel of this core's output channels, keyed 128 × core + 4 × handler + input (R47) -/
  mirrors : Tab Nat
  /-- words to be read at k4 and at k5 (R90) -/
  ring4 : List QWord
  ring5 : List QWord
  /-- words pushed at k4 and k5, on their way to a neighbour -/
  ringOut4 : List QWord
  ringOut5 : List QWord
  /-- completion words at k6, with their launches (R271) -/
  completions : List QWord
  /-- completion slots taken and not yet freed -/
  complUsed : Nat
  tasks : List Task
  pending : List Pending
  recalls : List Recall
  /-- recalls waiting for room in this core's queue (R126) -/
  recallWait : List Recall
  outReq : List OutWord
  outRep : List OutWord
  outWalk : List Walker
  /-- free slots on their way back to this sender, by mirror key (R47) -/
  returns : List Nat
  journal : Tab JournalEntry
  asyncTraps : List AsyncTrap
  gang : Option GangReq
  seed : BitVec 32
  /-- PERF counters 0 to 4 (R313) -/
  perf : Tab Word
  perfsel : Tab Word
  /-- the clock at the core's last reset, for counter 5 -/
  clockBase : Nat
  intcause : Word
  ctxbase : Word
  spillbase : Word
  permbase : Word
  featallow : Word
  tenant : Word
  reflimit : Word
  finlimit : Word
  holdlimit : Word
  /-- frozen by an interrupt: it starts no firing (R398) -/
  halted : Bool
  /-- halted by a debugger that has not resumed it, and cause 4 on its way to it (R398, R405) -/
  debugHalt : Bool
  restoring : Bool
  /-- launches that held state here (R142) and launches expired here (R141) -/
  held : List Nat
  expired : List Nat
  /-- the wake time that a SLEEP last recorded in each slot (R192, R403) -/
  wakes : Tab Nat
  /-- remaining-work estimates and slack buckets by launch, as this core has them (R42, R43, R302) -/
  estimates : Tab Nat
  buckets : Tab Nat
  /-- by launch, what happens before its wrap-up firing here: the accesses of its firings that stopped (R117) -/
  past : Tab Seen
  /-- NIINVs this core sent that some NI has not acknowledged (R309) -/
  niinvs : List (Nat × Nat × Nat × Word)
  deriving DecidableEq, Repr

/-- A core as bring-up leaves it (R179, R378; log 12). -/
def Core.initial : Core where
  slots := []
  lastSlot := 7
  image := none
  partw := 0
  handlers := []
  acc := []
  scoreboard := []
  channels := []
  mirrors := []
  ring4 := []
  ring5 := []
  ringOut4 := []
  ringOut5 := []
  completions := []
  complUsed := 0
  tasks := []
  pending := []
  recalls := []
  recallWait := []
  outReq := []
  outRep := []
  outWalk := []
  returns := []
  journal := []
  asyncTraps := []
  gang := none
  seed := 1
  perf := []
  perfsel := []
  clockBase := 0
  intcause := 0
  ctxbase := 0
  spillbase := 0
  permbase := 0
  featallow := 0xF
  tenant := 0
  reflimit := 2
  finlimit := 100
  holdlimit := 10
  halted := false
  debugHalt := false
  restoring := false
  held := []
  expired := []
  wakes := []
  estimates := []
  buckets := []
  past := []
  niinvs := []

/-- Who owns a store granule (R86). -/
inductive Granule where
  | free
  | image
  | sett (gen : Nat)
  | overflow
  deriving DecidableEq, Repr

inductive SettClass where
  | held | lent | negotiated
  deriving DecidableEq, Repr

/-- Sett states (R132); Gone is absence. -/
inductive SettSt where
  | current | surrendering | finishing | stripping | displaced | saved
  deriving DecidableEq, Repr

/-- A sett (R119 to R132). -/
structure Sett where
  /-- the handle's generation, index and kind (R120) -/
  gen : Nat
  index : Nat
  gang : Bool
  launch : Nat
  cls : SettClass
  st : SettSt
  first : Nat
  size : Nat
  /-- the granules it held when displaced (R130) -/
  was : Nat
  holder : Nat
  routine : Option Nat
  refusals : Nat
  windowEnd : Option Nat
  finishEnd : Option Nat
  /-- the reason a strip gives (R129) -/
  reason : Nat
  deriving DecidableEq, Repr

/-- A request of `SACQ`, a quota change, a reclaim or a resumption, while it waits (R121): who made it (core, slot, firing) or the
device, its launch, level and granules, the setts excluded, and the setts whose outcome it waits for, each with the recall that it
placed there, or 0 where it placed none. -/
structure SettReq where
  who : Option (Nat × Nat × Nat)
  launch : Nat
  level : Nat
  n : Nat
  gang : Bool
  excluded : List Nat
  waits : List (Nat × Nat)
  /-- the levels of the launches when the request was made; of the device's own, the size that the sett it waits for had (R381) -/
  levels : Tab Nat
  /-- the try form -/
  try' : Bool
  /-- the cluster's releases when it found no run: it looks again after another release (R121); of a reclaim, the granules it wants -/
  seen : Option Nat
  /-- granules that the device's own request has freed (R381) -/
  freed : Nat
  deriving DecidableEq, Repr

/-- A full/empty access that waits on a word (R88). -/
structure Waiter where
  addr : Nat
  wantFull : Bool
  core : Nat
  slot : Nat
  deriving DecidableEq, Repr

/-- A weight tile in a plane (R277). -/
structure Tile where
  fmt : Nat
  sparse : Bool
  /-- tile image, scales and metadata as bytes, low first -/
  weights : Nat
  scales : Nat
  metadata : Nat
  deriving DecidableEq, Repr

/-- A member's part of an array operation (R282, R283). -/
structure ArrayPart where
  core : Nat
  row : Nat
  acc : Bool
  n : Nat
  accList : Word
  barrier : Nat
  /-- the words of the descriptor that must agree (R283) -/
  desc : List Word
  opcode : Nat
  gathered : Bool
  launch : Nat
  fid : Nat
  /-- its declared bytes -/
  bytes : Nat
  /-- jobs of lower numbers were issued before it (R111) -/
  before : Nat
  /-- what happens before its issue (R105) -/
  know : Seen
  done : Bool
  deriving DecidableEq, Repr

/-- An array operation that has formed (R281, R283), with the stationary tiles it reads. -/
structure ArrayOp where
  swap : Bool
  parts : List ArrayPart
  m : Nat
  k : Nat
  afmt : Nat
  base : Word
  stride : Nat
  ascales : Word
  sstride : Nat
  rowList : Word
  /-- the A rows and their scales as the array has read them: a row that could not be read, the row of zeros (some none), or bytes (R284) -/
  rows : Option (List (Option (Option (Nat × Nat))))
  deriving DecidableEq, Repr

/-- A rotation member's command (R268). -/
structure RotPart where
  core : Nat
  dst : Nat
  src : Nat
  len : Nat
  job : Nat
  deriving DecidableEq, Repr

/-- An `MMEET`: its fabric clock, slot and firing, its destination, and what it asked for; a message that arrives in the same clock is absorbed
too (R238). -/
structure Absorb where
  at' : Nat
  core : Nat
  slot : Nat
  fid : Nat
  dst : BitVec 2
  launch : Nat
  handler : Nat
  block : Nat
  key : Nat
  deriving DecidableEq, Repr

/-- A cluster. -/
structure Cluster where
  granules : Tab Granule
  setts : List Sett
  requests : List SettReq
  acquisitions : Nat
  /-- releases of granules or of the array so far (model) -/
  releases : Nat
  warren : List WarrenEntry
  absorb : Option Absorb
  overflow : List Spilled
  /-- the launches' walker spill queues of this cluster, in order of arrival (R70, R407) -/
  spill : List Spilled
  /-- the number of the next message of each launch's queue (R407) -/
  spillNext : Tab Nat
  waiters : List Waiter
  /-- planes: key 2 × core + (0 stationary, 1 shadow) (R277) -/
  planes : Tab Tile
  /-- gang-issued commands of a gang whose members have not all issued -/
  gangIssued : List ArrayPart
  rotIssued : List RotPart
  gangMembers : List Nat
  arrayOps : List ArrayOp
  rotations : List (List RotPart)
  tenant : Option Nat
  /-- the context entry resident here -/
  context : Option Nat
  /-- the tenant's token bucket here (R425) -/
  bucket : Int
  deriving DecidableEq, Repr

def Cluster.initial : Cluster where
  granules := []
  setts := []
  requests := []
  acquisitions := 1
  releases := 0
  warren := []
  absorb := none
  overflow := []
  spill := []
  spillNext := []
  waiters := []
  planes := []
  gangIssued := []
  rotIssued := []
  gangMembers := []
  arrayOps := []
  rotations := []
  tenant := none
  context := none
  bucket := 0

/-- A placed image (R346 to R350): what the cores keep of it. -/
structure Image where
  tenant : Nat
  addr : Word
  /-- the code, from offset 0, and its length -/
  code : Mem
  codeLen : Nat
  handlers : Tab Handler
  setts : Tab Word
  trap : Option Nat
  /-- lengths and bytes of the .pool and .cstore sections, and the partition word, that its cores were set up with (R348) -/
  pool : Nat × Nat
  cstore : Nat × Nat
  partw : Nat
  deriving DecidableEq, Repr

/-- The course of a launch (R149). -/
inductive Phase where
  | running | wrapping | ending
  deriving DecidableEq, Repr

/-- A live launch. -/
structure Launch where
  number : Nat
  /-- the launch message (R48) -/
  msg : List Word
  tenant : Nat
  /-- the mailbox it came through: function and index -/
  fn : Nat
  mailbox : Nat
  image : Nat
  context : Option Nat
  phase : Phase
  estimate : Nat
  /-- ESTSETs on their way to the hub: issuing core, value (R302) -/
  estMsgs : List (Nat × Nat)
  /-- the fabric clock of the latest that stood, and its core: of two in one clock the higher core's stands (R302) -/
  estLast : Nat × Nat
  map : BitVec 128
  chanWords : Nat
  walkWords : Nat
  refusals : Nat
  strips : Nat
  recalls : Nat
  demotions : Nat
  wrapCount : Nat
  /-- wrap-up's start, and the wall budget already used before it (R143) -/
  wrapStart : Option Nat
  wallUsed : Nat
  /-- recorded as expired while descheduled (R140) -/
  expired : Bool
  /-- the device time at which the conditions of R54 came to hold, while they do (R150) -/
  met : Option Nat
  area : Nat
  /-- the range registers (next, limit) by die, in grains (R55) -/
  ranges : Tab (Nat × Nat)
  seedNext : Nat
  seedEnd : Option Nat
  boundCap : Nat
  refLimit : Nat
  /-- what its record will say (R150) -/
  status : Nat
  cls : Nat
  value : Word
  place : Nat
  /-- what its message released to its firings, and what happens before its record (R106, R115) -/
  seen : Seen
  told : Seen
  deriving DecidableEq, Repr

/-- A launch that waits in its queue (R49). -/
structure Queued where
  msg : List Word
  fn : Nat
  mailbox : Nat
  /-- it waits behind an earlier launch of its queue -/
  behind : Bool
  /-- its deadline passed while it waited behind (R49) -/
  late : Bool
  /-- it would have been the seventeenth launch of a core: it waits until every launch there has ended (R34) -/
  seventeenth : Bool
  seen : Seen
  deriving DecidableEq, Repr

/-- One piece of an engine job: n bytes from a source to a destination, in addresses as issued. -/
structure Piece where
  dst : Word
  src : Word
  n : Nat
  deriving DecidableEq, Repr

/-- An engine job (R98, R260). -/
structure Job where
  id : Nat
  opcode : Nat
  modf : Nat
  run : List Word
  /-- the barrier in the model's numbering, and as issued -/
  barrier : Nat
  barAddr : Word
  core : Nat
  slot : Nat
  fid : Nat
  launch : Nat
  tenant : Nat
  pc : Word
  declared : Nat
  arrived : Nat
  /-- next piece or element -/
  next : Nat
  /-- its number of pieces or elements -/
  total : Nat
  refused : Bool
  engineFault : Bool
  journal : Option Nat
  /-- the job card that covers it (R269) -/
  card : Option (List (Word × Nat))
  /-- the absent page it waits on: stage and address (R384) -/
  waiting : Option (Nat × Word)
  /-- search engines, or clusters of a QST, that have landed -/
  landed : List Nat
  /-- a posted buffer that no message has begun to fill (R274) -/
  unfilled : Bool
  /-- the message that fills it: its job and its number there (R274) -/
  filler : Option (Nat × Nat)
  /-- not to start pieces: quiescence passed its limit (R400) -/
  paused : Bool
  /-- it has begun: what is checked once was checked -/
  started : Bool
  /-- what it waits for may be there now: a request that covers the page has completed, or the page has changed hands (R369, R384) -/
  retry : Bool
  /-- when the request is sent again after a router failure (R419) -/
  resendAt : Option Nat
  /-- engine kind and index named by EMSG, and its engine address and header (R270, R401) -/
  engine : Option (Nat × Nat)
  via : List Word
  /-- the peer's entry of a transport command as read at issue, if the peer is known (R422, R426), and what is left of the receiver's
  credit, if it gives any (R421) -/
  peer : Option (List Word)
  credit : Option Nat
  /-- the header of the view that it reads, as it was accepted (R163) -/
  header : Option (List Nat)
  /-- what happens before its issue, and what it has acquired since; the releases that its plain reads have read, and those that a `FENCE`
  before its issue makes its writes make (R105, R106) -/
  know : Seen
  got : Seen
  reads : List Release
  fenced : List Release
  /-- bytes to be written, by offset, where the job captured them at its start: posted stores, evictions, fault images, records -/
  data : Mem
  deriving DecidableEq, Repr

structure Mailbox where
  base : Word
  enable : Bool
  queue : Nat
  log2 : Nat
  tail : Word
  cancelResult : Nat
  /-- what its messages' writers have released (R106) -/
  seen : Seen
  deriving DecidableEq, Repr

def Mailbox.initial : Mailbox := ⟨0, false, 0, 0, 0, 0, []⟩

structure EventRing where
  base : Word
  enable : Bool
  vector : Nat
  log2 : Nat
  deriving DecidableEq, Repr

def EventRing.initial : EventRing := ⟨0, false, 0, 0⟩

/-- A host-window page (R369, R370). -/
structure Page where
  device : Bool
  holdEnd : Nat
  /-- requests waiting for the hold to end: true gives the page to the device -/
  requests : List Bool
  /-- the host is taking the page, and these jobs still use its translations (R369) -/
  taking : Option (List Nat)
  /-- what the giver of its last move released to its owner, and what happens before the device's accesses since (R113) -/
  seen : Seen
  used : Seen
  /-- the device's own engines wait for it, which kind 0x0040 has told (R370) -/
  asked : Bool
  deriving DecidableEq, Repr

def Page.initial : Page := ⟨false, 0, [], none, [], [], false⟩

/-- An event record that waits until the host's page of its ring is the device's (R370). -/
structure HeldPost where
  fn : Nat
  ring : Nat
  words : List Word
  deriving DecidableEq, Repr

/-- A tenant context as loaded (R376): its eight words, and the eight words of the transport configuration that took effect with it
(R422). -/
structure TenantCtx where
  words : List Word
  transport : List Word
  /-- words 3 and 6 of a load that still frees granules: messages and the ring meet them when the load is complete (R380, R393) -/
  held : Option (Word × Word)
  deriving DecidableEq, Repr

/-- A leaf entry that an NI holds (R384, R389): its key, 2 × tenant + stage - 1, the 64 KiB page it was read for, the entry and its level,
and for a first-stage leaf the table entries that the second stage translated for it, each with the level of that translation (R390). -/
structure Cached where
  key : Nat
  page : Nat
  entry : Nat
  lvl : Nat
  tables : List (Nat × Nat)
  deriving DecidableEq, Repr

/-- A fault record on its way to the second-stage ring (R388). -/
structure StageRecord where
  tenant : Nat
  words : List Word
  deriving DecidableEq, Repr

/-- A second-stage fault record that found no entry and stays in its NI (R386, R388): its address word, place in the scheduler, cluster, kind,
tenant and launch sequence. -/
structure HeldRecord where
  addr : Nat
  job : Nat
  cluster : Nat
  kind : Nat
  tenant : Nat
  seq : Nat
  deriving DecidableEq, Repr

/-- A saved context (R402 to R404): what its buffer holds of cores, clusters, launches and replay entries. -/
structure SavedCtx where
  entry : Nat
  tenant : Nat
  cores : Tab Core
  clusters : Tab Cluster
  jobs : List Job
  deriving DecidableEq, Repr

/-- A tenant's reset in progress (R391): asked for by a request or by a function level reset, begun or not, and when its quiescence is
cut off. -/
structure Reset where
  tenant : Nat
  byRing : Bool
  begun : Bool
  limitEnd : Nat
  deriving DecidableEq, Repr

/-- A partition's scheduling (R397). -/
structure Sched where
  resident : Option Nat
  sliceEnd : Nat
  /-- a switch in progress: the entry to resume, and the instant its latency limit passes -/
  switching : Option Nat
  limitEnd : Nat
  /-- the switch was chosen in turn (R395, R397) -/
  inTurn : Bool
  /-- this save waits on past its limit, to be told by kind 0x0051 at its end (R401, R409) -/
  told : Bool
  /-- resumed, and nothing issued yet: the slice has not begun (R397) -/
  awaiting : Bool
  /-- since when the resident context has nothing to do, or, with none resident, one could be chosen (R397, R408) -/
  idleAt : Option Nat
  deriving DecidableEq, Repr

def Sched.initial : Sched := ⟨none, 0, none, 0, true, false, false, none⟩

inductive Discipline where
  | freeRunning | locked | holdover
  deriving DecidableEq, Repr

/-- The servo (R136, R137): discipline, estimated error, source port, and whether this holdover's limit was told. -/
structure Servo where
  state : Discipline
  err : Int
  port : Nat
  limitPosted : Bool
  /-- ns still to be slewed (R135) -/
  slew : Int
  /-- when the servo locked, when it last took a message of its source, and when and with what error lock was lost (R136, R137) -/
  lockedAt : Nat
  heard : Nat
  lostAt : Nat
  lostErr : Int
  /-- timestamps of PTP event messages: port, whether it was sent, device time (R136) -/
  stamps : List (Nat × Bool × Nat)
  /-- by port, the announced master's data set as one number, the better the lower (R136) -/
  masters : Tab Nat
  deriving DecidableEq, Repr

/-- The bring-up block (R427). -/
structure Bringup where
  phase : Nat
  failure : Nat
  slot : Nat
  counter : Word
  pages : Bool
  operand : Word
  length : Nat
  command : Nat
  result : Nat
  reason : Nat
  /-- stacks that failed their third training: reduced service until the next reset (R428) -/
  failed : List Nat
  deriving DecidableEq, Repr

/-- Module flash (R432): slot images as bytes, and marker copies as eight words. -/
structure Flash where
  slot0 : List Byte
  slot1 : List Byte
  marker0 : List Word
  marker1 : List Word
  deriving DecidableEq, Repr

/-- Power, temperature and health readings (R437 to R443). -/
structure Health where
  limit : Nat
  throttling : Bool
  fraction : BitVec 16
  stopped : Bool
  powered : Bool
  corrected : Nat
  replays : Nat
  /-- 64 KiB pages and when an error there was corrected, and pages reported lasting -/
  errors : List (Nat × Nat)
  lasting : List Nat
  /-- words, by address ÷ 8, with an error that cannot be corrected (R442) -/
  bad : List Nat
  /-- the newest readings, and when the next telemetry record is due (R440) -/
  reading : Telemetry
  nextTelemetry : Nat
  /-- withheld clocks of this interval, as fraction × ns, up to an instant (R440) -/
  withheld : Nat
  since : Nat
  /-- when this interval began: at the last posting -/
  began : Nat
  /-- the board controller has been asked to remove power (R439) -/
  powerOff : Bool
  deriving DecidableEq, Repr

/-- What a transport packet that leaves the module is for (R274, R423). -/
inductive SentKind where
  /-- a piece for a remote address, and the remote barrier -/
  | write (barrier : Word)
  /-- a piece of a tagged message -/
  | tagged
  /-- a read request of `XGET` -/
  | read
  /-- a tagged message that found no buffer here is refused at its sender -/
  | refusal
  /-- bytes read here for a peer -/
  | data
  /-- the acknowledgement of a piece that landed here -/
  | ack
  deriving DecidableEq, Repr

/-- A transport packet as it leaves the module (R274, R421, R422): the job, the peer's index and entry, the port and entropy value that the
spray gives it, an address or tag, the whole length, and the offset, number and value of the bytes. -/
structure Sent where
  job : Nat
  peer : Nat
  kind : SentKind
  addr : Word
  len : Nat
  off : Nat
  n : Nat
  data : Nat
  /-- the peer's entry: security, job, endpoint and association (R422); an answer goes to the sender and names none -/
  entry : List Word
  port : Option Nat
  entropy : Word
  deriving DecidableEq, Repr

/-- A global word before a write: the write's number, the word's address, what it held, and the job that wrote and its launch, or none for the
host (R112). -/
structure OldWord where
  n : Nat
  at' : Nat
  word : Word
  by' : Option Nat
  launch : Nat
  deriving DecidableEq, Repr

/-- Which agent moves next, when the environment chooses (log 1): a core issues, the n-th internal event of the agenda runs, an
event happens, or an input arrives. -/
inductive Turn where
  | issue (c : Nat)
  | due (n : Nat)
  | event (i : Instr)
  | input (x : Input)
  deriving DecidableEq, Repr

/-- The module. -/
structure State where
  mem : Mem
  /-- full words of pools and stores, by address ÷ 8, rising (R87) -/
  full : List Nat
  /-- core clocks since reset -/
  clock : Nat
  timeBase : Int
  timeSet : Bool
  -- the model's own scheduling data (log 1, log 4)
  turns : List Turn
  agenda : List Instr
  timers : List (Nat × Instr)
  input : Input
  cur : Nat
  curSlot : Nat
  serial : Nat
  nextJob : Nat
  nextFiring : Nat
  freeTick : Nat
  -- execution
  cores : Tab Core
  clusters : Tab Cluster
  images : Tab Image
  launches : Tab Launch
  /-- launch numbers whose record is written and which words may still carry (R50) -/
  retired : List Nat
  /-- launches waiting, by queue -/
  queues : Tab (List Queued)
  jobs : List Job
  /-- global writes so far (model), what their words held before, by address of a word the releases that it holds, and by address of a
  barrier what the arrivals of its phase carry (R106, R110, R112) -/
  writes : Nat
  older : List OldWord
  syncs : Tab (List Release)
  barriers : Tab Arrivals
  /-- what the host has acquired, and by quadrant its own writes there (R106, R114) -/
  hostSeen : Seen
  hostWrote : Tab Seen
  /-- accesses of the device for a launch that met an error which cannot be corrected: launch, core, word (R185, R442) -/
  metBad : List (Nat × Nat × Nat)
  /-- spill areas of faulted launches: context entry, area, until (R407) -/
  heldAreas : List (Nat × Nat × Nat)
  posted : List Nat
  sent : List Sent
  /-- packets to be sent again once a port is up (R426) -/
  unsent : List Sent
  /-- packets placed, by job and number: each lands once (R426) -/
  gotPackets : List (Nat × Nat)
  /-- congestion state by tenant × 2^16 + peer: round trip, window, marked fraction (R424) -/
  congestion : Tab (Nat × Nat × Nat)
  /-- µs boundaries at which the token buckets were refilled (R425) -/
  refilled : Nat
  -- host interface
  mailboxes : Tab Mailbox
  eventRings : Tab EventRing
  /-- next sequences, keyed by ring × 2^16 + source -/
  eventSeq : Tab Nat
  msix : List (Nat × Nat)
  migHold : Nat
  pages : Tab Page
  /-- base and size of each function's compatibility region -/
  compat : Tab (Nat × Nat)
  regs : Tab Word
  /-- replies of BAR 2 reads and atomics -/
  hostReplies : List Word
  -- tenants
  tenants : Tab TenantCtx
  resetCounts : Tab Nat
  stage2Queue : List StageRecord
  niHeld : List HeldRecord
  /-- event records whose ring the host's pages hold, in order (R370) -/
  heldPosts : List HeldPost
  faultSeq : Tab Nat
  /-- cached translations -/
  tlb : List Cached
  /-- requests below this index are discarded once the one being served is complete (R391, R393), by ring -/
  ringUpTo : Tab Nat
  sched : Tab Sched
  saved : Tab SavedCtx
  refusedEntries : List Nat
  /-- resets of tenants, in order (R391, R393) -/
  resets : List Reset
  -- fabric
  fabricControl : Word
  routers : Tab Word
  ports : Tab Word
  clusterState : Tab Nat
  /-- fused spares placed so far, by quadrant (R2, R419) -/
  sparesUsed : Tab Nat
  uePorts : Tab Bool
  /-- failures of a lane group: router, port, lane, when -/
  laneFaults : List (Nat × Nat × Nat × Nat)
  /-- links that renegotiate: router × 16 + port, and the clock by which it ends (R416) -/
  renegotiating : Tab Nat
  -- device time, bring-up, health
  servo : Servo
  bringup : Bringup
  flash : Flash
  update : Option (List Byte)
  attest : Bool
  health : Health
  coreClock : Nat
  fabricClock : Nat
  /-- the resident privileged handler's code (log 11) -/
  privCode : Mem
  privLen : Nat
  deriving DecidableEq, Repr

/-- Why the machine stops with a fault. -/
inductive Fault where
  /-- Raised by step when a Running slot stands on a core where no image is placed: no placement leaves such a state, so it is
  raised in unreachable states only. Safe: the model stops. -/
  | noImage (core : Nat)
  deriving DecidableEq, Repr

/-- Why an instruction has no meaning. -/
inductive Refusal where
  /-- Raised by exec for an instruction that is not modelled yet, by its mnemonic. Safe: the model stops. -/
  | notModelled (mnemonic : String)
  deriving DecidableEq, Repr

/-- The module right after reset (R427, R433): phase 0, nothing placed, registers as the manual gives them (INVENTORY.md). -/
def State.reset : State where
  mem := []
  full := []
  clock := 0
  timeBase := 0
  timeSet := false
  turns := []
  agenda := []
  timers := []
  input := .none
  cur := 0
  curSlot := 0
  serial := 1
  nextJob := 0
  nextFiring := 1
  freeTick := 0
  cores := []
  clusters := []
  images := []
  launches := []
  retired := []
  queues := []
  jobs := []
  writes := 0
  older := []
  syncs := []
  barriers := []
  hostSeen := []
  hostWrote := []
  metBad := []
  heldAreas := []
  posted := []
  sent := []
  unsent := []
  gotPackets := []
  congestion := []
  refilled := 0
  mailboxes := []
  eventRings := []
  eventSeq := []
  msix := []
  migHold := 5
  pages := []
  compat := []
  regs := []
  hostReplies := []
  tenants := []
  resetCounts := []
  stage2Queue := []
  niHeld := []
  heldPosts := []
  faultSeq := []
  tlb := []
  ringUpTo := []
  sched := []
  saved := []
  refusedEntries := []
  resets := []
  fabricControl := 1
  routers := []
  ports := []
  clusterState := []
  sparesUsed := []
  uePorts := []
  laneFaults := []
  renegotiating := []
  servo := ⟨.freeRunning, 0, 0, false, 0, 0, 0, 0, 0, [], []⟩
  bringup := ⟨0, 0, 0, 0, false, 0, 0, 0, 0, 0, []⟩
  flash := ⟨[], [], [], []⟩
  update := none
  attest := false
  health := ⟨5600, false, 0, false, true, 0, 0, [], [], [], ⟨0, 0, 0, 0⟩, 0, 0, 0, 0, false⟩
  coreClock := 0
  fabricClock := 0
  privCode := []
  privLen := 0

end Sys2Proof.Machine
end

