-- ==== Sys2Proof/Machine/Mem.lean ====
section
/-! DEFINITION. Sparse tables, memory in its canonical form, and sets of full words: the reads and writes everything else is
built from. -/

namespace Sys2Proof.Machine

/-- The entry at a key, if one was written. -/
def Tab.find : Tab α → Nat → Option α
  | [], _ => none
  | (k, v) :: r, j => if k = j then some v else Tab.find r j

/-- The entry at a key, or the default. -/
def Tab.get (d : α) (t : Tab α) (j : Nat) : α := (Tab.find t j).getD d

/-- Write an entry, keeping the keys in rising order. -/
def Tab.set : Tab α → Nat → α → Tab α
  | [], j, x => [(j, x)]
  | (k, v) :: r, j, x => if k = j then (j, x) :: r else if j < k then (j, x) :: (k, v) :: r else (k, v) :: Tab.set r j x

/-- Remove an entry. -/
def Tab.erase (t : Tab α) (j : Nat) : Tab α := t.filter (fun e => e.1 != j)

/-- The keys in order. -/
def Tab.keys (t : Tab α) : List Nat := t.map (·.1)

/-- The canonical form of memory: addresses strictly rising, no byte equal to 0 (log 2). -/
abbrev Mem.wf (m : Mem) : Prop := m.Pairwise (fun a b => a.1 < b.1) ∧ ∀ c ∈ m, c.2 ≠ 0

/-- The byte at an address; 0 where nothing is listed (log 2). -/
def Mem.read : Mem → Nat → Byte
  | [], _ => 0
  | (k, b) :: r, a => if k = a then b else Mem.read r a

/-- Put a byte at its place among the addresses. -/
def Mem.insert : Mem → Nat → Byte → Mem
  | [], a, x => [(a, x)]
  | (k, b) :: r, a, x => if a < k then (a, x) :: (k, b) :: r else (k, b) :: Mem.insert r a x

/-- Write a byte: the old entry goes, and a new one is listed unless it is 0. -/
def Mem.write (m : Mem) (a : Nat) (x : Byte) : Mem :=
  let m' := m.filter (fun c => c.1 != a)
  if x = 0 then m' else Mem.insert m' a x

/-- n bytes from an address as a number, little-endian (R4). -/
def Mem.readN (m : Mem) (a : Nat) : Nat → Nat
  | 0 => 0
  | n + 1 => (Mem.read m a).toNat + 256 * Mem.readN m (a + 1) n

/-- Write the low n bytes of a number from an address, little-endian (R4). -/
def Mem.writeN (m : Mem) (a : Nat) (n x : Nat) : Mem :=
  match n with
  | 0 => m
  | n + 1 => Mem.writeN (Mem.write m a (BitVec.ofNat 8 x)) (a + 1) n (x / 256)

/-- One aligned word. -/
def Mem.word (m : Mem) (a : Nat) : Word := BitVec.ofNat 64 (Mem.readN m a 8)

/-- Clear n bytes from an address. -/
def Mem.zero (m : Mem) (a n : Nat) : Mem := m.filter (fun c => decide (c.1 < a) || decide (a + n ≤ c.1))

/-- Add a number to a rising list without repeats. -/
def Full.add : List Nat → Nat → List Nat
  | [], a => [a]
  | k :: r, a => if k = a then k :: r else if a < k then a :: k :: r else k :: Full.add r a

/-- Set or clear one bit of the set of full words (R87). -/
def Full.put (l : List Nat) (a : Nat) (b : Bool) : List Nat := if b then Full.add l a else l.filter (· != a)

end Sys2Proof.Machine
end

