-- ==== Sys2Proof/Machine/Local.lean ====
section
/-! DEFINITION. Accessors of cores, slots, launches and clusters; device time; the model's agenda; addresses; and the pool and
store as their own core reaches them (spec 02, 04). -/

namespace Sys2Proof.Machine

/-- Why an instruction does not complete: an exact fault (cause, TRAPVAL, TRAPADDR), a stall, a light call (R92, R189), whose state
holds the pops already made, or the fault of a command pushed at k6, which loses the command's words (R271). -/
inductive Halt where
  | trap (cause : Nat) (val addr : Word)
  | trapAtPush (cause : Nat) (val addr : Word)
  | stall (why : Stall)
  | light (s : State)
  /-- an error that cannot be corrected, in the word at a, accessed through an address (R185, R442) -/
  | uncorrectable (a : Nat) (addr : Word)

/-- A part of an instruction that may not complete. -/
abbrev Res (α : Type) := Except Halt α

/-- What a completed instruction leaves: the next instruction follows, a transfer of control, or a state in which the slot's
course is already decided. -/
inductive After where
  | seq (s : State)
  | goto (s : State) (pc : Word)
  | gone (s : State)

def Halt.illegal (op : Nat) : Halt := .trap 0x01 (word op) 0
/-- A fault of cause 0x02 with its field (R184). -/
def Halt.field (n : Nat) : Halt := .trap 0x02 (word n) 0

/-! ### Device time (R135, R6, R430) -/

/-- Core clocks in one ns: 2 in reduced service, 4 in full (R428, R430). -/
def State.perNs (s : State) : Nat := if s.coreClock = 2000 then 2 else 4
def State.now (s : State) : Nat := (s.timeBase + (s.clock / s.perNs : Nat)).toNat
/-- The clock at which NOW reaches t. -/
def State.clockAt (s : State) (t : Nat) : Nat := ((t : Int) - s.timeBase).toNat * s.perNs
/-- Fabric clocks (R6). -/
def State.fabric (s : State) : Nat := s.clock / 2

/-! ### The model's own scheduling (log 1) -/

/-- Put an internal event on the agenda, unless it stands there. -/
def State.post (s : State) (i : Instr) : State := if s.agenda.contains i then s else { s with agenda := s.agenda ++ [i] }
def State.postAll (s : State) (l : List Instr) : State := l.foldl State.post s
/-- An event to come at a core clock. -/
def State.timer (s : State) (c : Nat) (i : Instr) : State := { s with timers := s.timers ++ [(c, i)] }
/-- An event to come when NOW reaches t. -/
def State.timerNs (s : State) (t : Nat) (i : Instr) : State := s.timer (s.clockAt t) i
/-- A fresh free value (log 17). -/
def State.free (s : State) : Word := Config.freeWord s.freeTick
def State.drew (s : State) : State := { s with freeTick := s.freeTick + 1 }

/-! ### Cores, slots, launches, clusters -/

def State.core (s : State) (c : Nat) : Core := Tab.get Core.initial s.cores c
def State.setCore (s : State) (c : Nat) (k : Core) : State := { s with cores := Tab.set s.cores c k }
def State.modCore (s : State) (c : Nat) (f : Core → Core) : State := s.setCore c (f (s.core c))
def Core.slot (k : Core) (n : Nat) : Slot := Tab.get Slot.empty k.slots n
def Core.setSlot (k : Core) (n : Nat) (x : Slot) : Core := { k with slots := Tab.set k.slots n x }
def State.slot (s : State) (c n : Nat) : Slot := (s.core c).slot n
def State.setSlot (s : State) (c n : Nat) (x : Slot) : State := s.setCore c ((s.core c).setSlot n x)
def State.modSlot (s : State) (c n : Nat) (f : Slot → Slot) : State := s.setSlot c n (f (s.slot c n))

/-- The slot that issues, and its core. -/
def State.me (s : State) : Slot := s.slot s.cur s.curSlot
def State.setMe (s : State) (x : Slot) : State := s.setSlot s.cur s.curSlot x
def State.modMe (s : State) (f : Slot → Slot) : State := s.setMe (f s.me)
def State.here (s : State) : Core := s.core s.cur
def State.setHere (s : State) (k : Core) : State := s.setCore s.cur k

def State.cluster (s : State) (cl : Nat) : Cluster := Tab.get Cluster.initial s.clusters cl
def State.setCluster (s : State) (cl : Nat) (k : Cluster) : State := { s with clusters := Tab.set s.clusters cl k }
def State.modCluster (s : State) (cl : Nat) (f : Cluster → Cluster) : State := s.setCluster cl (f (s.cluster cl))

def State.launch? (s : State) (l : Nat) : Option Launch := Tab.find s.launches l
def State.setLaunch (s : State) (l : Nat) (x : Launch) : State := { s with launches := Tab.set s.launches l x }
def State.modLaunch (s : State) (l : Nat) (f : Launch → Launch) : State :=
  match s.launch? l with
  | some x => s.setLaunch l (f x)
  | none => s

def State.image? (s : State) (c : Nat) : Option Image := (s.core c).image.bind (Tab.find s.images)

/-- A core's cluster and index (R30). -/
def clusterOf (c : Nat) : Nat := c / 8
def coresOf (cl : Nat) : List Nat := (List.range 8).map (8 * cl + ·)

/-- No launch: what the privileged handler's frame carries. -/
def noLaunch : Nat := 4096

/-! ### Launch message fields (R48) -/

def msgWord (m : List Word) (i : Nat) : Nat := (m.getD i 0).toNat
def Launch.w (l : Launch) (i : Nat) : Nat := msgWord l.msg i
def Launch.kind (l : Launch) : Nat := bitsOf (l.w 0) 7 0
def Launch.prio (l : Launch) : Nat := bitsOf (l.w 0) 15 8
def Launch.queue (l : Launch) : Nat := bitsOf (l.w 0) 31 16
def Launch.seq (l : Launch) : Nat := bitsOf (l.w 0) 63 32
def Launch.base (l : Launch) : Nat := bitsOf (l.w 2) 15 0
def Launch.size (l : Launch) : Nat := bitsOf (l.w 2) 31 16
def Launch.stages (l : Launch) : Nat := bitsOf (l.w 2) 35 32 + 1
def Launch.partw (l : Launch) : Nat := bitsOf (l.w 2) 63 48
def Launch.deadline (l : Launch) : Nat := l.w 3
def Launch.wallNs (l : Launch) : Nat := 1000 * bitsOf (l.w 4) 63 48
def Launch.wrapBudget (l : Launch) : Nat := 16 * bitsOf (l.w 4) 47 32
def Launch.wrapHandler (l : Launch) : Nat := bitsOf (l.w 4) 4 0
def Launch.crec (l : Launch) : Word := l.msg.getD 5 0
def Launch.ring (l : Launch) : Nat := bitsOf (l.w 7) 47 32
/-- The cores of the field in order, and whether a cluster lies in it (R31). -/
def Launch.cores (l : Launch) : List Nat := (List.range (8 * l.size)).map (8 * l.base + ·)
def Launch.clusters (l : Launch) : List Nat := (List.range l.size).map (l.base + ·)
def Launch.inField (l : Launch) (cl : Nat) : Bool := decide (l.base ≤ cl) && decide (cl < l.base + l.size)
def Launch.stageOf (l : Launch) (cl : Nat) : Nat := (cl - l.base) / (l.size / l.stages)

/-! ### Partition word (R82) -/

def partFrames (w : Nat) : Nat := bitsOf w 3 0
def partAcc (w : Nat) : Nat := bitsOf w 9 4
def partScratch (w : Nat) : Nat := 48 - 2 * partFrames w - partAcc w
def Core.frames (k : Core) : Nat := partFrames k.partw.toNat
/-- Accumulator rows in use: 32A. -/
def Core.rows (k : Core) : Nat := 32 * partAcc k.partw.toNat

/-! ### Handler entries (R33) -/

def kindOf : Nat → Kind
  | 0 => .plain
  | 1 => .walker
  | 2 => .light
  | 3 => .trap
  | 4 => .surrender
  | _ => .wrapup
def Kind.code : Kind → Nat
  | .plain => 0
  | .walker => 1
  | .light => 2
  | .trap => 3
  | .surrender => 4
  | .wrapup => 5

def Core.handler (k : Core) (h : Nat) : Handler := Tab.get Handler.masked k.handlers h
def Handler.kindBits (h : Handler) : Nat := bitsOf h.w0.toNat 18 16
def Handler.kind (h : Handler) : Kind := kindOf h.kindBits
def Handler.cls (h : Handler) : Nat := bitsOf h.w0.toNat 20 19
def Handler.mask (h : Handler) : Bool := bitOf h.w0.toNat 21
def Handler.inputs (h : Handler) : Nat := bitsOf h.w0.toNat 24 22
def Handler.outputs (h : Handler) : Nat := bitsOf h.w0.toNat 26 25
def Handler.hold (h : Handler) : Nat := bitsOf h.w0.toNat 34 27
def Handler.carryRule (h : Handler) (six : Bool) : Nat := if six then bitsOf h.w0.toNat 36 35 else bitsOf h.w0.toNat 38 37
def Handler.entry (h : Handler) : Nat := bitsOf h.w0.toNat 15 0
/-- Input channel descriptor j, 0 to 3. -/
def Handler.input (h : Handler) (j : Nat) : Nat :=
  match j with
  | 0 => bitsOf h.w1.toNat 31 0
  | 1 => bitsOf h.w1.toNat 63 32
  | 2 => bitsOf h.w2.toNat 31 0
  | 3 => bitsOf h.w2.toNat 63 32
  | _ => 0
/-- Output channel descriptor 4 or 5. -/
def Handler.output (h : Handler) (j : Nat) : Nat := if j = 4 then bitsOf h.w3.toNat 31 0 else if j = 5 then bitsOf h.w3.toNat 63 32 else 0
def inSlots (d : Nat) : Nat := bitsOf d 10 0
def inRate (d : Nat) : Nat := bitsOf d 21 11
def inLight (d : Nat) : Option Nat := if bitOf d 27 then some (bitsOf d 26 22) else none
def outPresent (d : Nat) : Bool := bitOf d 18
def outRate (d : Nat) : Nat := bitsOf d 10 0
def outHandler (d : Nat) : Nat := bitsOf d 15 11
def outInput (d : Nat) : Nat := bitsOf d 17 16
/-- Declared input channels of a handler: those below its inputs count with slots. -/
def Handler.declares (h : Handler) (j : Nat) : Bool := decide (j < h.inputs) && decide (0 < inSlots (h.input j))

/-- Bytes of the channel region (R83, R349). -/
def channelRegion (t : Tab Handler) : Nat :=
  8 * (t.foldl (fun n e => n + ((List.range e.2.inputs).foldl (fun m j => m + inSlots (e.2.input j)) 0)) 0)
/-- The scratchpad limit of R83 on a core. -/
def Core.poolLimit (k : Core) : Nat := partScratch k.partw.toNat * 2048 - channelRegion k.handlers
def State.poolLimit (s : State) (c : Nat) : Nat := (s.core c).poolLimit

/-! ### The model's numbering of memory (State.mem) -/

/-- A byte beyond the 1,536 GiB of HBM, or the 32,768 GiB of the second tier, is a byte of its own (DESIGN CHOICE, log 117). -/
def hbmAt (off : Nat) : Nat := off
def secondTierAt (off : Nat) : Nat := 2 * 2 ^ 60 + off
def hostAt (off : Nat) : Nat := 3 * 2 ^ 60 + off
/-- Scratchpad byte: the layout of path 0x6 (R81). -/
def poolAt (c off : Nat) : Nat := 6 * 2 ^ 60 + (c / 8) * 2 ^ 37 + (c % 8) * 2 ^ 34 + off
def storeAt (cl off : Nat) : Nat := 6 * 2 ^ 60 + cl * 2 ^ 37 + 2 ^ 33 + off
/-- Does an address in the numbering lie in a pool or a store, whose words carry full/empty bits (R87)? -/
def isLocal (a : Nat) : Bool := decide (6 * 2 ^ 60 ≤ a)
def clusterOfAddr (a : Nat) : Nat := bitsOf a 47 37
def storeSide (a : Nat) : Bool := bitOf a 33
def coreOfAddr (a : Nat) : Nat := 8 * bitsOf a 47 37 + bitsOf a 36 34
def offOfAddr (a : Nat) : Nat := bitsOf a 18 0

/-! ### Words and bits -/

/-- A number with bits [hi:lo] replaced. -/
def withBits (x hi lo y : Nat) : Nat := x - bitsOf x hi lo * 2 ^ lo + y % 2 ^ (hi + 1 - lo) * 2 ^ lo

def State.wordAt (s : State) (a : Nat) : Word := s.mem.word a
def State.bytes (s : State) (a n : Nat) : Nat := s.mem.readN a n
def State.isFull (s : State) (a : Nat) : Bool := s.full.contains (a / 8)
def State.setFull (s : State) (a : Nat) (b : Bool) : State := { s with full := Full.put s.full (a / 8) b }

/-- Waiters of a word's bit (R88), told on each change of it. -/
def State.bitChanged (s : State) (a : Nat) : State :=
  if (s.cluster (clusterOfAddr a)).waiters.any (fun w => w.addr == a) then s.post (.fullEmptyGrant (clusterOfAddr a) a) else s

/-- Write n bytes with no change of a bit: a core's own plain store (R87). -/
def State.poke (s : State) (a n x : Nat) : State := { s with mem := Mem.writeN s.mem a n x }
/-- Write a word. -/
def State.pokeWord (s : State) (a : Nat) (x : Word) : State := s.poke a 8 x.toNat
/-- Set one word's bit and tell its waiters. -/
def State.markWord (s : State) (a : Nat) (b : Bool) : State := (s.setFull a b).bitChanged a

/-- The whole words among n bytes from an address. -/
def wholeWords (a n : Nat) : List Nat :=
  let lo := (a + 7) / 8
  let hi := (a + n) / 8
  (List.range (hi - lo)).map (fun i => 8 * (lo + i))

/-- Write n bytes as an asynchronous write lands: each whole word of a pool or store becomes full (R87). -/
def State.land (s : State) (a n x : Nat) : State :=
  let s := s.poke a n x
  if isLocal a then (wholeWords a n).foldl (fun s w => s.markWord w true) s else s

/-! ### Slots -/

def Slot.readG (x : Slot) (n : BitVec 5) : Word := if n = 0 then 0 else x.g[n.toNat]'n.isLt
def Slot.writeG (x : Slot) (n : BitVec 5) (y : Word) : Slot := if n = 0 then x else { x with g := x.g.set n.toNat y n.isLt }
def Slot.readV (x : Slot) (n : BitVec 5) : Line := x.v[n.toNat]'n.isLt
def Slot.writeV (x : Slot) (n : BitVec 5) (y : Line) : Slot := { x with v := x.v.set n.toNat y n.isLt }
def Slot.readP (x : Slot) (n : BitVec 3) : Bool := if n = 0 then true else x.p[n.toNat]'n.isLt
def Slot.writeP (x : Slot) (n : BitVec 3) (y : Bool) : Slot := if n = 0 then x else { x with p := x.p.set n.toNat y n.isLt }
def Slot.readW (x : Slot) (n : BitVec 3) : Word := if n = 0 then BitVec.allOnes 64 else x.w[n.toNat]'n.isLt
def Slot.writeW (x : Slot) (n : BitVec 3) (y : Word) : Slot := if n = 0 then x else { x with w := x.w.set n.toNat y n.isLt }
def Slot.readM (x : Slot) (n : BitVec 2) : Members := x.m[n.toNat]'n.isLt
def Slot.writeM (x : Slot) (n : BitVec 2) (y : Members) : Slot := { x with m := x.m.set n.toNat y n.isLt }

/-- Stands a firing in the slot? -/
def Slot.live (x : Slot) : Bool := x.st != .free
/-- Is the firing one of a launch's ordinary or other firings (not the privileged handler's)? -/
def Slot.ofLaunch (x : Slot) (l : Nat) : Bool := x.st != .free && x.launch == l

/-- The launch of the slot that issues. -/
def State.myLaunch (s : State) : Option Launch := s.launch? s.me.launch
/-- Is the firing privileged: the resident privileged handler's, in its own frame (R179, R398)? -/
def State.privileged (s : State) : Bool := s.curSlot == 8
/-- FEATURES (R179, R182): bits 0 to 3 ANDed with FEATALLOW. -/
def State.features (s : State) : Nat := s.here.featallow.toNat % 16

/-! ### Levels (R42) -/

def State.slack (s : State) (l : Launch) (est : Nat) : Int := (l.deadline : Int) - s.now - 1000 * est
def bucketOf (slack : Int) : Nat := if 1000000 ≤ slack then 0 else if 100000 ≤ slack then 1 else if 10000 ≤ slack then 2 else 3
/-- A launch's bucket with an estimate. -/
def State.bucket (s : State) (l : Launch) (est : Nat) : Nat := if l.deadline = 0 then 0 else bucketOf (s.slack l est)
/-- The launch's level without promotions, at class c (R42, R121). -/
def State.launchLevel (s : State) (l : Launch) : Nat := 4 * l.prio + s.bucket l l.estimate

/-! ### Local addresses (R80 to R84) -/

def pathOf (a : Word) : Nat := bitsOf a.toNat 63 60

/-- The sett handle (R120). -/
def Sett.handle (x : Sett) (cl : Nat) : Word := word (x.gen * 2 ^ 24 + x.index * 2 ^ 16 + (boolNat x.gang) * 2 ^ 12 + cl)
def Sett.covers (x : Sett) (g : Nat) : Bool := !x.gang && decide (x.first ≤ g) && decide (g < x.first + x.size)
/-- Did a displaced sett hold the granule? -/
def Sett.covered (x : Sett) (g : Nat) : Bool := !x.gang && decide (x.first ≤ g) && decide (g < x.first + x.was)

/-- Displaced for accesses: from the first step of a strip (R129). -/
def Sett.isDisplaced (x : Sett) : Bool := x.st == .displaced || x.st == .stripping

/-- R84 and R130 for a granule of the own store: what the launch's access meets. -/
def checkGranule (k : Cluster) (cl l g : Nat) (addr : Word) : Except Halt Unit :=
  match Tab.get .free k.granules g with
  | .image => .ok ()
  | own =>
    let mine := k.setts.any (fun x => x.launch == l && !x.isDisplaced && x.covers g)
    if mine then .ok ()
    else match k.setts.find? (fun x => x.launch == l && x.isDisplaced && x.covered g) with
      | some x => .error (.trap 0x07 (x.handle cl) addr)
      | none =>
        match own with
        | .sett _ => .error (.trap 0x08 0 addr)
        | _ => .error (.trap 0x05 (word (8192 * g)) addr)

/-- The granules that n bytes from an offset touch. -/
def granulesOf (off n : Nat) : List Nat := (List.range ((off + n + 8191) / 8192 - off / 8192)).map (off / 8192 + ·)

/-- The first granule that fails gives the fault (DEDUCED, log 121). -/
def checkGranules (k : Cluster) (cl l : Nat) (addr : Word) : List Nat → Except Halt Unit
  | [] => .ok ()
  | g :: gs => do checkGranule k cl l g addr; checkGranules k cl l addr gs

/-- The checks of R183 check 8 for an access of n bytes through the own pool or store, in their order: path, alignment, bounds,
protection. The place in the model's numbering when they pass. -/
def State.checkLocal (s : State) (addr : Word) (n align : Nat) : Res Nat :=
  let a := addr.toNat
  if pathOf addr ≠ 4 ∧ pathOf addr ≠ 5 then .error (.trap 0x04 (word (pathOf addr)) addr)
  else if a % align ≠ 0 then .error (.trap 0x06 (word align) addr)
  else if pathOf addr = 4 then
    if bitsOf a 59 17 ≠ 0 then .error (.trap 0x05 0 addr)
    else
      let off := bitsOf a 16 0
      let lim := s.poolLimit s.cur
      if off + n > lim ∨ off ≥ lim then .error (.trap 0x05 (word lim) addr)
      else .ok (poolAt s.cur off)
  else
    if bitsOf a 59 19 ≠ 0 then .error (.trap 0x05 0 addr)
    else
      let off := bitsOf a 18 0
      let cl := clusterOf s.cur
      if off + n > 524288 then .error (.trap 0x05 (word 524288) addr)
      else match checkGranules (s.cluster cl) cl s.me.launch addr (granulesOf off n) with
        | .ok _ => .ok (storeAt cl off)
        | .error e => .error e

/-- The first word among n bytes from an address whose error cannot be corrected (R442). -/
def State.badWord (s : State) (a n : Nat) : Option Nat :=
  (s.health.bad.find? (fun w => decide (8 * w < a + n) && decide (a < 8 * w + 8))).map (8 * ·)
/-- Words rewritten whole hold no error. -/
def State.renew (s : State) (a n : Nat) : State :=
  { s with health := { s.health with bad := s.health.bad.filter (fun w => decide (8 * w < a) || decide (a + n < 8 * w + 8)) } }

/-- The access of n bytes at a, named by an address, meets no such error. -/
def State.sound (s : State) (a n : Nat) (addr : Word) : Res Unit :=
  match s.badWord a n with
  | some b => .error (.uncorrectable b addr)
  | none => .ok ()

/-- Does an own pool range meet the range scoreboard (R94)? -/
def State.scoreboarded (s : State) (a n : Nat) : Bool :=
  isLocal a && !storeSide a && coreOfAddr a == s.cur &&
    s.here.scoreboard.any (fun r => decide (r.lo < offOfAddr a + n) && decide (offOfAddr a ≤ r.hi))

/-- An access of n bytes at a, named by an address, is not held by the scoreboard and meets no error (R94, R185). -/
def State.unboarded (s : State) (a n : Nat) (addr : Word) : Res Unit :=
  if s.scoreboarded a n then .error (.stall (.scoreboard [])) else s.sound a n addr
/-- A checked local access that the scoreboard may stall (R94). -/
def State.reach (s : State) (addr : Word) (n align : Nat) : Res Nat := do
  let a ← s.checkLocal addr n align
  s.unboarded a n addr
  pure a

end Sys2Proof.Machine
end

