-- ==== Sys2Proof/Machine/Xlate.lean ====
section
/-! DEFINITION. Translation of one access (R382 to R384), the permission and protection checks of a path 0x6 access (R84, R377),
and where an address of an engine job leads. -/

namespace Sys2Proof.Machine

/-- What one stage's walk finds: a leaf entry at a level, an absent entry, a refusal, or a table that the second stage does not
give (with what it says). -/
inductive Walk where
  | leaf (entry lvl : Nat)
  | absent
  | refused
  | tableAbsent (ia : Nat)
  deriving DecidableEq, Repr

/-- Index bits of a level (R382). -/
def levelIndex (lvl va : Nat) : Nat := if lvl = 0 then bitsOf va 20 16 else bitsOf va (9 * lvl + 20) (9 * lvl + 12)
/-- Offset bits of a level's leaf. -/
def levelBits (lvl : Nat) : Nat := if lvl = 0 then 16 else 9 * lvl + 12

/-- Reserved bits of a translation entry (R383). -/
def entryReserved (e : Nat) : Bool := bitsOf e 63 52 != 0 || bitOf e 7 || bitOf e 4
def entryAddr (e : Nat) : Nat := bitsOf e 51 8 * 256

/-- One entry at a level: a leaf, or the next table (R383). -/
def stepEntry (lvl e : Nat) : Walk ⊕ Nat :=
  if !bitOf e 0 then .inl .absent
  else if entryReserved e then .inl .refused
  else if bitOf e 1 then
    if lvl = 3 ∨ entryAddr e % 2 ^ levelBits lvl ≠ 0 then .inl .refused else .inl (.leaf e lvl)
  else if lvl = 0 then .inl .refused
  else .inr (entryAddr e)

/-- A walk over the levels given, the physical place of each table entry coming from fetch. -/
def walkWith (m : Mem) (fetch : Nat → Nat → Walk ⊕ Nat) (va : Nat) : List Nat → Nat → Walk
  | [], _ => .refused
  | lvl :: rest, table =>
    match fetch lvl (table + 8 * levelIndex lvl va) with
    | .inl w => w
    | .inr p =>
      match stepEntry lvl (m.word (hbmAt p)).toNat with
      | .inl w => w
      | .inr t => walkWith m fetch va rest t

/-- The table entries that such a walk reads. -/
def walkReads (m : Mem) (fetch : Nat → Nat → Walk ⊕ Nat) (va : Nat) : List Nat → Nat → List Nat
  | [], _ => []
  | lvl :: rest, table =>
    let a := table + 8 * levelIndex lvl va
    a :: (match fetch lvl a with
      | .inl _ => []
      | .inr p => (match stepEntry lvl (m.word (hbmAt p)).toNat with
        | .inl _ => []
        | .inr t => walkReads m fetch va rest t))

/-- The second stage's walk (its tables stand at physical addresses). -/
def walk2 (m : Mem) (root va : Nat) : Walk := walkWith m (fun _ a => .inr a) va [3, 2, 1, 0] root

def leafOut (e lvl va : Nat) : Nat := entryAddr e + va % 2 ^ levelBits lvl
def leafWrite (e : Nat) : Bool := bitOf e 3
def leafRead (e : Nat) : Bool := bitOf e 2
def leafHost (e : Nat) : Bool := bitOf e 6

/-- A tenant's context words (R376); a tenant without a loaded context has zeros. -/
def State.ctx (s : State) (t : Nat) : List Word := ((Tab.find s.tenants t).map (·.words)).getD []
def ctxStage1 (c : List Word) : Option Nat := if bitOf (msgWord c 1) 0 then some (bitsOf (msgWord c 1) 63 12 * 4096) else none
def ctxStage2 (c : List Word) : Option Nat := if bitOf (msgWord c 2) 0 then some (bitsOf (msgWord c 2) 63 12 * 4096) else none
def ctxFirst (c : List Word) : Nat := bitsOf (msgWord c 0) 10 0
def ctxCount (c : List Word) : Nat := bitsOf (msgWord c 0) 27 16
def ctxEnable (c : List Word) : Bool := bitOf (msgWord c 0) 63
def ctxTenantScope (c : List Word) : Bool := bitOf (msgWord c 0) 62
def ctxFeatures (c : List Word) : Nat := bitsOf (msgWord c 0) 51 48
def ctxPerm (c : List Word) : Nat := bitsOf (msgWord c 3) 63 8 * 256
def ctxGangDenied (c : List Word) : Bool := bitOf (msgWord c 7) 8
def ctxQuota (c : List Word) : Nat := if bitsOf (msgWord c 7) 6 0 = 0 then 64 else bitsOf (msgWord c 7) 6 0
/-- Does a cluster lie in the tenant's partition? -/
def ctxHolds (c : List Word) (cl : Nat) : Bool := decide (ctxFirst c ≤ cl) && decide (cl < ctxFirst c + ctxCount c)

/-- What an access to a virtual address meets. -/
inductive Xlat where
  | ok (pa : Nat)
  /-- the stage that found it, and the record's address word (R386) -/
  | absent (stage : Nat) (rec : Nat) (kind : Nat)
  | refused
  deriving DecidableEq, Repr

/-- The second stage's leaf for an intermediate address: a cached one may stand in for the tables (R384, R389, R390). -/
def second (m : Mem) (cached : Option (Nat × Nat)) (root ia : Nat) : Walk :=
  match cached with
  | some (e, lvl) => .leaf e lvl
  | none => walk2 m root ia

/-- A cached leaf entry of a stage that covers an address. -/
def cachedLeaf (tlb : List Cached) (t stage va : Nat) : Option (Nat × Nat) :=
  (tlb.find? (fun x => x.key == 2 * t + stage - 1 && x.page == va / 65536)).map (fun x => (x.entry, x.lvl))

/-- Where a first-stage table entry stands: the second stage translates its intermediate address (R382), for each level by a cached
translation or by the tables (R390). -/
def tableFetch (m : Mem) (tlb : List Cached) (old : Nat → Bool) (c : List Word) (t lvl ia : Nat) : Walk ⊕ Nat :=
  match ctxStage2 c with
  | none => .inr ia
  | some r2 =>
    match second m (if old (2 + lvl) then cachedLeaf tlb t 2 ia else none) r2 ia with
    | .leaf e lvl => if leafRead e && !leafHost e then .inr (leafOut e lvl ia) else .inl .refused
    | .absent => .inl (.tableAbsent ia)
    | w => .inl w

/-- The first stage's walk of a tenant (R382). -/
def walk1 (m : Mem) (tlb : List Cached) (old : Nat → Bool) (c : List Word) (t va root : Nat) : Walk :=
  match (if old 0 then cachedLeaf tlb t 1 va else none) with
  | some (e, lvl) => .leaf e lvl
  | none => walkWith m (tableFetch m tlb old c t) va [3, 2, 1, 0] root

/-- No cached translation is used. -/
def allNew (_ : Nat) : Bool := false

/-- Translate bits of a path's address for an access kind: 0 read, 1 write, 2 atomic (R382 to R384). `old` says for which translations a
cached one is used where one is held: the first stage's leaf, the second stage's, and the second stage's of each level's table. -/
def xlate (m : Mem) (tlb : List Cached) (old : Nat → Bool) (c : List Word) (t path va kind : Nat) : Xlat :=
  let allows := fun e => (kind == 1 || leafRead e) && (kind == 0 || leafWrite e) && leafHost e == (path == 3)
  if va ≥ 2 ^ 48 then .refused
  else
    let r1 : Walk ⊕ Nat :=
      match ctxStage1 c with
      | none => .inr va
      | some root =>
        match walk1 m tlb old c t va root with
        | .leaf e lvl => if allows e then .inr (leafOut e lvl va) else .inl .refused
        | w => .inl w
    match r1 with
    | .inl .absent => .absent 1 (path * 2 ^ 60 + va) kind
    | .inl (.tableAbsent ia) => .absent 2 ia 3
    | .inl _ => .refused
    | .inr ia =>
      match ctxStage2 c with
      | none => .ok ia
      | some r2 =>
        match second m (if old 1 then cachedLeaf tlb t 2 ia else none) r2 ia with
        | .leaf e lvl => if allows e then .ok (leafOut e lvl ia) else .refused
        | .absent => .absent 2 (path * 2 ^ 60 + ia) kind
        | _ => .refused

/-- The path's address bits that translation takes: [59:0], and for path 0x9 its path 0x0 offset (R81, R382). -/
def vaOf (a : Word) : Nat := if pathOf a = 9 then bitsOf a.toNat 56 0 else bitsOf a.toNat 59 0
/-- Paths that name global bytes as path 0x0 does (R112). -/
def xlatPath (p : Nat) : Nat := if p = 2 ∨ p = 3 then p else 0

/-- Reduced service: phases 3 and 4 (R428, R430). -/
def State.reduced (s : State) : Bool := s.bringup.phase == 3 || s.bringup.phase == 4
/-- Does a second-tier byte lie in the carve-out, the top 24 of its channel's 512 GiB (R3, R272, R430)? -/
def carved (pa : Nat) : Bool := decide (488 * 2 ^ 30 ≤ pa % 2 ^ 39)

/-- Does an offset lie in a function's compatibility region (R371)? Path 0x7 names bytes there alone (R112; DEDUCED, log 113). -/
def State.inWindow (s : State) (t off : Nat) : Bool :=
  let r := Tab.get (0, 0) s.compat t
  decide (r.1 ≤ off) && decide (off < r.1 + min r.2 (2 ^ 36))

/-- Translate for a tenant; the bits of a free value decide, for each translation on its own, between a cached one and the tables as they
stand (R390). -/
def State.xlate (s : State) (t : Nat) (a : Word) (kind : Nat) : Xlat :=
  if pathOf a = 7 ∧ !s.inWindow t (vaOf a) then .refused
  else match Machine.xlate s.mem s.tlb s.free.getLsbD (s.ctx t) t (xlatPath (pathOf a)) (vaOf a) kind with
  | .ok pa => if xlatPath (pathOf a) = 2 ∧ s.reduced = true ∧ carved pa = true then .refused else .ok pa
  | x => x

/-- The second-stage leaf that an access to an intermediate address would cache. -/
def State.cacheTwo (s : State) (t ia : Nat) : List Cached :=
  match ctxStage2 (s.ctx t) with
  | none => []
  | some r2 =>
    match walk2 s.mem r2 ia with
    | .leaf e lvl => [⟨2 * t + 1, ia / 65536, e, lvl, []⟩]
    | _ => []

/-- The first stage's tables on the way to an address, as the second stage translates them. -/
def State.cacheTables (s : State) (t : Nat) (a : Word) (root : Nat) : List (Nat × Cached) :=
  (walkReads s.mem (tableFetch s.mem [] allNew (s.ctx t) t) (vaOf a) [3, 2, 1, 0] root).flatMap
    (fun ia => (s.cacheTwo t ia).map (fun x => (ia, x)))

/-- Both stages' leaf entries of an access. -/
def State.leavesFor (s : State) (t : Nat) (a : Word) : List Cached :=
  match ctxStage1 (s.ctx t) with
  | none => s.cacheTwo t (vaOf a)
  | some root =>
    match walk1 s.mem [] allNew (s.ctx t) t (vaOf a) root with
    | .leaf e lvl =>
      ⟨2 * t, vaOf a / 65536, e, lvl, (s.cacheTables t a root).map (fun x => (x.1, x.2.lvl))⟩ :: s.cacheTwo t (leafOut e lvl (vaOf a))
    | _ => []

/-- The leaf entries that an access would cache: its own, and the second stage's of the first stage's tables. -/
def State.cacheFor (s : State) (t : Nat) (a : Word) : List Cached :=
  s.leavesFor t a ++ (match ctxStage1 (s.ctx t) with
    | some root => (s.cacheTables t a root).map (·.2)
    | none => [])

/-- The state after a translated access: its leaves cached once, a free value drawn where a cache could matter. -/
def State.cached (s : State) (t : Nat) (a : Word) : State :=
  if ctxStage1 (s.ctx t) = none ∧ ctxStage2 (s.ctx t) = none then s
  else ({ s with tlb := s.tlb ++ (s.cacheFor t a).filter (fun x => !s.tlb.contains x) }).drew

/-! ### Path 0x6 (R84, R377) -/

/-- R377: bit c of the tenant's permission table, and the partition. -/
def State.permits (s : State) (t cl : Nat) : Bool :=
  let c := s.ctx t
  ctxHolds c cl && ((s.mem.read (hbmAt (ctxPerm c + cl / 8))).toNat).testBit (cl % 8)

/-- The saved context of a launch whose context is not resident on a cluster (R406). -/
def State.away (s : State) (l : Launch) (cl : Nat) : Option (Nat × SavedCtx) :=
  match l.context with
  | none => none
  | some e => if (s.cluster cl).context == some e then none else (Tab.find s.saved e).map (fun x => (e, x))
def State.awayOf (s : State) (l cl : Nat) : Option (Nat × SavedCtx) := (s.launch? l).bind (fun x => s.away x cl)

/-- A core, and a cluster, in place or in a saved context. -/
def State.coreIn (s : State) (x : Option (Nat × SavedCtx)) (c : Nat) : Core :=
  match x with
  | some (_, v) => Tab.get Core.initial v.cores c
  | none => s.core c
def State.clusterIn (s : State) (x : Option (Nat × SavedCtx)) (cl : Nat) : Cluster :=
  match x with
  | some (_, v) => Tab.get Cluster.initial v.clusters cl
  | none => s.cluster cl

/-- R84 at the target for n bytes there, in place or in a saved image: another launch's column unless the launch is the holder. A
sett that is being stripped refuses pieces of earlier jobs too (R129; DEDUCED, log 120). -/
def State.remoteAllows (s : State) (x : Option (Nat × SavedCtx)) (t l cl c : Nat) (store : Bool) (off n : Nat) : Bool :=
  let k := s.clusterIn x cl
  match (s.coreIn x (if store then 8 * cl else c)).image.bind (Tab.find s.images) with
  | none => false
  | some im =>
    let sameImage := decide (im.tenant = t) && (match s.launch? l with
      | some y => (s.coreIn x (8 * cl)).image == some y.image
      | none => l == noLaunch)
    -- a transport packet has no launch: a sett of its tenant is as its own (R423; DEDUCED, log 138)
    let own := fun (y : Sett) => y.launch == l || (l == noLaunch && (match s.launch? y.launch with | some z => z.tenant == t | none => false))
    if store then
      decide (off + n ≤ 524288) && (granulesOf off n).all (fun g =>
        match Tab.get .free k.granules g with
        | .image => sameImage
        | .sett _ => k.setts.any (fun y => own y && !y.isDisplaced && y.covers g)
        | _ => false)
    else decide (off + n ≤ (s.coreIn x c).poolLimit)

/-! ### Saved contexts (R402, R403, R406) -/

/-- A context entry's words at the schedule page (R394, R396). -/
def entryAt (e : Nat) : Nat := hbmAt (Config.schedulePage.toNat % 2 ^ 60 + 0x1000 + 64 * e)
def State.entryWord (s : State) (e i : Nat) : Nat := (s.wordAt (entryAt e + 8 * i)).toNat
def entryValid (w0 : Nat) : Bool := bitOf w0 63
def entryState (w0 : Nat) : Nat := bitsOf w0 62 60
def State.setEntryState (s : State) (e x : Nat) : State := s.poke (entryAt e) 8 (withBits (s.entryWord e 0) 62 60 x)

/-- The driver's valid 0 re-arms a suspended entry (R405). -/
def State.rearm (s : State) (e : Nat) : State :=
  if entryState (s.entryWord e 0) = 2 ∧ !entryValid (s.entryWord e 0) then s.setEntryState e 0 else s

/-- Section of a cluster in a context buffer: the buffer holds the partition's clusters in order. -/
def sectionAt (buf first cl : Nat) : Nat := hbmAt (buf + 0x10000 + 0x200000 * (cl - first))
/-- Where a scratchpad byte lies among the 48 banks (R82). -/
def bankOffset (partw off : Nat) : Nat :=
  let sc := partScratch partw
  let w := off / 8
  (2 * partFrames partw + partAcc partw + w % sc) * 2048 + 8 * (w / sc) + off % 8

/-- Where bytes of an engine job lie. -/
inductive Place where
  /-- in the model's numbering -/
  | mem (a : Nat)
  /-- in a saved image: the byte, and the byte and bit of its word's full/empty bit -/
  | saved (a bitByte bit : Nat)
  | absent (stage rec kind : Nat)
  /-- a host-window page that the host owns (R369), by function and page -/
  | hostOwned (key : Nat)
  | refused
  /-- a mailbox register block: function and offset in the page (R361) -/
  | mbox (fn off : Nat)
  deriving DecidableEq, Repr

/-- A host-window page's key: function, and page of its path 0x3 address. -/
def pageKey (fn : Nat) (a : Word) : Nat := fn * 2 ^ 36 + bitsOf a.toNat 47 16

/-- Place of a scratchpad or store byte of cluster cl: in place, or in a saved image of tenant t (R406). -/
def State.placeIn (s : State) (x : Option (Nat × SavedCtx)) (t cl c : Nat) (store : Bool) (off : Nat) : Place :=
  match x with
  | none => .mem (if store then storeAt cl off else poolAt c off)
  | some (e, v) =>
    let sec := sectionAt (s.entryWord e 2) (ctxFirst (s.ctx t)) cl
    if store then .saved (sec + 0xC0000 + off) (sec + 0x14C000 + off / 64) (off / 8 % 8)
    else
      let pw := (Tab.get Core.initial v.cores c).partw.toNat
      let i := bankOffset pw off / 8
      .saved (sec + 96 * 1024 * (c % 8) + bankOffset pw off) (sec + 0x148000 + 2048 * (c % 8) + i / 8) (i % 8)

/-- Place of a scratchpad or store byte of cluster cl for a launch. -/
def State.localPlace (s : State) (l t cl c : Nat) (store : Bool) (off : Nat) : Place := s.placeIn (s.awayOf l cl) t cl c store off

/-- Where n bytes at a path 0x6 address lead (R84, R377, R406): a piece that lies past the end of the pool or store, or of the path, is
refused (R261). -/
def State.remotePlace (s : State) (x : Option (Nat × SavedCtx)) (l t : Nat) (a n : Nat) : Place :=
  let cl := bitsOf a 47 37
  let store := bitOf a 33
  let c := 8 * cl + bitsOf a 36 34
  let off := bitsOf a 32 0
  if bitsOf a 59 48 == 0 && s.permits t cl && s.remoteAllows x t l cl c store off n then s.placeIn x t cl c store off else .refused

/-- Where n bytes at an address of an engine job lead: the job's core, launch and tenant, and the access kind. The bytes stand in
one 8-byte piece or in one aligned word or pair. -/
def State.place (s : State) (core l t : Nat) (addr : Word) (n kind : Nat) : Place :=
  let a := addr.toNat
  let p := pathOf addr
  if p = 4 then s.localPlace l t (clusterOf core) core false (bitsOf a 16 0)
  else if p = 5 then s.localPlace l t (clusterOf core) core true (bitsOf a 18 0)
  else if p = 6 then s.remotePlace (s.awayOf l (bitsOf a 47 37)) l t a n
  else if p = 8 ∨ p ≥ 10 then .refused
  else
    match s.xlate t addr kind with
    | .refused => .refused
    | .absent st r k => .absent st r k
    | .ok pa =>
      if p = 2 then .mem (secondTierAt pa)
      else if p = 3 then
        let p := Tab.get Page.initial s.pages (pageKey t addr)
        if p.device && p.taking.isNone then .mem (hostAt pa) else .hostOwned (pageKey t addr)
      else if pa / 65536 = Config.barPage t then .mbox t (pa % 65536)
      else .mem (hbmAt pa)

/-- Land n bytes at a place (R87); a saved word that is written whole becomes full there (R406). -/
def State.landAt (s : State) (pl : Place) (n x : Nat) : State :=
  match pl with
  | .mem a => s.land a n x
  | .saved a bb bit =>
    let s := s.poke a n x
    if n = 8 ∧ a % 8 = 0 then s.poke bb 1 ((s.bytes bb 1) ||| 2 ^ bit) else s
  | _ => s

def State.readAt (s : State) (pl : Place) (n : Nat) : Nat :=
  match pl with
  | .mem a => s.bytes a n
  | .saved a _ _ => s.bytes a n
  | _ => 0

end Sys2Proof.Machine
end

