-- ==== Sys2Proof/Machine/Rings.lean ====
section
/-! DEFINITION. Barrier arrivals (R96), words of memory that the device itself reads and writes for a tenant, and the posting of
event and fault records (R368, R385 to R388). -/

namespace Sys2Proof.Machine

/-! ### Barriers (R95, R96) -/

def barRemaining (w0 : Nat) : Nat := bitsOf w0 47 0
def barPhase (w0 : Nat) : Bool := bitOf w0 48
/-- Error flags as word 0 bits: engine fault 56, refused 57, cancelled 58, overrun 59. -/
def flagEngine : Nat := 2 ^ 56
def flagRefused : Nat := 2 ^ 57
def flagCancelled : Nat := 2 ^ 58
def flagOverrun : Nat := 2 ^ 59

/-- Word 0 with a new remaining count and phase. -/
def barWord (w0 : Nat) (phase : Bool) (remaining : Nat) : Nat := w0 / 2 ^ 49 * 2 ^ 49 + boolNat phase * 2 ^ 48 + remaining % 2 ^ 48

/-- How many phases of a barrier an arrival of n bytes flips (R96). -/
def barrierFlips (w0 w1 n : Nat) : Nat :=
  let rem := barRemaining w0
  let reload := bitsOf w1 47 0
  if n = 0 ∨ n < rem then 0 else if rem < n ∧ 0 < reload then 1 + (n - rem) / reload else 1

/-- arrive(b, n, err) of R96 on the two words. -/
def arriveWords (w0 w1 n flags : Nat) : Nat × Nat :=
  let flips := barrierFlips w0 w1 n
  let w0 := w0 ||| flags
  if n = 0 then (w0, w1)
  else
    let reload := bitsOf w1 47 0
    let rem := barRemaining w0
    let w1 := (bitsOf w1 63 48 + 1) % 65536 * 2 ^ 48 + reload
    if flips = 0 then (barWord w0 (barPhase w0) (rem - n), w1)
    else
      let excess := n - rem
      let w0 := if 0 < excess then w0 ||| flagOverrun else w0
      (barWord w0 (barPhase w0 != (flips % 2 == 1)) (if 0 < reload then reload - excess % reload else 0), w1)

/-- An arrival at a barrier whose words stand at two places: of the model's numbering, or of a saved image (R406), where the banks of a
pool part them (R403). -/
def State.arriveWordsAt (s : State) (a b n flags : Nat) : State :=
  let r := arriveWords (s.wordAt a).toNat (s.wordAt b).toNat n flags
  (s.poke a 8 r.1).poke b 8 r.2
/-- An arrival at a barrier in place. -/
def State.arriveAt (s : State) (a n flags : Nat) : State := s.arriveWordsAt a (a + 8) n flags

/-! ### Bytes that the device reaches for a tenant -/

/-- The place of one byte or word of a tenant's paths 0x0 to 0x3 and 0x7, without regard to page owners. -/
def State.devicePlace (s : State) (t : Nat) (a : Word) (kind : Nat) : Option Nat :=
  match s.xlate t a kind with
  | .ok pa => some (if pathOf a = 2 then secondTierAt pa else if pathOf a = 3 then hostAt pa else hbmAt pa)
  | _ => none

def State.getVa (s : State) (t : Nat) (a : Word) : Option Word := (s.devicePlace t a 0).map s.wordAt
def State.putVa (s : State) (t : Nat) (a x : Word) : State :=
  match s.devicePlace t a 1 with
  | some p => s.land p 8 x.toNat
  | none => s

/-- Write words one after another from a virtual address. -/
def State.putWords (s : State) (t : Nat) : Word → List Word → State
  | _, [] => s
  | a, x :: xs => (s.putVa t a x).putWords t (a + 8) xs

/-! ### Posting into a ring (R366, R368, R385) -/

/-- Post a record into a ring whose byte i stands at `at i`: the state, and whether its notify flag asked for an interrupt. A full
ring counts the record as lost. -/
def State.postRing (s : State) (place : Nat → Option Nat) (cap : Nat) (ws : List Word) : State × Bool :=
  match place 0, place 8, place 16, place 24 with
  | some p0, some p8, some p16, some p24 =>
    let p := (s.wordAt p0).toNat
    let q := (s.wordAt p8).toNat
    if p - q ≥ cap then
      let lost := (s.wordAt p24).toNat
      (s.poke p24 8 (min (lost + 1) (2 ^ 64 - 1)), false)
    else
      let s := (List.range ws.length).foldl (fun s i =>
        match place (64 + 32 * (p % cap) + 8 * i) with
        | some a => s.land a 8 (ws.getD i 0).toNat
        | none => s) s
      let s := s.land p0 8 (p + 1)
      let note := (s.wordAt p16).toNat
      if bitOf note 0 then (s.poke p16 8 (note - 1), true) else (s, false)
  | _, _, _, _ => (s, false)

/-- Has a ring room for one record? -/
def State.ringRoom (s : State) (place : Nat → Option Nat) (cap : Nat) : Bool :=
  match place 0, place 8 with
  | some p0, some p8 => decide ((s.wordAt p0).toNat - (s.wordAt p8).toNat < cap)
  | _, _ => false

def ringKey (fn ring : Nat) : Nat := 16 * fn + ring % 16
def State.eventRing (s : State) (fn ring : Nat) : EventRing := Tab.get EventRing.initial s.eventRings (ringKey fn ring)
/-- Where a ring's bytes stand: its base is an address of its function's tenant. -/
def State.ringPlace (s : State) (fn : Nat) (r : EventRing) (i : Nat) : Option Nat := s.devicePlace fn (r.base + word i) 1

/-- A shared page of path 0x3, and whether the host owns that of an address of a function (R113, R369). -/
def State.page (s : State) (k : Nat) : Page := Tab.get Page.initial s.pages k
def State.setPage (s : State) (k : Nat) (p : Page) : State := { s with pages := Tab.set s.pages k p }
def State.hostOwns (s : State) (fn : Nat) (a : Word) : Bool := pathOf a == 3 && !(s.page (pageKey fn a)).device

/-- The words of an event record, whose source's sequence advances (R367). -/
def State.eventRecord (s : State) (fn ring kind source : Nat) (w2 w3 : Word) : State × List Word :=
  let key := ringKey fn ring * 2 ^ 16 + source
  let seq := Tab.get 0 s.eventSeq key
  ({ s with eventSeq := Tab.set s.eventSeq key ((seq + 1) % 2 ^ 32) },
    [word (seq * 2 ^ 32 + kind * 2 ^ 16 + source), word s.now, w2, w3])

/-- A record goes into an event ring (R368). -/
def State.putRecord (s : State) (fn ring : Nat) (ws : List Word) : State :=
  let r := s.eventRing fn ring
  if !r.enable then s
  else
    let o := s.postRing (s.ringPlace fn r) (2 ^ r.log2) ws
    if o.2 then { o.1 with msix := o.1.msix ++ [(fn, r.vector)] } else o.1

/-- An address of the host's page for which the next record of a ring waits (R370). -/
def State.ringHost (s : State) (fn ring : Nat) : Option Word :=
  let r := s.eventRing fn ring
  if !r.enable then none
  else if s.hostOwns fn r.base then some r.base
  else match s.ringPlace fn r 0 with
    | some p =>
      let a := r.base + word (64 + 32 * ((s.wordAt p).toNat % 2 ^ r.log2))
      if s.hostOwns fn a then some a else none
    | none => none

/-- A record is posted, or waits behind others of its ring or for a page that the host owns (R370; DEDUCED, log 159). -/
def State.postRecord (s : State) (fn ring : Nat) (ws : List Word) : State :=
  if s.heldPosts.any (fun x => x.fn == fn && x.ring == ring % 16) || (s.ringHost fn ring).isSome then
    { s with heldPosts := s.heldPosts ++ [⟨fn, ring % 16, ws⟩] }
  else s.putRecord fn ring ws

/-- The device asks for a page for an engine of its own, once (R369). -/
def State.askFor (s : State) (fn : Nat) (a : Word) : State :=
  let p := s.page (pageKey fn a)
  if p.asked then s
  else
    let s := s.setPage (pageKey fn a) { p with asked := true }
    if !(s.eventRing fn 0).enable then s
    else
      let o := s.eventRecord fn 0 0x0040 0x0C00 (word (a.toNat / 65536 * 65536)) 0
      o.1.postRecord fn 0 o.2

/-- A record with the request for the page that it waits for. -/
def State.offerRecord (s : State) (fn ring : Nat) (ws : List Word) : State :=
  match s.ringHost fn ring with
  | some a => (s.postRecord fn ring ws).askFor fn a
  | none => s.postRecord fn ring ws
/-- Records that waited are offered again, in the order in which they came. -/
def State.offerPosts (s : State) : State :=
  s.heldPosts.foldl (fun s x => s.offerRecord x.fn x.ring x.words) { s with heldPosts := [] }

/-- Post an event record (R367, R368) to a function's event ring. -/
def State.postEvent (s : State) (fn ring kind source : Nat) (w2 w3 : Word) : State :=
  if !(s.eventRing fn ring).enable then s
  else
    let o := s.eventRecord fn ring kind source w2 w3
    o.1.offerRecord fn ring o.2

/-- Post to event ring 0 of every tenant with a context (R137, R428, R440). -/
def State.postAllTenants (s : State) (kind source : Nat) (w2 w3 : Word) : State :=
  (Tab.keys s.tenants).foldl (fun s t => s.postEvent t 0 kind source w2 w3) s

/-- Bytes of the control page and of the fabric page (R375, R411). -/
def controlAt (off : Nat) : Nat := hbmAt (Config.controlPage.toNat % 2 ^ 60 + off)
def fabricAt (off : Nat) : Nat := hbmAt (Config.fabricPage.toNat % 2 ^ 60 + off)

/-! ### Fault records (R384 to R388) -/

/-- The words of a fault record: address, engine job, cluster, kind, stage, tenant, launch sequence (R386). -/
def State.faultWords (s : State) (rec job cl kind stage t seq lseq : Nat) : List Word :=
  [word rec, word (seq % 2 ^ 24 * 2 ^ 40 + job % 256 * 2 ^ 32 + cl % 4096 * 2 ^ 20 + kind * 2 ^ 17 + (stage - 1) * 2 ^ 16 + t),
   word s.now, word lseq]

/-- How many entries of the second-stage queue a tenant holds, and how many shared ones are taken (R388). -/
def State.stage2Held (s : State) (t : Nat) : Nat := (s.stage2Queue.filter (fun x => x.tenant == t)).length
def State.stage2Shared (s : State) : Nat :=
  ((List.range 65).map (fun t => s.stage2Held t - 8)).foldl (· + ·) 0
/-- A record of tenant t finds an entry: one of its 8, or a shared one within 128 (R388). -/
def State.stage2Room (s : State) (t : Nat) : Bool :=
  decide (s.stage2Held t < 8) || (decide (s.stage2Shared < 504) && decide (s.stage2Held t < 8 + 128))

/-- Post a fault record to the ring of the stage that found it (R384, R385, R387, R388). A second-stage record that finds no queue entry
stays in its NI. A tenant's own ring takes none while the tenant is being reset (R391). -/
def State.postFault (s : State) (rec job cl kind stage t lseq : Nat) : State :=
  let key := if stage = 1 then 2 * (cl * 65 + t) else 2 * cl + 1
  let seq := Tab.get 0 s.faultSeq key
  let bump := fun (s : State) => { s with faultSeq := Tab.set s.faultSeq key ((seq + 1) % 2 ^ 24) }
  if stage = 1 ∧ s.resets.any (fun r => r.tenant == t && r.begun) = true then s
  else if stage = 1 then
    let c := s.ctx t
    let lg := bitsOf (msgWord c 4) 4 0
    if lg = 0 then bump s
    else
      let base := bitsOf (msgWord c 4) 63 12 * 4096
      let place := fun i => match ctxStage2 c with
        | none => some (hbmAt (base + i))
        | some r2 =>
          match walk2 s.mem r2 (base + i) with
          | .leaf e lvl => if leafWrite e && !leafHost e then some (hbmAt (leafOut e lvl (base + i))) else none
          | _ => none
      let o := s.postRing place (2 ^ lg) (s.faultWords rec job cl kind 1 t seq lseq)
      let s := bump o.1
      if o.2 then { s with msix := s.msix ++ [(t, bitsOf (msgWord c 5) 26 16)] } else s
  else if s.stage2Room t then
    let ws := s.faultWords rec job cl kind 2 t seq lseq
    let s := bump { s with stage2Queue := s.stage2Queue ++ [⟨t, ws⟩] }
    s.post .secondStageRecordMove
  else { s with niHeld := s.niHeld ++ [⟨rec, job, cl, kind, t, lseq⟩] }

/-- Records that stayed in their NIs are offered again, in the order in which they came (R388). -/
def State.offerHeld (s : State) : State :=
  s.niHeld.foldl (fun (s : State) x => s.postFault x.addr x.job x.cluster x.kind 2 x.tenant x.seq) { s with niHeld := [] }

end Sys2Proof.Machine
end

