-- ==== Sys2Proof/Machine/Order.lean ====
section
/-! DEFINITION. Which writes happen before an agent's next access (R105 to R107, R110), as far as path 0x1 asks for it (R112): a firing, a
job, a word on its way and a launch hold the numbers of those writes, and a word of memory the releases that it holds (DESIGN CHOICE, log 14). -/

namespace Sys2Proof.Machine

/-! ### Numbers of writes, with their chains -/

/-- The writes of two lists, each as far as the farther of its chains has come. -/
def seenJoin (a b : Seen) : Seen := b.foldl (fun l x => Tab.set l x.1 (max (Tab.get 0 l x.1) x.2)) a
/-- Does a scope count for path 0x1 (R112)? -/
def wideScope (sc : Nat) : Bool := sc == 3 || sc == 4
/-- What a release, or after it an acquire, of a scope makes of them. -/
def seenReleased (sc : Nat) (a : Seen) : Seen := if wideScope sc then a.map (fun x => (x.1, max x.2 1)) else a
def seenAcquired (sc : Nat) (a : Seen) : Seen := if wideScope sc then a.map (fun x => (x.1, if x.2 = 1 then 2 else x.2)) else a
/-- Numbers of writes whose chain begins. -/
def seenOf (l : List Nat) : Seen := seenJoin [] (l.map (fun n => (n, 0)))

/-! ### Scopes (R100, R101, R116) -/

/-- System scope as a tenant's function may use it (R116). -/
def State.systemScope (s : State) (t : Nat) : Nat := if ctxTenantScope (s.ctx t) then 5 else 4
/-- A modifier's scope, where one without a scope has a default. -/
def State.scopeOf (s : State) (t modf dflt : Nat) : Nat :=
  let sc := if bitOf modf 6 then Modf.scope modf else dflt
  if sc = 4 then s.systemScope t else sc
/-- Does a scope named from core x contain core y (none: the host)? -/
def State.inScope (s : State) (sc : Nat) (x y : Option Nat) : Bool :=
  match x, y with
  | some x, some y =>
    if sc = 0 then x == y
    else if sc = 1 then clusterOf x == clusterOf y
    else if sc = 2 then clusterOf x / 512 == clusterOf y / 512
    else if sc = 5 then (s.cluster (clusterOf x)).tenant == (s.cluster (clusterOf y)).tenant
    else true
  | _, _ => sc == 4

/-- What an acquire at a scope by core c (none: the host) takes from releases (R106). -/
def State.takenFrom (s : State) (c : Option Nat) (sc : Nat) (rs : List Release) : Seen :=
  (rs.filter (fun r => !r.plain && s.inScope r.scope r.by' c && s.inScope sc c r.by')).foldl
    (fun l r => seenJoin l (seenAcquired sc r.seen)) []

/-! ### Words and barriers -/

/-- A release beside others: what one core releases at one scope stands together. -/
def addRelease (rs : List Release) (r : Release) : List Release :=
  let same := fun (x : Release) => x.scope == r.scope && x.by' == r.by' && x.plain == r.plain
  if rs.any same then rs.map (fun x => if same x then { x with seen := seenJoin x.seen r.seen } else x) else rs ++ [r]
def addReleases (rs l : List Release) : List Release := l.foldl addRelease rs

/-- The releases that the word at an address holds, and those of every word that n bytes there touch. -/
def State.syncAt (s : State) (a : Nat) : List Release := Tab.get [] s.syncs a
def touched (a n : Nat) : List Nat := (List.range ((a % 8 + n + 7) / 8)).map (fun i => a / 8 * 8 + 8 * i)
def State.syncsOf (s : State) (a n : Nat) : List Release := if s.syncs = [] then [] else (touched a n).foldl (fun l w => addReleases l (s.syncAt w)) []

/-- A word is written: what it held is over, and so is what arrivals left there. -/
def State.setSync (s : State) (w : Nat) (l : List Release) : State :=
  { s with syncs := if l = [] then Tab.erase s.syncs w else Tab.set s.syncs w l, barriers := Tab.erase s.barriers w }
def State.setSyncs (s : State) (a n : Nat) (l : List Release) : State := (touched a n).foldl (fun s w => s.setSync w l) s
/-- A word is read and written as one: its releases stay, and others join them (R106). -/
def State.addSync (s : State) (w : Nat) (l : List Release) : State :=
  if l = [] then s else { s with syncs := Tab.set s.syncs w (addReleases (s.syncAt w) l) }

/-! ### Firings -/

/-- The firing in a slot has these writes before its next access. -/
def Slot.learn (x : Slot) (l : Seen) : Slot := if l = [] then x else { x with order := { x.order with seen := seenJoin x.order.seen l } }
/-- It acquires at a scope what releases hold, and a later `FENCE` may what reads have left. -/
def State.syncOn (s : State) (c n sc : Nat) (rs : List Release) : State :=
  if rs = [] then s
  else s.modSlot c n (fun x =>
    let x := x.learn (s.takenFrom (some c) sc rs)
    { x with order := { x.order with loaded := addReleases x.order.loaded ((rs.filter (·.plain)).map (fun r => { r with plain := false })) } })

/-- The issuing firing reads a word that a sender released at device scope (R106). -/
def State.acquired (s : State) (l : Seen) : State := if l = [] then s else s.modMe (fun x => x.learn (seenAcquired 3 l))
/-- What it releases at device scope with a word or message. -/
def State.given (s : State) : Seen := seenReleased 3 s.me.order.seen

/-- The tenant whose policy holds for the issuing firing. -/
def State.myTenant (s : State) : Nat := (s.myLaunch.map (·.tenant)).getD s.here.tenant.toNat

/-- A load of n bytes: it acquires, or leaves a later `FENCE` what it may acquire (R105, R106). -/
def State.loadOrder (s : State) (modf a n : Nat) : State :=
  let rs := s.syncsOf a n
  if rs = [] then s
  else if Modf.order modf = 1 then s.syncOn s.cur s.curSlot (s.scopeOf s.myTenant modf 1) rs
  else s.modMe (fun x => { x with order := { x.order with loaded := addReleases x.order.loaded rs } })
/-- The releases that a store makes: its own, or those of the `FENCE`s before it (R105, R106). -/
def State.storeReleases (s : State) (modf : Nat) : List Release :=
  if Modf.order modf = 2 then
    let sc := s.scopeOf s.myTenant modf 1
    [⟨sc, some s.cur, seenReleased sc s.me.order.seen, false⟩]
  else s.me.order.fenced
def State.storeOrder (s : State) (modf a n : Nat) : State := s.setSyncs a n (s.storeReleases modf)
/-- A read and write of one word carries on what was released to it (R106). -/
def State.chainOrder (s : State) (a : Nat) : State :=
  let s := s.loadOrder 0 a 8
  s.addSync a s.me.order.fenced
/-- `FENCE`, of kind 0 or 3 both ways (R101, R105, R247). -/
def State.fence (s : State) (modf : Nat) : State :=
  let k := Modf.order modf
  let sc := s.scopeOf s.myTenant modf 3
  let s := if k = 2 then s else s.syncOn s.cur s.curSlot sc s.me.order.loaded
  if k = 1 then s
  else s.modMe (fun x => { x with order := { x.order with
    fenced := x.order.fenced.filter (fun r => r.scope != sc) ++ [⟨sc, some s.cur, seenReleased sc x.order.seen, false⟩] } })

/-! ### Barriers (R106, R110, R194) -/

/-- What arrivals at the barrier at a carry that has not flipped yet. -/
def State.arrivals (s : State) (a : Nat) : Arrivals := Tab.get ⟨[], []⟩ s.barriers a

/-- A wait that ends as cancelled acquires the flips and the arrivals that have landed (R110, R146). -/
def State.acquireShort (s : State) (c n a : Nat) : State :=
  let sc := s.systemScope (((s.launch? (s.slot c n).launch).map (·.tenant)).getD 0)
  (s.syncOn c n sc (s.syncAt a)).modSlot c n (fun x => x.learn (seenAcquired sc (s.arrivals a).seen))

/-- The wait of a stalled slot at a barrier finds its phase: it ends with the word as it is now, and acquires (R194; log 14). -/
def State.noteBarrier (s : State) (c n : Nat) : State :=
  let x := s.slot c n
  match x.st, x.met, x.stall with
  | .stalled, none, some (.barrier a ph) =>
    if (s.wordAt a).getLsbD 48 = ph then
      let t := ((s.launch? x.launch).map (·.tenant)).getD 0
      (s.syncOn c n (s.systemScope t) (s.syncAt a)).modSlot c n (fun x => { x with met := some (s.wordAt a) })
    else s
  | _, _, _ => s
/-- Every wait at the barrier at a place looks again. -/
def State.noteWaiters (s : State) (a : Nat) : State :=
  if isLocal a then
    (coresOf (clusterOfAddr a)).foldl (fun s c => (s.core c).slots.foldl (fun s y =>
      if (match y.2.stall with | some (.barrier b _) => b == a | _ => false) then s.noteBarrier c y.1 else s) s) s
  else s

/-- An arrival for tenant t and an agent of core c at the barrier whose words stand at a and b, carrying the writes that happen before it and
the releases that its job read: a flip releases what the phase's arrivals carried, at system scope (R106, R110), and the waits there look
again (R194). -/
def State.arrive (s : State) (t c a b n flags : Nat) (l : Seen) (reads : List Release) : State :=
  let o := s.arrivals a
  let o : Arrivals := ⟨seenJoin o.seen l, addReleases o.reads reads⟩
  let sc := s.systemScope t
  let u := s.arriveWordsAt a b n flags
  let u := if n = 0 ∨ (o.seen = [] ∧ o.reads = []) then u
    else if barrierFlips (s.wordAt a).toNat (s.wordAt b).toNat n = 0 then { u with barriers := Tab.set u.barriers a o }
    else ({ u with barriers := Tab.erase u.barriers a } : State).addSync a (⟨sc, some c, seenReleased sc o.seen, false⟩ :: o.reads)
  u.noteWaiters a

/-! ### Jobs and the host -/

/-- The global writes that a job has made. -/
def State.writesBy (s : State) (j : Nat) : Seen := seenOf ((s.older.filter (fun x => x.by' == some j)).map (·.n))

/-- The number that a write at an address takes, if it is of a global word. -/
def State.numberFor (s : State) (addr : Word) : Seen := if pathOf addr = 0 ∨ pathOf addr = 7 then [(s.writes, 0)] else []
/-- A global word is about to be written: what it holds may still be read through path 0x1. -/
def State.keepOld (s : State) (by' : Option Nat) (l : Nat) (addr : Word) (a : Nat) : State :=
  if pathOf addr = 0 ∨ pathOf addr = 7 then
    { s with writes := s.writes + 1, older := s.older ++ [⟨s.writes, a / 8 * 8, s.wordAt (a / 8 * 8), by', l⟩] }
  else s

/-- The releases that a job's write makes: its own where it is one, or those of the `FENCE`s before its issue, with the write itself (R105,
R106). -/
def State.jobReleases (s : State) (j : Job) (own : Seen) : List Release :=
  if Modf.order j.modf = 2 ∧ (j.opcode = 0xA3 ∨ j.opcode = 0xA6 ∨ j.opcode = 0xA8) then
    let sc := s.scopeOf j.tenant j.modf 3
    [⟨sc, some j.core, seenReleased sc (seenJoin j.know own), false⟩]
  else j.fenced.map (fun r => { r with seen := seenJoin r.seen (seenReleased r.scope own) })
/-- A job has read words that hold releases: it acquires what it takes to its barrier, or leaves it there for a `FENCE` (R106). -/
def State.jobRead (s : State) (j : Job) (rs : List Release) : Job :=
  if Modf.order j.modf = 1 ∧ (j.opcode = 0xA2 ∨ j.opcode = 0xA6 ∨ j.opcode = 0xA8) then
    { j with got := seenJoin j.got (s.takenFrom (some j.core) (s.scopeOf j.tenant j.modf 3) rs) }
  else { j with reads := addReleases j.reads (rs.map (fun r => { r with plain := true })) }

/-- What happens before the host's next request to a quadrant; with none, before its writes outside the window (R106, R114; log 14). -/
def State.hostKnows (s : State) (q : Option Nat) : Seen :=
  match q with
  | some q => seenJoin s.hostSeen (Tab.get [] s.hostWrote q)
  | none => s.hostWrote.foldl (fun l e => seenJoin l e.2) s.hostSeen
/-- The host reads words that hold releases: it acquires at system scope (R100). -/
def State.hostReads (s : State) (rs : List Release) : State :=
  if rs = [] then s else { s with hostSeen := seenJoin s.hostSeen (s.takenFrom none 4 rs) }

end Sys2Proof.Machine
end

