-- ==== Sys2Proof/Machine/Saved.lean ====
section
/-! DEFINITION. The bytes of register frames and slot state words (R85, R399), of cluster sections (R403) and of spilled NI state
(R404). -/

namespace Sys2Proof.Machine

/-- Write words one after another. -/
def Mem.words (m : Mem) : Nat → List Nat → Mem
  | _, [] => m
  | a, x :: xs => Mem.words (Mem.writeN m a 8 x) (a + 8) xs

def SlotSt.code : SlotSt → Nat
  | .free => 0
  | .running => 1
  | .stalled => 2
  | .frozen => 3
def slotStOf : Nat → SlotSt
  | 0 => .free
  | 1 => .running
  | 2 => .stalled
  | _ => .frozen

/-- The slot state word (R399). -/
def Slot.stateWord (x : Slot) : Nat :=
  x.launch % 4096 * 2 ^ 45 + x.count % 2 ^ 20 * 2 ^ 25 + x.depth % 2 ^ 11 * 2 ^ 14 + boolNat x.wake.isSome * 2 ^ 13 +
    boolNat x.inTrap * 2 ^ 12 + boolNat x.light * 2 ^ 11 + x.handler % 32 * 2 ^ 6 + x.kind.code * 8 + x.st.code

/-- The 4 KiB register frame (R85) as bytes from an address. -/
def Slot.frameBytes (x : Slot) (m : Mem) (a : Nat) : Mem :=
  let m := Mem.words m a ((List.range 32).map (fun i => (x.readG (BitVec.ofNat 5 i)).toNat))
  let m := (List.range 32).foldl (fun m i => Mem.writeN m (a + 0x100 + 64 * i) 64 (x.v.toList.getD i 0).toNat) m
  let m := Mem.words m (a + 0x900) ((List.range 8).map (fun i => (x.readW (BitVec.ofNat 3 i)).toNat))
  let m := (List.range 4).foldl (fun m i => Mem.writeN m (a + 0x940 + 32 * i) 32 (x.m.toList.getD i 0).toNat) m
  let ps := (List.range 8).foldl (fun n i => n + boolNat (x.readP (BitVec.ofNat 3 i)) * 2 ^ i) 0
  let m := Mem.writeN m (a + 0x9C0) 1 ps
  Mem.words m (a + 0x9C8) [x.pc.toNat, x.stateWord]

/-- The frame that 4 KiB at an address hold: what R85 keeps there, in a slot that was free (R308). -/
def Slot.ofFrame (m : Mem) (a : Nat) : Slot :=
  let st := Mem.readN m (a + 0x9D0) 8
  { Slot.empty with
    g := Vector.ofFn (fun i : Fin 32 => if i.val = 0 then 0 else m.word (a + 8 * i.val))
    v := Vector.ofFn (fun i : Fin 32 => BitVec.ofNat 512 (Mem.readN m (a + 0x100 + 64 * i.val) 64))
    w := Vector.ofFn (fun i : Fin 8 => m.word (a + 0x900 + 8 * i.val))
    m := Vector.ofFn (fun i : Fin 4 => BitVec.ofNat 256 (Mem.readN m (a + 0x940 + 32 * i.val) 32))
    p := Vector.ofFn (fun i : Fin 8 => (Mem.readN m (a + 0x9C0) 1).testBit i.val)
    pc := m.word (a + 0x9C8)
    launch := bitsOf st 56 45
    count := bitsOf st 44 25
    depth := bitsOf st 24 14
    inTrap := bitOf st 12
    light := bitOf st 11
    handler := bitsOf st 10 6
    kind := kindOf (bitsOf st 5 3)
    st := .frozen }

/-- Journal status word (R311). -/
def JournalEntry.status (e : JournalEntry) : Nat :=
  if e.inUse then e.pc.toNat * 2 ^ 32 + e.launch % 4096 * 2 ^ 16 + e.len * 2 ^ 8 + boolNat e.refused * 2 + 1 else 0

/-- The eight words of a walker message (R61). -/
def Walker.words (x : Walker) : List Word :=
  [word (x.depth * 2 ^ 53 + x.handler * 2 ^ 48 + x.key), word (x.launch * 2 ^ 8 + x.block)] ++
    (List.range 4).map (fun j => x.members.extractLsb' (64 * j) 64) ++ [x.carry6, x.carry7]

/-- The engine-space address of an input channel (R248). -/
def chanAddr (c h ch : Nat) : Word := word (8 * 2 ^ 60 + (c / 8) * 2 ^ 37 + (c % 8) * 2 ^ 34 + h * 2 ^ 29 + ch * 2 ^ 27)

/-- Cells of memory in a range, moved. -/
def Mem.moved (m : Mem) (a n : Nat) (f : Nat → Nat) : Mem :=
  (m.filter (fun c => decide (a ≤ c.1) && decide (c.1 < a + n))).foldl (fun r c => Mem.write r (f (c.1 - a)) c.2) []

/-- The bytes laid over others. -/
def Mem.overlay (m x : Mem) : Mem := x.foldl (fun m c => Mem.write m c.1 c.2) m

/-- Bits of a map of full words, by index, set among bytes. -/
def setBits (at' : Nat) (m : Mem) (is : List Nat) : Mem :=
  is.foldl (fun m i => Mem.write m (at' + i / 8) (BitVec.ofNat 8 ((Mem.read m (at' + i / 8)).toNat ||| 2 ^ (i % 8)))) m
/-- The words of a range that are full, by their index in it. -/
def fullIn (full : List Nat) (a n : Nat) : List Nat :=
  (full.filter (fun w => decide (a ≤ 8 * w) && decide (8 * w < a + n))).map (fun w => w - a / 8)

/-- The input channels of a core in the channel region (R349): handler, channel, slots, and the scratchpad offset of slot 0. -/
def Core.chanMap (k : Core) : List (Nat × Nat × Nat × Nat) :=
  let base := partScratch k.partw.toNat * 2048 - channelRegion k.handlers
  let chans := k.handlers.flatMap (fun e => (List.range e.2.inputs).map (fun j => (e.1, j, inSlots (e.2.input j))))
  (chans.foldl (fun (acc : List (Nat × Nat × Nat × Nat) × Nat) x => (acc.1 ++ [(x.1, x.2.1, x.2.2, acc.2)], acc.2 + 8 * x.2.2)) ([], base)).1

/-- Where a queued word stands in the scratchpad: the j-th word of a channel in its j-th slot; with the words, in their order. -/
def Core.chanPlaces (k : Core) : List (Nat × ChanWord) :=
  k.chanMap.flatMap (fun x =>
    let ws := k.channels.filter (fun w => w.handler == x.1 && w.chan == x.2.1)
    (List.range (min ws.length x.2.2.1)).filterMap (fun j => ws[j]?.map (fun w => (x.2.2.2 + 8 * j, w))))

/-- The channel region's words (R349). -/
def Core.channelBytes (k : Core) (m : Mem) (pool : Nat) : Mem :=
  k.chanPlaces.foldl (fun m x => Mem.writeN m (pool + bankOffset k.partw.toNat x.1) 8 x.2.word.toNat) m

/-- The pool's full/empty bits, by pool word, with the tags of queued words in the channel region (R45, R403). -/
def State.poolBits (s : State) (c at' : Nat) (m : Mem) : Mem :=
  let k := s.core c
  let offs := (fullIn s.full (poolAt c 0) (partScratch k.partw.toNat * 2048)).map (fun w => 8 * w)
  let tags := (k.chanPlaces.filter (fun (x : Nat × ChanWord) => x.2.tag)).map (fun x => x.1)
  setBits at' m ((offs ++ tags).map (fun o => bankOffset k.partw.toNat o / 8))

/-- One core's 96 KiB of pool (R82, R403): frames, accumulator rows, scratchpad, channel region; `keep` says which frames show. -/
def State.poolBytes (s : State) (c at' : Nat) (keep : Slot → Bool) (m : Mem) : Mem :=
  let k := s.core c
  let m := (List.range k.frames).foldl (fun m f => if keep (k.slot f) then (k.slot f).frameBytes m (at' + 4096 * f) else m) m
  let m := k.acc.foldl (fun m e =>
    Mem.writeN m (at' + (2 * k.frames + e.1 / 32) * 2048 + e.1 % 32 * 64) 64 e.2.lanes.toNat) m
  let m := Mem.overlay m (s.mem.moved (poolAt c 0) (partScratch k.partw.toNat * 2048) (fun o => at' + bankOffset k.partw.toNat o))
  k.channelBytes m at'

/-- PERF counter a of a core, 0 to 6 (R313). Counter 6 is a firing's: in a section it is that of the slot that issued last (DESIGN CHOICE,
log 107). -/
def State.perfOf (s : State) (k : Core) (a : Nat) : Word :=
  if a = 5 then word (s.clock - k.clockBase) else if a = 6 then word (k.slot k.lastSlot).count else Tab.get 0 k.perf a

/-- A core's state at its place in a section (R403); the parts that the manual leaves to the device are laid out one after the
other, 16 words of partial commands at most (DESIGN CHOICE, log 107). -/
def State.coreBytes (s : State) (c at' : Nat) (m : Mem) : Mem :=
  let k := s.core c
  let m := (List.range 32).foldl (fun m h =>
    let e := k.handler h
    Mem.words m (at' + 32 * h) [e.w0.toNat, e.w1.toNat, e.w2.toNat, e.w3.toNat]) m
  let m := Mem.words m (at' + 0x400) (k.tasks.flatMap (fun t => [t.handler * 2 ^ 16 + t.launch, t.word.toNat]))
  let m := Mem.words m (at' + 0x600) ((k.ring4.take 16).map (·.word.toNat))
  let m := Mem.words m (at' + 0x680) ((k.ring5.take 16).map (·.word.toNat))
  let m := Mem.words m (at' + 0x700) ((k.completions.take 16).map (·.word.toNat))
  let m := Mem.words m (at' + 0x780) (((k.slots.flatMap (fun x => x.2.cmd)).take 16).map (·.toNat))
  let m := Mem.words m (at' + 0x800) (k.recalls.map (·.handle.toNat))
  let m := Mem.words m (at' + 0x840) [k.seed.toNat, (k.gang.map (·.token.toNat)).getD 0]
  let m := Mem.words m (at' + 0x850) ((List.range 8).map (fun i => ((k.slot i).wake).getD 0))
  Mem.words m (at' + 0x890) ((List.range 7).map (fun a => (s.perfOf k a).toNat))

/-- The NI state of a cluster (R404): journals, warren entries, channel words on their way; the bytes written. -/
def State.niBytes (s : State) (cl at' : Nat) (m : Mem) : Mem × Nat :=
  let k := s.cluster cl
  let m := (coresOf cl).foldl (fun m c => ((s.core c).journal).foldl (fun m e =>
    if e.2.inUse then
      let a := at' + 0x40 + 4096 * (c % 8) + 128 * e.1
      Mem.writeN (Mem.words m a [e.2.status, e.2.addr.toNat]) (a + 16) 64 e.2.data.toNat
    else m) m) m
  let m := (List.range k.warren.length).foldl (fun m i =>
    match k.warren[i]? with
    | some e => Mem.words m (at' + 0x8040 + 128 * i)
        (e.msg.words.map (·.toNat) ++ [e.meets * 2 ^ 16 + boolNat e.pending * 2 ^ 8 + (e.holdEnd - s.fabric) % 256])
    | none => m) m
  let outs := (coresOf cl).flatMap (fun c => ((s.core c).outReq.map (fun w => (w, 0))) ++ ((s.core c).outRep.map (fun w => (w, 1))))
  let m := (List.range outs.length).foldl (fun m j =>
    match outs[j]? with
    | some (w, net) => Mem.words m (at' + 0xC040 + 16 * j) [w.dest.toNat + 2 * net + boolNat w.tag, w.word.toNat]
    | none => m) m
  let total := 0xC040 + 16 * outs.length
  (Mem.words m at' [k.warren.length * 2 ^ 16 + outs.length, total], total)

/-- The first piece, element or list of a job that has not started (R401): of a posted buffer, by the bytes that have come. -/
def Job.resumeIndex (j : Job) : Nat :=
  if j.opcode = 0xC0 ∨ j.opcode = 0xC1 then ((List.range 64).find? (fun ch => !j.landed.contains ch)).getD 64
  else if j.opcode = 0xAD then j.next / 8
  else j.next

/-- A replay entry (R401): an `EMSG`'s run begins with its engine address and header. -/
def Job.replayWords (j : Job) : List Nat :=
  [j.modf * 2 ^ 16 + j.slot * 2 ^ 11 + j.core % 8 * 2 ^ 8 + j.opcode, j.barAddr.toNat, j.resumeIndex, j.arrived] ++
    (j.via ++ j.run).map (·.toNat)

/-- A cluster section (R403) at an address. -/
def State.sectionBytes (s : State) (cl at' : Nat) (keep : Slot → Bool) (jobs : List Job) (m : Mem) : Mem :=
  let m := (coresOf cl).foldl (fun m c => s.poolBytes c (at' + 96 * 1024 * (c % 8)) keep m) m
  let m := Mem.overlay m (s.mem.moved (storeAt cl 0) 524288 (fun o => at' + 0xC0000 + o))
  let m := (coresOf cl).foldl (fun m c => s.coreBytes c (at' + 0x140000 + 4096 * (c % 8)) m) m
  let m := (coresOf cl).foldl (fun m c => s.poolBits c (at' + 0x148000 + 2048 * (c % 8)) m) m
  let m := setBits (at' + 0x14C000) m (fullIn s.full (storeAt cl 0) 524288)
  let m := (s.niBytes cl (at' + 0x150000) m).1
  (List.range (min jobs.length 512)).foldl (fun m i =>
    Mem.words m (at' + 0x1F0000 + 128 * i) ((jobs[i]?.map Job.replayWords).getD [])) m

end Sys2Proof.Machine
end

