-- ==== Sys2Proof/Machine/Contexts.lean ====
section
/-! DEFINITION. Cores and clusters of contexts that are not resident: what their buffers give back (R403 to R405), and operations on a
launch's cores and clusters wherever its context is (R406). -/

namespace Sys2Proof.Machine

/-- Change a core, or a cluster, of a saved context. -/
def State.modSavedCore (s : State) (e : Nat) (x : SavedCtx) (c : Nat) (f : Core → Core) : State :=
  { s with saved := Tab.set s.saved e { x with cores := Tab.set x.cores c (f (Tab.get Core.initial x.cores c)) } }
def State.modSavedCluster (s : State) (e : Nat) (x : SavedCtx) (cl : Nat) (f : Cluster → Cluster) : State :=
  { s with saved := Tab.set s.saved e { x with clusters := Tab.set x.clusters cl (f (Tab.get Cluster.initial x.clusters cl)) } }

/-- Change a core's state for a launch: in its saved context where that is not resident. -/
def State.modCoreOf (s : State) (l c : Nat) (f : Core → Core) : State :=
  match (s.launch? l).bind (fun x => s.away x (clusterOf c)) with
  | some (e, x) => s.modSavedCore e x c f
  | none => s.modCore c f

/-- Bytes of a core's scratchpad below its channel region back from its section, and its words' bits. -/
def State.loadPool (s : State) (c partw region sec : Nat) : State :=
  let p := poolAt c 0
  let at' := sec + 96 * 1024 * (c % 8)
  let n := partScratch partw * 2048 - region
  let m := (List.range (n / 8)).foldl (fun m i => Mem.writeN m (p + 8 * i) 8 (Mem.readN s.mem (at' + bankOffset partw (8 * i)) 8)) (s.mem.zero p 98304)
  let bits := (List.range (n / 8)).filter (fun w => let i := bankOffset partw (8 * w) / 8; ((s.mem.read (sec + 0x148000 + 2048 * (c % 8) + i / 8)).toNat).testBit (i % 8))
  { s with mem := m, full := bits.foldl (fun l w => Full.add l (p / 8 + w)) (s.full.filter (fun w => decide (8 * w < p) || decide (p + 98304 ≤ 8 * w))) }

/-- Bytes of a cluster's store back from its section, and its words' bits. -/
def State.loadStore (s : State) (cl sec : Nat) : State :=
  let p := storeAt cl 0
  let bits := (List.range 65536).filter (fun w => ((s.mem.read (sec + 0x14C000 + w / 8)).toNat).testBit (w % 8))
  { s with
    mem := Mem.overlay (s.mem.zero p 524288) (s.mem.moved (sec + 0xC0000) 524288 (fun o => p + o))
    full := bits.foldl (fun l w => Full.add l (p / 8 + w)) (s.full.filter (fun w => decide (8 * w < p) || decide (p + 524288 ≤ 8 * w))) }

/-- What stays with a core when contexts change: the privileged frame and registers, counters, and its own invalidations. -/
def Core.keep (k x : Core) : Core :=
  { k with
    slots := k.slots.filter (fun e => e.1 < 8) ++ x.slots.filter (fun e => e.1 == 8)
    intcause := x.intcause
    ctxbase := x.ctxbase
    spillbase := x.spillbase
    permbase := x.permbase
    featallow := x.featallow
    tenant := x.tenant
    reflimit := x.reflimit
    finlimit := x.finlimit
    holdlimit := x.holdlimit
    perfsel := x.perfsel
    clockBase := x.clockBase
    halted := x.halted
    debugHalt := x.debugHalt
    restoring := x.restoring
    niinvs := x.niinvs }

/-! ### Back from a section (R399, R403 to R405) -/

/-- A saved slot with what its frame holds (R85, R399). -/
def Slot.refill (x : Slot) (m : Mem) (a : Nat) : Slot :=
  let y := Slot.ofFrame m a
  { x with
    g := y.g
    v := y.v
    w := y.w
    m := y.m
    p := y.p
    pc := y.pc
    launch := y.launch
    count := y.count
    depth := y.depth
    inTrap := y.inTrap
    light := y.light
    handler := y.handler
    kind := y.kind }

/-- Entries of a list with what n words from an address give each. -/
def refillList (m : Mem) (a n : Nat) (f : α → (Nat → Word) → α) (xs : List α) : List α :=
  xs.mapIdx (fun i x => f x (fun j => m.word (a + 8 * (n * i + j))))

/-- A core of a saved context with what its section holds (R403); a channel's words beyond its slots (R251) have no place there. -/
def Core.refill (k : Core) (m : Mem) (sec c : Nat) : Core :=
  let pool := sec + 96 * 1024 * (c % 8)
  let at' := sec + 0x140000 + 4096 * (c % 8)
  let pw := k.partw.toNat
  let full := fun (o : Nat) => let i := bankOffset pw o / 8; ((m.read (sec + 0x148000 + 2048 * (c % 8) + i / 8)).toNat).testBit (i % 8)
  let slot := fun (n : Nat) (x : Slot) =>
    { x.refill m (pool + 4096 * n) with wake := x.wake.map (fun _ => (m.word (at' + 0x850 + 8 * n)).toNat) }
  let row := fun (r : Nat) => BitVec.ofNat 512 (m.readN (pool + (2 * k.frames + r / 32) * 2048 + r % 32 * 64) 64)
  let word' := fun (w : QWord) (f : Nat → Word) => ({ w with word := f 0 } : QWord)
  { k with
    slots := k.slots.map (fun e => (e.1, if e.1 < k.frames ∧ e.2.live = true then
        slot e.1 e.2 else e.2))
    acc := k.acc.map (fun e => (e.1, { e.2 with lanes := row e.1 }))
    channels := k.chanMap.foldl (fun ws x =>
      (ws.foldl (fun (o : List ChanWord × Nat) w =>
        if w.handler == x.1 && w.chan == x.2.1 && decide (o.2 < x.2.2.1) then
          (o.1 ++ [{ w with word := m.word (pool + bankOffset pw (x.2.2.2 + 8 * o.2)), tag := full (x.2.2.2 + 8 * o.2) }], o.2 + 1)
        else (o.1 ++ [w], o.2)) ([], 0)).1) k.channels
    handlers := k.handlers.map (fun e =>
      let a := at' + 32 * e.1
      (e.1, ⟨m.word a, m.word (a + 8), m.word (a + 16), m.word (a + 24)⟩))
    tasks := refillList m (at' + 0x400) 2 (fun t f => { t with handler := bitsOf (f 0).toNat 20 16, word := f 1 }) k.tasks
    ring4 := refillList m (at' + 0x600) 1 word' k.ring4
    ring5 := refillList m (at' + 0x680) 1 word' k.ring5
    completions := refillList m (at' + 0x700) 1 word' k.completions
    seed := (m.word (at' + 0x840)).setWidth 32
    gang := k.gang.map (fun g => { g with token := m.word (at' + 0x848) })
    perf := k.perf.map (fun e => (e.1, m.word (at' + 0x890 + 8 * e.1)))
    journal := k.journal.map (fun e =>
      let a := sec + 0x150040 + 4096 * (c % 8) + 128 * e.1
      let st := (m.word a).toNat
      (e.1, if e.2.inUse then
        { inUse := bitOf st 0
          refused := bitOf st 1
          pc := word (bitsOf st 63 32)
          launch := bitsOf st 27 16
          len := bitsOf st 15 8
          addr := m.word (a + 8)
          data := BitVec.ofNat 512 (m.readN (a + 16) 64) } else e.2)) }

/-- A walker message from its eight words (R61). -/
def Walker.ofWords (seen : Seen) (f : Nat → Word) : Walker where
  depth := bitsOf (f 0).toNat 63 53
  handler := bitsOf (f 0).toNat 52 48
  key := bitsOf (f 0).toNat 47 0
  launch := bitsOf (f 1).toNat 19 8
  block := bitsOf (f 1).toNat 7 0
  members := f 5 ++ f 4 ++ f 3 ++ f 2
  carry6 := f 6
  carry7 := f 7
  seen := seen

/-- The warren of a saved cluster with what its NI state holds; the rest of a hold counts from 0 (R404). -/
def Cluster.refill (k : Cluster) (m : Mem) (sec : Nat) : Cluster :=
  { k with warren := refillList m (sec + 0x158040) 16 (fun e f =>
      let w := (f 8).toNat
      { e with msg := Walker.ofWords e.msg.seen f, holdEnd := bitsOf w 7 0, pending := bitOf w 8, meets := bitsOf w 31 16 }) k.warren }

/-- The words on their way from a cluster's cores, as its NI state holds them (R404): core by core, requests first. -/
def refillOut (m : Mem) (sec : Nat) (cs : List (Nat × Core)) : List (Nat × Core) :=
  (cs.foldl (fun (o : List (Nat × Core) × Nat) e =>
    let one := fun (base : Nat) (w : List OutWord) => refillList m (sec + 0x15C040 + 16 * base) 2 (fun (x : OutWord) f =>
      { x with dest := f 0 &&& ~~~ (3 : Word), tag := (f 0).getLsbD 0, word := f 1 }) w
    let n := e.2.outReq.length
    (o.1 ++ [(e.1, { e.2 with outReq := one o.2 e.2.outReq, outRep := one (o.2 + n) e.2.outRep })], o.2 + n + e.2.outRep.length))
    ([], 0)).1

/-! ### In and out of place -/

/-- The section of a cluster in the buffer of a context entry. -/
def State.sectionOf (s : State) (t e cl : Nat) : Nat := sectionAt (s.entryWord e 2) (ctxFirst (s.ctx t)) cl

/-- Where a word of a cluster's pools or store stands in its section, and the word of which a section's word is the image (R82, R403). -/
def State.toSection (s : State) (cl sec a : Nat) : Option Nat :=
  let c := coreOfAddr a
  if !isLocal a || clusterOfAddr a != cl then none
  else if storeSide a then some (sec + 0xC0000 + offOfAddr a)
  else some (sec + 96 * 1024 * (c % 8) + bankOffset (s.core c).partw.toNat (offOfAddr a))
def State.fromSection (s : State) (cl sec a : Nat) : Option Nat :=
  let o := a - sec
  let c := 8 * cl + o / 98304
  let pw := (s.core c).partw.toNat
  let bank := o % 98304 / 2048 - (2 * partFrames pw + partAcc pw)
  if a < sec ∨ 0xC0000 + 524288 ≤ o then none
  else if 0xC0000 ≤ o then some (storeAt cl (o - 0xC0000))
  else some (poolAt c (8 * (o % 2048 / 8 * partScratch pw + bank) + o % 8))

/-- Are they bytes of the pools or store of one of some clusters? -/
def inClusters (cls : List Nat) (a : Nat) : Bool := isLocal a && cls.contains (clusterOfAddr a)
/-- What the words there held is over. -/
def State.clearOrder (s : State) (cls : List Nat) : State :=
  { s with syncs := s.syncs.filter (fun n => !inClusters cls n.1), barriers := s.barriers.filter (fun n => !inClusters cls n.1) }

/-- The releases and arrivals of words move with them (R118): `f` says where a word goes. -/
def moveKeys (f : Nat → Option Nat) (t : Tab α) : Tab α :=
  t.foldl (fun t e => match f e.1 with | some k => Tab.set (Tab.erase t e.1) k e.2 | none => t) t
def State.moveOrder (s : State) (f : Nat → Option Nat) : State := { s with syncs := moveKeys f s.syncs, barriers := moveKeys f s.barriers }

/-- The posted buffers of an entry's launches that a message has begun to fill: they are recorded for replay, and stay where messages reach
them (R401, R406). -/
def State.openBuffers (s : State) (e : Nat) : List Job :=
  s.jobs.filter (fun j => j.opcode == 0xAD && !j.unfilled && (match s.launch? j.launch with | some l => l.context == some e | none => false))

/-- A cluster's bytes go into its section (R403). -/
def State.writeSection (s : State) (t e cl : Nat) (js : List Job) : State :=
  let sec := s.sectionOf t e cl
  let js := js ++ s.openBuffers e
  let image := s.sectionBytes cl 0 (fun y => y.live) (js.filter (fun j => clusterOf j.core == cl && j.journal.isNone)) []
  ({ s with mem := Mem.overlay (s.mem.zero sec 0x200000) (image.map (fun b => (sec + b.1, b.2))) } : State).moveOrder (s.toSection cl sec)

/-- Words of an input channel of a saved core stand in its saved channel region, their tags among the bits (R45, R406). -/
def State.writeChannel (s : State) (t e c h ch : Nat) (k : Core) : State :=
  let sec := s.sectionOf t e (clusterOf c)
  let pool := sec + 96 * 1024 * (c % 8)
  (k.chanPlaces.filter (fun x => x.2.handler == h && x.2.chan == ch)).foldl (fun s x =>
    let o := bankOffset k.partw.toNat x.1
    let bb := sec + 0x148000 + 2048 * (c % 8) + o / 64
    let s := s.poke (pool + o) 8 x.2.word.toNat
    s.poke bb 1 (withBits (s.bytes bb 1) (o / 8 % 8) (o / 8 % 8) (boolNat x.2.tag))) s

/-- The words at k6 of a saved core stand in its saved state (R403, R406). -/
def State.writeCompletions (s : State) (t e c : Nat) (k : Core) : State :=
  let at' := s.sectionOf t e (clusterOf c) + 0x140000 + 4096 * (c % 8)
  { s with mem := Mem.words s.mem (at' + 0x700) ((k.completions.take 16).map (·.word.toNat)) }

/-- A cluster as it is saved: its setts saved, the rest of each hold (R68, R132). A sett that is Finishing stays so (DESIGN CHOICE, log
152). The device's own requests stay with the cluster in place: they wait (R133). -/
def Cluster.saved (k : Cluster) (now : Nat) : Cluster :=
  { k with
    requests := []
    setts := k.setts.map (fun z => if z.st = .current then { z with st := .saved } else z)
    warren := k.warren.map (fun w => { w with holdEnd := w.holdEnd - now, fresh := [] }) }
def Cluster.unsaved (k : Cluster) (now : Nat) : Cluster :=
  { k with
    setts := k.setts.map (fun z => if z.st = .saved then { z with st := .current } else z)
    warren := k.warren.map (fun w => { w with holdEnd := now + w.holdEnd }) }

/-- A saved cluster stands in place again: pools, stores and bits from its section, and the rest with what the section holds (R403 to
R405); `keep` gives what stays with a core. -/
def State.bringIn (s : State) (t e cl : Nat) (x : SavedCtx) (keep : Core → Core → Core) : State :=
  let sec := s.sectionOf t e cl
  let cs := refillOut s.mem sec ((coresOf cl).map (fun c => (c, (Tab.get Core.initial x.cores c).refill s.mem sec c)))
  let s := cs.foldl (fun (s : State) (y : Nat × Core) =>
    (s.loadPool y.1 y.2.partw.toNat (channelRegion y.2.handlers) sec).modCore y.1 (keep y.2)) s
  let s := (s.clearOrder [cl]).moveOrder (s.fromSection cl sec)
  let k := (Tab.get Cluster.initial x.clusters cl).refill s.mem sec
  (s.loadStore cl sec).modCluster cl (fun y => { k.unsaved s.fabric with
    acquisitions := max k.acquisitions y.acquisitions
    requests := y.requests
    tenant := some t
    context := some e
    bucket := y.bucket })

/-- Do something where a launch's cores and clusters are: in place, or, where its context is saved, on them as brought in for it, after
which they are saved anew and what stood there stands again. -/
def State.onContext (s : State) (l : Launch) (f : State → State) : State :=
  match s.away l l.base with
  | none => f s
  | some (e, x) =>
    let cls := Tab.keys x.clusters
    let stays := fun (n : Nat × List Release) => inClusters cls n.1
    let stays' := fun (n : Nat × Arrivals) => inClusters cls n.1
    let t := f (cls.foldl (fun s cl => s.bringIn l.tenant e cl x (fun k _ => k)) s)
    let js := ((Tab.find t.saved e).map (·.jobs)).getD x.jobs
    let t := cls.foldl (fun s cl => s.writeSection l.tenant e cl js) t
    let saved : SavedCtx := { x with
      jobs := js
      cores := x.cores.map (fun y => (y.1, t.core y.1))
      clusters := x.clusters.map (fun y => (y.1, (t.cluster y.1).saved t.fabric)) }
    let mine := fun (w : Nat) => inClusters cls (8 * w)
    { t with
      saved := Tab.set t.saved e saved
      syncs := (s.syncs.filter stays).foldl (fun b n => Tab.set b n.1 n.2) t.syncs
      barriers := (s.barriers.filter stays').foldl (fun b n => Tab.set b n.1 n.2) t.barriers
      cores := (Tab.keys x.cores).foldl (fun tab c => match Tab.find s.cores c with | some k => Tab.set tab c k | none => Tab.erase tab c) t.cores
      clusters := cls.foldl (fun tab c => match Tab.find s.clusters c with
        | some k => Tab.set tab c { k with requests := (t.cluster c).requests }
        | none => Tab.erase tab c) t.clusters
      mem := Mem.overlay (t.mem.filter (fun b => !inClusters cls b.1)) (s.mem.filter (fun b => inClusters cls b.1))
      full := (s.full.filter mine).foldl Full.add (t.full.filter (fun w => !mine w)) }

end Sys2Proof.Machine
end

