-- ==== Sys2Proof/Machine/Launches.lean ====
section
/-! DEFINITION. Channel words and mirrors, pending firings and firing rules, the end of a firing, walkers and warrens, setts and
recalls, and the ends of launches (spec 02, 03, 06, 07, 12). -/

namespace Sys2Proof.Machine

/-! ### Counters (R313, R342) -/

/-- Count n events of a code in the counters 0 to 3 that select it. -/
def Core.bump (k : Core) (code n : Nat) : Core :=
  { k with perf := [0, 1, 2, 3].foldl (fun t i =>
      if Tab.get 0 k.perfsel i = word code ∧ code ≠ 0 then Tab.set t i (Tab.get 0 t i + word n) else t) k.perf }

/-! ### Channels, mirrors and ring words -/

/-- A destination channel's key in a mirror. -/
def destKey (c h ch : Nat) : Nat := 128 * c + 4 * h + ch

/-- The destination core of an output channel of core c for a launch (R32). -/
def Launch.destCore (l : Launch) (c : Nat) : Nat :=
  let i := clusterOf c - l.base
  8 * (l.base + (i + l.size / l.stages) % l.size) + c % 8
/-- The core whose output channel leads to core c (R32). -/
def Launch.srcCore (l : Launch) (c : Nat) : Nat :=
  let i := clusterOf c - l.base
  8 * (l.base + (i + l.size - l.size / l.stages) % l.size) + c % 8

/-- Free slots of a destination channel as core c's mirror shows them (R47). -/
def State.mirrorFree (s : State) (c key slots : Nat) : Nat := slots - Tab.get 0 (s.core c).mirrors key
def State.takeMirror (s : State) (c key n : Nat) : State :=
  s.modCore c (fun k => { k with mirrors := Tab.set k.mirrors key (Tab.get 0 k.mirrors key + n) })
def State.giveMirror (s : State) (c key n : Nat) : State :=
  s.modCore c (fun k => { k with mirrors := Tab.set k.mirrors key (Tab.get 0 k.mirrors key - n) })

/-- Key and slot count of the destination of output channel j of handler h on core c, for a launch. -/
def State.outDest (s : State) (c : Nat) (l : Launch) (h j : Nat) : Option (Nat × Nat × Nat × Nat) :=
  let d := ((s.core c).handler h).output j
  if !outPresent d then none
  else
    let dc := l.destCore c
    some (dc, outHandler d, outInput d, inSlots (((s.core c).handler (outHandler d)).input (outInput d)))

/-- A word of an input channel left it, read or discarded: its slot goes back to the sender's mirror, or turned-back words may be
offered again (R47, R251). -/
def State.freedWord (s : State) (c : Nat) (w : ChanWord) : State :=
  let key := destKey c w.handler w.chan
  let s := if w.credited then
      match s.launch? w.launch with
      | some l =>
        let src := l.srcCore c
        (s.modCore src (fun k => { k with returns := k.returns ++ [key] })).post (.freeSlotReturn src key)
      | none => s
    else s
  let dest := chanAddr c w.handler w.chan
  s.cores.foldl (fun s e =>
    let s := if e.2.outReq.any (fun x => x.turned && x.dest == dest) then s.post (.wordReoffer e.1 0) else s
    if e.2.outRep.any (fun x => x.turned && x.dest == dest) then s.post (.wordReoffer e.1 1) else s) s

/-! ### Pending firings (R36, R43, R46) -/

def State.addPending (s : State) (c : Nat) (src : Source) (h l : Nat) : State :=
  let s := s.modCore c (fun k => { k with pending := k.pending ++ [⟨src, h, l, s.now, s.serial, 0, 0⟩] })
  { s.post (.firingStart c) with serial := s.serial + 1 }

/-- Is a launch past its deadline on a core, or ending? -/
def State.stopped (s : State) (c l : Nat) : Bool :=
  (s.core c).expired.contains l || (match s.launch? l with | some x => x.phase != .running && x.phase != .wrapping | none => true)

/-- Is a core past a launch's deadline and yet to act on it (R141)? -/
def State.overdue (s : State) (c l : Nat) : Bool :=
  match s.launch? l with
  | some x => x.deadline != 0 && decide (x.deadline ≤ s.now) && !(s.core c).expired.contains l
  | none => false

/-- What is left of a launch's wall budget, and whether it has run out (R143). -/
def Launch.wallLeft (l : Launch) : Nat := l.wallNs - l.wallUsed
def State.wallOver (s : State) (l : Launch) : Bool :=
  match l.wrapStart with
  | some t => l.phase == .wrapping && decide (t + l.wallLeft ≤ s.now)
  | none => false

/-- What a channel firing takes (R38, R46): words of its launch on an input channel, or free slots of a destination channel in the
mirror. -/
inductive Stock where
  | words (h ch l : Nat)
  | slots (key size : Nat)
  deriving DecidableEq, Repr

/-- What a firing of handler h takes for a launch, and how much of it. -/
def State.needs (s : State) (c h : Nat) (l : Launch) : List (Stock × Nat) :=
  let e := (s.core c).handler h
  (List.range e.inputs).map (fun j => (.words h j l.number, max 1 (inRate (e.input j)))) ++
    [4, 5].filterMap (fun j => (s.outDest c l h j).map (fun x => (.slots (destKey x.1 x.2.1 x.2.2.1) x.2.2.2, max 1 (outRate (e.output j)))))

/-- May a firing take a word: one of its launch on the channel, not reserved? -/
def ChanWord.openTo (w : ChanWord) (h ch l : Nat) : Bool := w.handler == h && w.chan == ch && w.launch == l && w.resv == none

/-- How much of it a core has, not yet reserved. -/
def State.stock (s : State) (c : Nat) : Stock → Nat
  | .words h ch l => ((s.core c).channels.filter (fun w => w.openTo h ch l)).length
  | .slots key n => s.mirrorFree c key n

/-- How much of it a list of claims takes. -/
def claimed (xs : List (Stock × Nat)) (x : Stock) : Nat := (xs.filter (fun y => y.1 == x)).foldl (fun n y => n + y.2) 0

/-- Is there enough for a firing beside what pending firings have claimed? -/
def State.fits (s : State) (c : Nat) (taken need : List (Stock × Nat)) : Bool :=
  need.all (fun x => decide (claimed taken x.1 + claimed need x.1 ≤ s.stock c x.1))

/-- The pending channel firings that still find what they rest on, the oldest first, with what they claim. One that finds it taken, as by
a running firing's reads or sends beyond its reservation, is pending no more (DESIGN CHOICE, log 100). -/
def State.keepFirings (s : State) (c : Nat) : List (Stock × Nat) → List Pending → List Pending × List (Stock × Nat)
  | taken, [] => ([], taken)
  | taken, p :: ps =>
    if p.source = .channel then
      match s.launch? p.launch with
      | some l =>
        if !s.stopped c p.launch && s.fits c taken (s.needs c p.handler l) then
          let r := s.keepFirings c (taken ++ s.needs c p.handler l) ps
          (p :: r.1, r.2)
        else s.keepFirings c taken ps
      | none => s.keepFirings c taken ps
    else
      let r := s.keepFirings c taken ps
      (p :: r.1, r.2)

/-- The place, among a core's words, of the first word that a firing takes. -/
def State.firstTaken (s : State) (c : Nat) (taken need : List (Stock × Nat)) : Nat :=
  let ws := (s.core c).channels
  need.foldl (fun m x => match x.1 with
    | .words h ch l =>
      min m (((List.range ws.length).filter (fun i => match ws[i]? with | some w => w.openTo h ch l | none => false)).getD (claimed taken x.1) m)
    | .slots _ _ => m) ws.length

/-- The firings of one handler that the rules of its launches make more (R46), in the order of the words that they take (R43). -/
def State.addFirings (c h : Nat) (ls : List Launch) : Nat → State → List (Stock × Nat) → State × List (Stock × Nat)
  | 0, s, taken => (s, taken)
  | n + 1, s, taken =>
    let ready := ls.filter (fun l => !s.stopped c l.number && s.fits c taken (s.needs c h l))
    let first := fun (l : Launch) => s.firstTaken c taken (s.needs c h l)
    match ready.foldl (fun (b : Option Launch) l => match b with
        | none => some l
        | some x => if first l < first x then some l else b) none with
    | none => (s, taken)
    | some l => State.addFirings c h ls n (s.addPending c .channel h l.number) (taken ++ s.needs c h l)

/-- Evaluate every firing rule of a core (R46), in order of handler index (R43). -/
def State.evalRules (s : State) (c : Nat) : State :=
  let k := s.core c
  let ls := (s.launches.filter (fun e => e.2.inField (clusterOf c) && k.image == some e.2.image)).map (·.2)
  let o := s.keepFirings c [] k.pending
  let s := if o.1 = k.pending then s else s.modCore c (fun k => { k with pending := o.1 })
  (k.handlers.foldl (fun (o : State × List (Stock × Nat)) e =>
    if e.2.inputs = 0 ∨ e.2.kindBits > 1 then o else State.addFirings c e.1 ls k.channels.length o.1 o.2) (s, o.2)).1

/-- A pending firing stands for the entry at the head of the task queue (R36, R257). -/
def State.taskHead (s : State) (c : Nat) : State :=
  let k := s.core c
  let isSpawn := fun (p : Pending) => match p.source with | .spawn _ => true | _ => false
  match k.tasks with
  | t :: _ => if k.pending.any isSpawn then s else s.addPending c (.spawn t.word) t.handler t.launch
  | [] => s

/-! ### Grains (R55, R56) -/

def dieOf (cl : Nat) : Nat := cl / 512
def Launch.grain (l : Launch) : Nat :=
  let g := bitsOf (l.w 11) 31 0
  if g = 0 then max 1 ((l.w 9 - l.w 8 + 8 * l.size - 1) / (8 * l.size)) else g
def Launch.grains (l : Launch) : Nat := (l.w 9 - l.w 8 + l.grain - 1) / l.grain
/-- The byte or item range of grain i. -/
def Launch.grainAt (l : Launch) (i : Nat) : Nat × Nat := (l.w 8 + i * l.grain, min (l.w 9) (l.w 8 + (i + 1) * l.grain))
def Launch.left (l : Launch) (d : Nat) : Nat := let r := Tab.get (0, 0) l.ranges d; r.2 - r.1

/-- A dry die takes the upper half of the richest die's grains, the lowest-numbered on a tie (R56). -/
def Launch.steal (l : Launch) (d : Nat) : Launch :=
  if l.left d > 0 then l
  else
    let rich := l.ranges.foldl (fun (b : Nat × Nat) e => if l.left e.1 > b.2 then (e.1, l.left e.1) else b) (d, 1)
    if rich.2 ≤ 1 then l
    else
      let r := Tab.get (0, 0) l.ranges rich.1
      let take := rich.2 / 2
      { l with ranges := Tab.set (Tab.set l.ranges rich.1 (r.1, r.2 - take)) d (r.2 - take, r.2) }

/-- The next grain of a core's die, stealing where it is dry (R56). -/
def Launch.nextGrain (l : Launch) (cl : Nat) : Option (Nat × Nat) × Launch :=
  let d := dieOf cl
  let l := l.steal d
  let r := Tab.get (0, 0) l.ranges d
  if r.1 < r.2 then (some (l.grainAt r.1), { l with ranges := Tab.set l.ranges d (r.1 + 1, r.2) }) else (none, l)

/-! ### Walkers and warrens (R61 to R71) -/

/-- hash64(x, s) of R201. -/
def hash64 (x sd : Word) : Word :=
  let h := x ^^^ (sd * 0x9E3779B97F4A7C15)
  let h := (h ^^^ (h >>> 30)) * 0xBF58476D1CE4E5B9
  let h := (h ^^^ (h >>> 27)) * 0x94D049BB133111EB
  h ^^^ (h >>> 31)

/-- The owner core of a key in a field (R63). -/
def ownerCore (key seed : Word) (base size : Nat) : Nat :=
  let h := hash64 key seed
  let x := (bitsOf h.toNat 63 32 * 8 * size) / 2 ^ 32
  8 * base + x

def umin (a b : Word) : Word := if a ≤ b then a else b
def umax (a b : Word) : Word := if a ≤ b then b else a
def carryMerge (rule : Nat) (a b : Word) : Word := if rule = 1 then umin a b else if rule = 2 then umax a b else a

/-- The key of R65. -/
def Walker.sameKey (a b : Walker) : Bool := a.launch == b.launch && a.handler == b.handler && a.block == b.block && a.key == b.key

/-- R66 on an entry that stands. -/
def WarrenEntry.merge (e : WarrenEntry) (h : Handler) (m : Walker) : WarrenEntry :=
  { e with
    msg := { e.msg with
      members := e.msg.members ||| m.members
      carry6 := carryMerge (h.carryRule true) e.msg.carry6 m.carry6
      carry7 := carryMerge (h.carryRule false) e.msg.carry7 m.carry7
      seen := seenJoin e.msg.seen m.seen }
    meets := min (e.meets + 1) 65535
    count := e.count + 1 }

/-- A message merges in fabric clock `now`: what the entry held before the messages of that clock is kept, and they are (R69). -/
def WarrenEntry.meet (e : WarrenEntry) (now : Nat) (h : Handler) (m : Walker) : WarrenEntry :=
  let earlier := if e.freshAt = now then e.fresh else []
  { e.merge h m with
    freshAt := now
    fresh := earlier ++ [m]
    old := if earlier = [] then (e.msg, e.meets, e.count) else e.old }

/-- The entry as it stood before the messages of fabric clock `now`, and those messages (R69). -/
def WarrenEntry.asOf (e : WarrenEntry) (now : Nat) : WarrenEntry :=
  if e.freshAt = now ∧ e.fresh ≠ [] then { e with msg := e.old.1, meets := e.old.2.1, count := e.old.2.2, fresh := [] } else e
def WarrenEntry.late (e : WarrenEntry) (now : Nat) : List Walker := if e.freshAt = now then e.fresh else []

/-- The seed of a launch's owners: word 10 of a walk launch, and 0 otherwise (R53, R63). -/
def Launch.hashSeed (l : Launch) : Word := if l.kind = 2 then l.msg.getD 10 0 else 0

/-- How many overflow messages the overflow granules of a cluster hold: 128 to a granule. -/
def Cluster.overflowGranules (k : Cluster) : List Nat := (k.granules.filter (fun e => e.2 == .overflow)).map (·.1)
def Cluster.freeGranules (k : Cluster) : List Nat :=
  (List.range 64).filter (fun g => Tab.get .free k.granules g == .free)

/-- Give back overflow granules that hold no message (R70). -/
def Cluster.trimOverflow (k : Cluster) : Cluster :=
  let empty := k.overflowGranules.filter (fun g => !k.overflow.any (fun x => x.granule == g))
  { k with granules := empty.foldl (fun t g => Tab.set t g .free) k.granules }

/-- The granule that the next overflow message goes to: the newest message's, while it holds fewer than 128, else the lowest free one
(R70; log 101). -/
def Cluster.overflowSpace (k : Cluster) : Option Nat :=
  match k.overflow.getLast? with
  | some x => if (k.overflow.filter (fun y => y.granule == x.granule)).length < 128 then some x.granule else k.freeGranules.head?
  | none => k.freeGranules.head?

def spillCap : Nat := 131071

def State.spillCount (s : State) (cl l : Nat) : Nat := ((s.cluster cl).spill.filter (fun w => w.msg.launch == l)).length

/-- The spill area's address (R407): SPILLBASE, the launch's area, and an offset in it. -/
def State.areaAddr (s : State) (l : Launch) (off : Nat) : Word :=
  (s.coreIn (s.away l l.base) (8 * l.base)).spillbase + word (l.area * (36 * 2 ^ 30) + off)
def spillQueueOff (i : Nat) : Nat := 16 * 2 ^ 30 + 8 * 2 ^ 20 * i
def settSlotOff (i x : Nat) : Nat := 524288 * (16 * i + x)
def imageOff (i : Nat) : Nat := 32 * 2 ^ 30 + 2 * 2 ^ 20 * i

/-- The address of a cluster's queue, and the line of its message with a number: 64 bytes each after the header, 131,071 in all (R407). -/
def State.queueAddr (s : State) (cl : Nat) (l : Launch) : Word := s.areaAddr l (spillQueueOff (cl - l.base))
def spillLine (i : Nat) : Nat := 64 + 64 * (i % spillCap)

/-- A launch's messages in a cluster's queue, oldest first, and the queue's header: head and tail, counted in messages. -/
def Cluster.spillOf (k : Cluster) (l : Nat) : List Spilled := k.spill.filter (fun x => x.msg.launch == l)
def Cluster.spillHeader (k : Cluster) (l : Nat) : List Word :=
  let next := Tab.get 0 k.spillNext l
  [word (((k.spillOf l).head?.map (·.granule)).getD next), word next]

/-- A message joins the tail of its launch's queue. -/
def Cluster.enqueue (k : Cluster) (w : Walker) (seq : Nat) : Cluster :=
  let n := Tab.get 0 k.spillNext w.launch
  { k with spill := k.spill ++ [⟨w, seq, n, 0⟩], spillNext := Tab.set k.spillNext w.launch (n + 1) }

/-- Messages join the head of a launch's queue (R70): its messages are numbered afresh. -/
def Cluster.pushFront (k : Cluster) (l : Nat) (moved : List Spilled) : Cluster :=
  let mine := (moved ++ k.spillOf l).mapIdx (fun i x => { x with granule := i })
  { k with spill := mine ++ k.spill.filter (fun x => x.msg.launch != l), spillNext := Tab.set k.spillNext l mine.length }

/-- Count discarded channel words or walker messages of a launch, saturating (R150). -/
def State.countWords (s : State) (l n : Nat) : State := s.modLaunch l (fun x => { x with chanWords := min (x.chanWords + n) (2 ^ 32 - 1) })
def State.countWalkers (s : State) (l n : Nat) : State := s.modLaunch l (fun x => { x with walkWords := min (x.walkWords + n) (2 ^ 32 - 1) })

/-! ### Jobs -/

/-- Opcodes of the model for the device's own jobs: they write `data` from `run[0]`, page by page. -/
def jobEvict : Nat := 0x100
def jobImage : Nat := 0x101
def jobRecord : Nat := 0x102
/-- The device's reading of a seed list (R62). -/
def jobSeed : Nat := 0x103
/-- Lines of a walker spill queue on their way to memory, and the return of a message whose line is not there yet (R407). -/
def jobSpill : Nat := 0x106
def jobReturn : Nat := 0x107
/-- The placement of a transport packet's bytes here, and a peer's read (R423). -/
def jobLand : Nat := 0x104
def jobFetch : Nat := 0x105
def Job.isDevice (j : Job) : Bool := decide (0x100 ≤ j.opcode)

def Job.blank : Job where
  id := 0
  opcode := 0
  modf := 0
  run := []
  barrier := 0
  barAddr := 0
  core := 0
  slot := 0
  fid := 0
  launch := noLaunch
  tenant := 0
  pc := 0
  declared := 0
  arrived := 0
  next := 0
  total := 0
  refused := false
  engineFault := false
  journal := none
  card := none
  waiting := none
  landed := []
  unfilled := false
  filler := none
  paused := false
  started := false
  retry := false
  resendAt := none
  engine := none
  via := []
  peer := none
  credit := none
  header := none
  know := []
  got := []
  reads := []
  fenced := []
  data := []

/-- Add a job with a fresh number and let it begin. -/
def State.addJob (s : State) (j : Job) : State :=
  let s := { s with jobs := s.jobs ++ [{ j with id := s.nextJob }], nextJob := s.nextJob + 1 }
  s.post (.jobPieceLand (s.nextJob - 1))

/-- Write lines of a launch's walker spill queue, each an offset and its words, after those written before; an absent page makes them wait
(R407). -/
def State.spillJob (s : State) (cl : Nat) (l : Launch) (lines : List (Nat × List Word)) : State :=
  s.addJob { Job.blank with
    opcode := jobSpill
    run := s.queueAddr cl l :: lines.map (fun x => word x.1)
    core := 8 * cl
    launch := l.number
    tenant := l.tenant
    total := lines.length
    data := lines.foldl (fun m x => x.2.zipIdx.foldl (fun m y => Mem.writeN m (x.1 + 8 * y.2) 8 y.1.toNat) m) [] }

/-- Write every line of a launch's queue as a cluster holds it. -/
def State.writeSpill (s : State) (cl : Nat) (l : Launch) : State :=
  let k := s.cluster cl
  s.spillJob cl l (((k.spillOf l.number).map (fun x => (spillLine x.granule, x.msg.words))) ++ [(0, k.spillHeader l.number)])

def State.job? (s : State) (n : Nat) : Option Job := s.jobs.find? (fun j => j.id == n)
def State.setJob (s : State) (j : Job) : State := { s with jobs := s.jobs.map (fun x => if x.id == j.id then j else x) }
def State.dropJob (s : State) (n : Nat) : State := { s with jobs := s.jobs.filter (fun j => j.id != n) }

/-- Where the words of a job's barrier stand now: in place, or in a saved image (R406). Where the granule has been stripped or released since
the issue, or granted to another launch, the words there change all the same (DEDUCED, log 136). -/
def State.barrierWords (s : State) (j : Job) : Nat × Nat :=
  let at' := fun (i : Nat) => match s.place j.core j.launch j.tenant (j.barAddr + word i) 8 1 with
    | .mem a => a
    | .saved a _ _ => a
    | _ => j.barrier + i
  (at' 0, at' 8)
/-- An access of the device for a launch to n bytes at a: where it meets an error that cannot be corrected, the scrub unit ends the launch
(R185, R442). -/
def State.meets (s : State) (l c a n : Nat) : State :=
  match s.badWord a n with
  | some w => ({ s with metBad := s.metBad ++ [(l, c, w)] } : State).post .scrubPass
  | none => s
/-- An arrival at a job's barrier: it carries what happens before the job, and the job's own writes (R110). -/
def State.arriveFor (s : State) (j : Job) (n flags : Nat) : State :=
  let w := s.barrierWords j
  let s := (s.meets j.launch j.core w.1 8).meets j.launch j.core w.2 8
  s.arrive j.tenant j.core w.1 w.2 n flags (seenJoin (seenJoin j.know j.got) (s.writesBy j.id)) j.reads

/-- The completion word of a job with .nt (R271): opcode, the engine-fault and refused flags it set, and the barrier's place. -/
def Job.completion (j : Job) (engine refused : Bool) : Word :=
  let store := decide (pathOf j.barAddr = 5)
  word (j.opcode * 2 ^ 56 + boolNat engine * 2 ^ 55 + boolNat refused * 2 ^ 54 + boolNat store * 2 ^ 19 +
    (if store then bitsOf j.barAddr.toNat 18 0 else bitsOf j.barAddr.toNat 16 0))

/-- A job is over: its whole remaining count arrives with the flags it sets, its scoreboard entries free, and its completion word is
pushed where it has one (R94, R96, R261, R271). -/
def State.endJob (s : State) (j : Job) (engine refused : Bool) : State :=
  let s := s.arriveFor j (j.declared - j.arrived) ((if engine then flagEngine else 0) ||| (if refused then flagRefused else 0))
  let live := (s.launch? j.launch).isSome || j.launch == noLaunch
  let s := s.modCoreOf j.launch j.core (fun k => { k with
    scoreboard := k.scoreboard.filter (fun r => r.job != j.id)
    complUsed := if j.modf % 2 = 1 ∧ live = false then k.complUsed - 1 else k.complUsed
    completions := if j.modf % 2 = 1 ∧ live = true then k.completions ++ [⟨j.completion engine refused, false, j.launch, []⟩] else k.completions })
  let s := match s.awayOf j.launch (clusterOf j.core) with
    | some (e, x) => s.writeCompletions j.tenant e j.core (Tab.get Core.initial x.cores j.core)
    | none => s
  (s.dropJob j.id).post (.launchComplete j.launch)

/-- The operations that a launch has issued and that have not landed (R54, R146): not the device's own, nor an unfilled buffer. -/
def State.outstanding (s : State) (l : Nat) : List Job :=
  (s.jobs ++ s.saved.flatMap (fun e => e.2.jobs)).filter (fun j => j.launch == l && !j.isDevice && !j.unfilled)
def State.arrayBusy (s : State) (l : Nat) : Bool :=
  s.clusters.any (fun e => e.2.arrayOps.any (fun o => o.parts.any (fun p => p.launch == l)) ||
    e.2.gangIssued.any (fun p => p.launch == l))

/-! ### Asynchronous traps (R59, R186) -/

/-- A trap for a launch's core, in place or in its saved context (R406); once the launch's deadline has passed there, none (R141). -/
def State.raise (s : State) (c : Nat) (t : AsyncTrap) : State :=
  if s.stopped c t.launch || (s.core c).expired.contains t.launch || s.overdue c t.launch then s
  else (s.modCoreOf t.launch c (fun k => { k with asyncTraps := k.asyncTraps ++ [t] })).post (.asyncTrapDelivery c)

/-! ### Setts (R119 to R133) -/

def State.sett? (s : State) (cl gen : Nat) : Option Sett := (s.cluster cl).setts.find? (fun x => x.gen == gen)
def State.modSett (s : State) (cl gen : Nat) (f : Sett → Sett) : State :=
  s.modCluster cl (fun k => { k with setts := k.setts.map (fun x => if x.gen == gen then f x else x) })
/-- The sett a handle names in a cluster, whatever its launch. -/
def State.settOf (s : State) (cl : Nat) (h : Word) : Option Sett := (s.cluster cl).setts.find? (fun x => x.handle cl == h)

/-- Release the granules of a sett from the n-th on (R122). -/
def releaseFrom (x : Sett) (n : Nat) (t : Tab Granule) : Tab Granule :=
  if x.gang then t
  else ((List.range (x.size - n)).map (x.first + n + ·)).foldl (fun t g =>
    if Tab.get .free t g == .sett x.gen then Tab.set t g .free else t) t

/-- An outcome: of one recall, or without one the end of a sett or of its strip. A request that waits for it goes on; a refusal excludes
the sett (R121). -/
def SettReq.outcome (r : SettReq) (gen : Nat) (id : Option Nat) (refused : Bool) : SettReq :=
  let met := fun (w : Nat × Nat) => w.1 == gen && (match id with | some n => w.2 == n | none => true)
  if r.waits.any met then
    { r with waits := r.waits.filter (fun w => !met w), excluded := if refused then r.excluded ++ [gen] else r.excluded }
  else r
def State.settOutcome (s : State) (cl gen : Nat) (id : Option Nat) (refused : Bool) : State :=
  s.modCluster cl (fun k => { k with requests := k.requests.map (fun r => r.outcome gen id refused) })

/-- Answer of a finish verdict to a recall (R127): a plain request now waits for the release or strip of the sett, a try form for no more
than the verdict (R121, R297). -/
def SettReq.finishing (r : SettReq) (gen : Nat) (id : Option Nat) : SettReq :=
  match id with
  | none => r
  | some n =>
    if r.waits.contains (gen, n) then
      { r with waits := if r.try' then r.waits.filter (· != (gen, n)) else r.waits.map (fun w => if w == (gen, n) then (gen, 0) else w) }
    else r

/-- Granules, or the array, were released in a cluster (R121, R122). -/
def State.released (s : State) (cl : Nat) : State := s.modCluster cl (fun k => { k with releases := k.releases + 1 })

/-- Queued recalls of a sett that is gone are satisfied (R125, R132), and a surrender firing that has not started does not. -/
def State.dropRecalls (s : State) (cl : Nat) (h : Word) : State :=
  (coresOf cl).foldl (fun s c =>
    if (s.core c).recalls.any (fun r => r.handle == h && !r.running) || (s.core c).recallWait.any (fun r => r.handle == h) then
      (s.modCore c (fun k => { k with
        recalls := k.recalls.filter (fun r => r.handle != h || r.running)
        recallWait := k.recallWait.filter (fun r => r.handle != h)
        pending := k.pending.filter (fun p => p.source != .recall h) })).post (.recallPlace c)
    else s) s

/-- A sett is Gone: granules released, handle stale, queued recalls satisfied (R132). -/
def State.settGone (s : State) (cl gen : Nat) : State :=
  match s.sett? cl gen with
  | none => s
  | some x =>
    let s := s.modCluster cl (fun k => { k with
      granules := releaseFrom x 0 k.granules
      setts := k.setts.filter (fun y => y.gen != gen) })
    ((s.released cl).settOutcome cl gen none false).dropRecalls cl (x.handle cl)

/-- Keep the lowest n granules (R124). -/
def State.settShrink (s : State) (cl gen n : Nat) : State :=
  match s.sett? cl gen with
  | none => s
  | some x => ((s.modCluster cl (fun k => { k with granules := releaseFrom x n k.granules })).modSett cl gen
      (fun y => if y.gang then y else { y with size := min n y.size })).released cl

/-- A refusal (R127, R128) in answer to a recall: counted in the window, which opens when none is open. -/
def State.settRefuse (s : State) (cl gen : Nat) (id : Option Nat) : State :=
  match s.sett? cl gen with
  | none => s
  | some x =>
    let fresh := match x.windowEnd with | some e => decide (e ≤ s.now) | none => true
    let s := s.modSett cl gen (fun y => { y with
      refusals := if fresh then 1 else y.refusals + 1
      windowEnd := if fresh then some (s.now + 1000000) else y.windowEnd
      st := .current })
    let s := if fresh then s.timerNs (s.now + 1000000) .refusalWindowEnd else s
    (s.modLaunch x.launch (fun l => { l with refusals := min (l.refusals + 1) 65535 })).settOutcome cl gen id true

/-- The spill image of a gang sett (R292): the record of core c and plane s at 1,024 × (2c + s). -/
def Cluster.planeBytes (k : Cluster) : Mem :=
  k.planes.foldl (fun m e =>
    let a := 1024 * e.1
    let m := Mem.writeN m a 8 (64 + boolNat e.2.sparse * 32 + e.2.fmt)
    Mem.writeN (Mem.writeN (Mem.writeN m (a + 64) 512 e.2.weights) (a + 576) 128 e.2.scales) (a + 704) 256 e.2.metadata) []

/-- Have all eight members of a gang issued? -/
def Cluster.gangIssuedAll (k : Cluster) : Bool := k.gangIssued.length + k.rotIssued.length == 8

/-- The whole count of a member's array operation arrives at its barrier. -/
def State.arrivePart (s : State) (p : ArrayPart) (flags : Nat) : State :=
  let s := s.meets p.launch p.core p.barrier 16
  s.arrive ((((s.launch? p.launch).map (·.tenant)).getD 0)) p.core p.barrier (p.barrier + 8) p.bytes flags p.know []

/-- A gang whose members have not all issued is dissolved (R255): the members that have not issued hold no gang any more, and what
the others issued runs no operation: their barriers take the declared count and the engine-fault flag (R283). -/
def State.dissolveGang (s : State) (cl : Nat) : State :=
  if (s.cluster cl).gangIssuedAll then s else
  let s := (coresOf cl).foldl (fun s d => match (s.core d).gang with
    | some g => if g.formed then s.modCore d (fun k => { k with gang := none }) else s
    | none => s) s
  let k := s.cluster cl
  let s := k.gangIssued.foldl (fun s p => if p.opcode = 0xB1 then s else s.arrivePart p flagEngine) s
  let s := k.rotIssued.foldl (fun s p => match s.job? p.job with
    | some j => s.endJob j true false
    | none => s) s
  s.modCluster cl (fun k => { k with gangIssued := [], rotIssued := [], gangMembers := [] })

/-- Begin a strip (R129): the handle is displaced at once; the eviction is a job of the device that waits for writes issued before.
Reason 0 is a lent strip; 9 is the end of the launch, which posts and counts nothing. -/
def State.strip (s : State) (cl gen reason : Nat) : State :=
  match s.sett? cl gen with
  | none => s
  | some x =>
    if x.isDisplaced then s
    else
      let s := s.modSett cl gen (fun y => { y with st := .stripping, was := y.size, reason := reason })
      let s := if x.gang && !(s.cluster cl).gangIssued.isEmpty then s.dissolveGang cl else s
      let s := if reason = 9 then s else s.modLaunch x.launch (fun l => { l with strips := min (l.strips + 1) 65535 })
      let l := s.launch? x.launch
      let dst := match l with
        | some l => s.areaAddr l (settSlotOff (cl - l.base) x.index)
        | none => 0
      s.addJob { Job.blank with
        opcode := jobEvict
        modf := reason
        run := [dst, word cl, word gen]
        core := x.holder
        launch := x.launch
        tenant := (l.map (·.tenant)).getD 0
        declared := if x.gang then 16384 else 8192 * x.size
        total := if reason = 0 then 0 else if x.gang then 1 else (8192 * x.size + 65535) / 65536 }

/-- A recall ended in a verdict or a strip (R134). -/
def State.countRecall (s : State) (l : Nat) : State := s.modLaunch l (fun x => { x with recalls := min (x.recalls + 1) 65535 })

/-- Place a recall in its holder core's queue of 4, or behind it when the queue is full (R125, R126). A recall leaves the queue when its
routine starts (DEDUCED, log 44). -/
def State.placeRecall (s : State) (cl : Nat) (x : Sett) (who : Option (Nat × Nat × Nat)) : State :=
  let h := x.handle cl
  let s := s.modCore x.holder (fun k =>
    if (k.recalls.filter (fun r => !r.running)).length < 4 then { k with recalls := k.recalls ++ [⟨h, false, s.serial, who⟩] }
    else { k with recallWait := k.recallWait ++ [⟨h, false, s.serial, who⟩] })
  { s.post (.recallHead x.holder) with serial := s.serial + 1 }

/-- The recall whose routine runs on a core. -/
def State.runningRecall (s : State) (c : Nat) : Option Nat := ((s.core c).recalls.find? (fun r => r.running)).map (·.id)

/-- The running recall of a core is over: it leaves the queue, and others may be placed or start. -/
def State.endRecall (s : State) (c : Nat) : State :=
  let s := s.modCore c (fun k => { k with recalls := k.recalls.filter (fun r => !r.running) })
  (s.post (.recallPlace c)).post (.recallHead c)

/-! ### The end of a firing (R38, R39, R255) -/

/-- A request is no more, with the recalls that it has not been able to place; those placed stand (R133, R314). -/
def State.endRequests (s : State) (cl : Nat) (mine : Nat × Nat × Nat → Bool) : State :=
  let is := fun (w : Option (Nat × Nat × Nat)) => match w with | some x => mine x | none => false
  (coresOf cl).foldl (fun s d => if (s.core d).recallWait.any (fun r => is r.who) then
      s.modCore d (fun k => { k with recallWait := k.recallWait.filter (fun r => !is r.who) }) else s)
    (s.modCluster cl (fun k => { k with requests := k.requests.filter (fun r => !is r.who) }))

/-- Remove a slot's waiting full/empty access (R89). -/
def Cluster.dropWaiters (k : Cluster) (c n : Nat) : Cluster := { k with waiters := k.waiters.filter (fun w => !(w.core == c && w.slot == n)) }

/-- Has a firing issued its gang-issued instruction for a gang whose other members have not all issued (R255)? -/
def State.gangMember (s : State) (c fid : Nat) : Bool :=
  let k := s.cluster (clusterOf c)
  k.gangIssued.any (fun p => p.core == c && p.fid == fid) ||
    k.rotIssued.any (fun r => r.core == c && (match s.job? r.job with | some j => j.fid == fid | none => false))

/-- The gang of a slot whose firing ends: an unformed request goes; a formed gang is dissolved for the members that have not issued,
whether the slot itself has issued or not (R255, R293). -/
def State.leaveGang (s : State) (c n : Nat) : State :=
  match (s.core c).gang with
  | none => if s.gangMember c (s.slot c n).fid then s.dissolveGang (clusterOf c) else s
  | some g =>
    if g.slot = n ∧ g.formed = true then s.dissolveGang (clusterOf c)
    else
      let s := if g.slot = n then s.modCore c (fun k => { k with gang := none }) else s
      if s.gangMember c (s.slot c n).fid then s.dissolveGang (clusterOf c) else s

/-- A firing leaves its slot: unread reserved words are discarded and their slots freed, unused output reservations return to the
mirror, its registers cease to exist (R38, R39). What happens before its accesses happens before its launch's record (R106, R115). -/
def State.clearSlot (s : State) (c n : Nat) : State :=
  let sl := s.slot c n
  if sl.st = .free then s
  else
    let mine := (s.core c).channels.filter (fun w => w.resv == some n)
    let s := s.modCore c (fun k => { k with channels := k.channels.filter (fun w => w.resv != some n) })
    let s := mine.foldl (fun s w => s.freedWord c w) s
    let s := match s.launch? sl.launch with
      | some l => [(4, sl.out4), (5, sl.out5)].foldl (fun (s : State) (x : Nat × Nat) =>
          match s.outDest c l sl.handler x.1 with
          | some d => s.giveMirror c (destKey d.1 d.2.1 d.2.2.1) x.2
          | none => s) s
      | none => s
    let s := s.modLaunch sl.launch (fun l => { l with told := seenJoin l.told sl.order.seen })
    let s := (s.modCluster (clusterOf c) (fun k => k.dropWaiters c n)).endRequests (clusterOf c) (· == (c, n, sl.fid))
    let s := s.leaveGang c n
    let s := (s.setSlot c n Slot.empty).post (.firingStart c)
    s.evalRules c

/-- Does any wrap-up or surrender firing of the launch stand or wait, or has a core of its field not yet expired (R147)? -/
def State.wrapupGoes (s : State) (l : Nat) : Bool :=
  (match s.launch? l with
   | some x => x.cores.any (fun c => !(s.core c).expired.contains l)
   | none => false) ||
  s.cores.any (fun e => e.2.slots.any (fun x => x.2.ofLaunch l && (x.2.kind == .wrapup || x.2.kind == .surrender)) ||
    e.2.pending.any (fun p => p.launch == l && p.source == .expiry))

/-- The launch's wrap-up ends (R147): every other wrap-up firing stops, and the ending begins. Status by R150; a wall budget that has run
out by now ended it first. -/
def State.endWrapup (s : State) (l : Nat) (wall : Bool) : State :=
  match s.launch? l with
  | none => s
  | some x =>
    if x.phase ≠ .wrapping then s
    else
      let s := s.cores.foldl (fun s e => e.2.slots.foldl (fun s y =>
        if y.2.ofLaunch l && y.2.kind == .wrapup then
          (s.modLaunch l (fun z => { z with wrapCount := max z.wrapCount y.2.count })).clearSlot e.1 y.1
        else s) (s.modCore e.1 (fun k => { k with pending := k.pending.filter (fun p => p.launch != l) }))) s
      let s := s.modLaunch l (fun z => { z with
        phase := .ending
        status := if wall || s.wallOver x then 3 else if z.map = 0 then 3 else 2 })
      s.post (.completionRecordWrite l)

/-- What follows the end of a firing besides its slot (R39, R56, R127, R147, R306): the slot as it stood. -/
def State.afterFiring (s : State) (c : Nat) (sl : Slot) : State :=
  let s := if sl.grain then
      match s.launch? sl.launch with
      | some l =>
        if l.phase = .running ∧ !(s.core c).expired.contains sl.launch then
          match l.nextGrain (clusterOf c) with
          | (some (lo, hi), l') => (s.setLaunch sl.launch l').addPending c (.field (word lo) (word hi)) sl.handler sl.launch
          | (none, l') => s.setLaunch sl.launch l'
        else s
      | none => s
    else s
  let s := if sl.kind = .surrender then s.endRecall c else s
  let s := match sl.journal with
    | some e => s.modCore c (fun k => { k with journal := Tab.set k.journal e JournalEntry.free })
    | none => s
  let s := if sl.kind = .wrapup then s.modLaunch sl.launch (fun z => { z with wrapCount := max z.wrapCount sl.count }) else s
  let s := if (sl.kind == .wrapup || sl.kind == .surrender) && !s.wrapupGoes sl.launch then s.endWrapup sl.launch false else s
  s.post (.launchComplete sl.launch)

/-- `END` (R39, R192): in a surrender firing without a verdict it refuses, where the sett still stands (log 153). -/
def State.endFiring (s : State) (c n : Nat) : State :=
  let sl := s.slot c n
  let s := s.clearSlot c n
  let s := if sl.kind = .surrender ∧ !sl.verdict then
      match s.settOf (clusterOf c) sl.surrSett with
      | some x => if x.st = .surrendering then (s.settRefuse (clusterOf c) x.gen (s.runningRecall c)).countRecall x.launch else s
      | none => s
    else s
  s.afterFiring c sl

/-- A surrender firing is ended and its sett stripped for a reason (R127, R132). -/
def State.stripFiring (s : State) (c n reason : Nat) : State :=
  let sl := s.slot c n
  let s := s.clearSlot c n
  let s := match s.settOf (clusterOf c) sl.surrSett with
    | some x => (s.strip (clusterOf c) x.gen reason).countRecall x.launch
    | none => s
  s.afterFiring c sl

/-! ### The end of a launch under R58 -/

/-- Discard a launch's words on one core: channel, ring, task and outbound words counted (R58, R141, R258), pending firings and
undelivered traps dropped. -/
def State.dropWords (s : State) (c l : Nat) : State :=
  let k := s.core c
  let mine := k.channels.filter (fun w => w.launch == l)
  let ring := fun (q : List QWord) => (q.filter (fun w => w.launch == l)).length
  let out := fun (q : List OutWord) => (q.filter (fun w => w.launch == l)).length
  let n := mine.length + ring k.ring4 + ring k.ring5 + ring k.ringOut4 + ring k.ringOut5 +
    (k.tasks.filter (fun t => t.launch == l)).length + out k.outReq + out k.outRep
  let credits := (k.outReq ++ k.outRep).filter (fun w => w.launch == l && w.credited)
  let s := s.modCore c (fun k => { k with
    channels := k.channels.filter (fun w => w.launch != l)
    ring4 := k.ring4.filter (fun w => w.launch != l)
    ring5 := k.ring5.filter (fun w => w.launch != l)
    ringOut4 := k.ringOut4.filter (fun w => w.launch != l)
    ringOut5 := k.ringOut5.filter (fun w => w.launch != l)
    tasks := k.tasks.filter (fun t => t.launch != l)
    outReq := k.outReq.filter (fun w => w.launch != l)
    outRep := k.outRep.filter (fun w => w.launch != l)
    pending := k.pending.filter (fun p => p.launch != l)
    asyncTraps := k.asyncTraps.filter (fun t => t.launch != l) })
  let s := mine.foldl (fun s w => s.freedWord c w) s
  let s := credits.foldl (fun s w =>
    let a := w.dest.toNat
    s.giveMirror c (destKey (8 * bitsOf a 47 37 + bitsOf a 36 34) (bitsOf a 33 29) (bitsOf a 28 27)) 1) s
  ((s.countWords l n).taskHead c).evalRules c

/-- The firing of an `MMEET` absorbs a message's or an entry's members, carries and meets (R238). -/
def Slot.absorb (x : Slot) (h : Handler) (d : BitVec 2) (m : Walker) (meets : Nat) : Slot :=
  let x := x.writeM d (x.readM d ||| m.members)
  { (x.writeG 3 (carryMerge (h.carryRule true) (x.readG 3) m.carry6)).writeG 4 (carryMerge (h.carryRule false) (x.readG 4) m.carry7) with
    meets := min (x.meets + meets) 65535 }
/-- The slot whose `MMEET` of this fabric clock asked for a message that arrives in it: the arrival takes effect first (R238). -/
def State.absorber (s : State) (cl : Nat) (w : Walker) : Option Absorb :=
  (s.cluster cl).absorb.filter (fun x => x.at' == s.fabric && x.launch == w.launch && x.handler == w.handler && x.block == w.block &&
    x.key == w.key && (s.slot x.core x.slot).fid == x.fid)

/-- A message is absorbed by an `MMEET` of its clock, merges into an entry with its key, or takes a free entry; none when there is neither (R65
to R68, R238). -/
def State.seat (s : State) (cl : Nat) (l : Launch) (w : Walker) : Option State :=
  let k := s.cluster cl
  let owner := ownerCore (word w.key) l.hashSeed l.base l.size
  let h := (s.core owner).handler w.handler
  let now := s.fabric
  match s.absorber cl w with
  | some x => some (s.modSlot x.core x.slot (fun y => y.absorb h x.dst w 1))
  | none =>
  if k.warren.any (fun e => e.msg.sameKey w) then
    let s := s.modCore owner (fun k => k.bump 0x12 1)
    some (s.modCluster cl (fun k => { k with warren := k.warren.map (fun e => if e.msg.sameKey w then e.meet now h w else e) }))
  else if k.warren.length < 128 then
    let e : WarrenEntry := ⟨w, owner, 1, now + h.hold, h.hold == 0, 1, s.serial, s.now, 0, 0, now, [], (w, 1, 1)⟩
    let s := { s.modCluster cl (fun k => { k with warren := k.warren ++ [e] }) with serial := s.serial + 1 }
    some (if h.hold = 0 then s.post (.firingStart owner) else s.timer (2 * (now + h.hold)) (.holdReached cl s.serial.pred))
  else none

/-- The oldest message that a cluster holds outside its warren, and whether it stands in a spill queue (R70). -/
def Cluster.oldestSpilled (k : Cluster) : Option (Spilled × Bool) :=
  let older := fun (b : Option Spilled) (x : Spilled) => match b with
    | none => some x
    | some y => if x.seq < y.seq then some x else b
  match k.overflow.foldl older none, k.spill.foldl older none with
  | some x, some y => if y.seq < x.seq then some (y, true) else some (x, false)
  | some x, none => some (x, false)
  | none, some y => some (y, true)
  | none, none => none

/-- Where the line of a message in a spill queue stands; one on its way there is waited for as on an absent page (R407). -/
def State.spillPlace (s : State) (cl : Nat) (l : Launch) (x : Spilled) : Place :=
  let base := s.queueAddr cl l
  if s.jobs.any (fun j => j.opcode == jobSpill && j.run.head? == some base && (j.run.drop (1 + j.next)).contains (word (spillLine x.granule))) then
    .absent 0 0 0
  else s.place (8 * cl) l.number l.tenant (base + word (spillLine x.granule)) 8 0

/-- A message leaves the places where a cluster keeps what its warren has no room for. -/
def Cluster.taken (k : Cluster) (x : Spilled) (spilled : Bool) : Cluster :=
  Cluster.trimOverflow { k with
    overflow := if spilled then k.overflow else k.overflow.filter (fun y => y.seq != x.seq)
    spill := if spilled then k.spill.filter (fun y => y.seq != x.seq) else k.spill }

/-- Where a message stands in an overflow granule (R70). -/
def Spilled.place (x : Spilled) (cl : Nat) : Nat := storeAt cl (8192 * x.granule + 64 * x.line)

/-- n entries freed: for each, the oldest message that the cluster holds arrives anew (R70), one from a spill queue as its line in memory
says (R407); a line on its way there, or on an absent page, is waited for, and the returns after it with it.
One whose line's translation was refused returns from the device's own copy (DESIGN CHOICE, log 149). -/
def State.returnsDue (cl : Nat) : Nat → State → State
  | 0, s => s
  | n + 1, s =>
    match (s.cluster cl).oldestSpilled with
    | none => s
    | some (x, spilled) =>
      match s.launch? x.msg.launch with
      | none => s
      | some l =>
        let put := fun (s : State) (w : Walker) => match s.seat cl l w with
          | none => s
          | some s =>
            let s := s.modCluster cl (fun k => k.taken x spilled)
            if spilled then s.spillJob cl l [(0, (s.cluster cl).spillHeader l.number)] else s
        if !spilled then State.returnsDue cl n (put (s.meets l.number (8 * cl) (x.place cl) 64) x.msg)
        else match s.spillPlace cl l x with
          | .refused => State.returnsDue cl n (put s x.msg)
          | .mem a => State.returnsDue cl n (put (s.meets l.number (8 * cl) a 64) { Walker.ofWords x.msg.seen (fun i => s.wordAt (a + 8 * i)) with launch := l.number })
          | _ =>
            match s.jobs.find? (fun j => j.opcode == jobReturn && j.core == 8 * cl) with
            | some j => s.setJob { j with total := j.total + n + 1 }
            | none => s.addJob { Job.blank with
                opcode := jobReturn
                run := [s.queueAddr cl l + word (spillLine x.granule)]
                core := 8 * cl
                launch := l.number
                tenant := l.tenant
                total := n + 1 }
/-- An entry freed. -/
def State.overflowReturn (s : State) (cl : Nat) : State := State.returnsDue cl 1 s

/-- Discard a launch's walker messages everywhere (R71): warren entries count one for each message merged. -/
def State.dropWalkers (s : State) (l : Nat) : State :=
  let n := s.clusters.foldl (fun n e => n + (e.2.warren.filter (fun x => x.msg.launch == l)).foldl (fun m x => m + x.count) 0 +
    (e.2.overflow.filter (fun x => x.msg.launch == l)).length + (e.2.spill.filter (fun x => x.msg.launch == l)).length) 0
  let m := s.cores.foldl (fun n e => n + (e.2.outWalk.filter (fun x => x.launch == l)).length) 0
  let s := s.cores.foldl (fun s e => s.modCore e.1 (fun k => { k with outWalk := k.outWalk.filter (fun x => x.launch != l) })) s
  let s := s.clusters.foldl (fun s e =>
    let s := s.modCluster e.1 (fun k => Cluster.trimOverflow { k with
      warren := k.warren.filter (fun x => x.msg.launch != l)
      overflow := k.overflow.filter (fun x => x.msg.launch != l)
      spill := k.spill.filter (fun x => x.msg.launch != l) })
    -- each entry that frees takes back a message of another launch (R70)
    (e.2.warren.filter (fun x => x.msg.launch == l)).foldl (fun s _ => s.overflowReturn e.1) s) s
  let mine := fun (j : Job) => (j.opcode == jobSpill || j.opcode == jobReturn) && j.launch == l
  let waiting := s.jobs.filter (fun j => mine j && j.opcode == jobReturn)
  -- the returns that waited behind its line are owed to the messages after it (R70)
  let s := waiting.foldl (fun s j => State.returnsDue (clusterOf j.core) j.total s) { s with jobs := s.jobs.filter (fun j => !mine j) }
  s.countWalkers l (n + m)

/-- End jobs of a launch that wait on absent pages, and messages whose bytes do: a final arrival with the refused flag and no trap
(R384). -/
def State.endWaiting (s : State) (l : Nat) : State :=
  (s.jobs.filter (fun j => j.launch == l && !j.isDevice && j.waiting.isSome)).foldl (fun s j =>
    let s := match j.journal with
      | some e => s.modCore j.core (fun k => { k with journal := Tab.set k.journal e JournalEntry.free })
      | none => s
    s.endJob j false true) ((s.jobs.filter (fun j => j.opcode == jobLand && j.launch == l && j.waiting.isSome)).foldl (fun s j =>
      match s.job? ((j.run.getD 2 0).toNat - 1) with
      | some b => (s.dropJob j.id).endJob b false true
      | none => s.dropJob j.id) s)

/-- Words that stopped firings of a launch have reserved and not read stand in its queues still, to be discarded and counted with them
(R58, R141; DEDUCED, log 102). -/
def State.unreserve (s : State) (c l : Nat) : State :=
  s.modCore c (fun k => { k with channels := k.channels.map (fun w => if w.launch == l then { w with resv := none } else w) })

/-- Stop every firing of a launch on every core. A surrender routine that stops is over, and so is the recall that it serves (R58,
R133). -/
def State.stopFirings (s : State) (l : Nat) : State :=
  s.cores.foldl (fun s e => e.2.slots.foldl (fun s y =>
    if y.2.ofLaunch l && y.1 < 8 then
      let s := s.clearSlot e.1 y.1
      if y.2.kind = .surrender then s.endRecall e.1 else s
    else s) (s.unreserve e.1 l)) s

/-- What the end of a launch under R58 does to its cores and clusters, once its status stands. -/
def State.endOnCores (s : State) (x : Launch) : State :=
  let l := x.number
  -- the fault images show pools, stores and state as they stood when the firings stopped (R58)
  let images := x.clusters.map (fun cl => (cl, s.sectionBytes cl 0 (fun y => y.ofLaunch l) [] []))
  let s := s.stopFirings l
  let s := x.cores.foldl (fun s c => if (Tab.find s.cores c).isSome then s.dropWords c l else s) s
  let s := s.dropWalkers l
  let s := x.clusters.foldl (fun s cl => (s.cluster cl).setts.foldl (fun s y =>
    if y.launch == l && !y.isDisplaced then
      ((s.strip cl y.gen 9).settOutcome cl y.gen none false).dropRecalls cl (y.handle cl)
    else if y.launch == l && y.st == .displaced then s.settGone cl y.gen
    else s) s) s
  images.foldl (fun s im => s.addJob { Job.blank with
    opcode := jobImage
    run := [s.areaAddr x (imageOff (im.1 - x.base))]
    core := 8 * im.1
    launch := l
    tenant := x.tenant
    declared := 0x200000
    total := 32
    data := im.2 }) s

/-- A launch ends under R58, with its status (4, or 6 for a cancellation), class, faulting core and record word 2. -/
def State.endLaunch (s : State) (l status cls c : Nat) (value : Word) : State :=
  match s.launch? l with
  | none => s
  | some x =>
    if x.phase = .ending then s
    else
      let wraps := fun (n : Nat) (k : Core) => k.slots.foldl (fun n y => if y.2.ofLaunch l && y.2.kind == .wrapup then max n y.2.count else n) n
      let most := s.saved.foldl (fun n e => e.2.cores.foldl (fun n y => wraps n y.2) n) (s.cores.foldl (fun n e => wraps n e.2) x.wrapCount)
      let s := s.modLaunch l (fun z => { z with phase := .ending, status := status, cls := cls, value := value, place := c, wrapCount := most })
      ((s.onContext x (fun s => s.endOnCores x)).endWaiting l).post (.completionRecordWrite l)

/-- An unhandled fault (R58): the core, the cause as class, and record word 2 by R448. -/
def State.faultLaunch (s : State) (l cls c : Nat) (value : Word) : State := s.endLaunch l 4 cls c value

/-- Record word 2 of a faulting instruction (R448). -/
def faultValue (cause : Nat) (val addr : Word) : Word :=
  if cause = 1 then (if addr = 0 then val else addr)
  else if cause = 2 ∨ cause = 3 ∨ cause = 0x14 then val
  else if cause = 8 then (if addr = 0 then val else addr)
  else addr

/-! ### Walker arrivals (R64 to R70) -/

/-- A message spills: into the overflow queue, or into its launch's spill queue when no granule is free for it or messages of its
launch already stand there (R70). -/
def State.spillWalker (s : State) (cl : Nat) (w : Walker) : State :=
  let k := s.cluster cl
  let behind := k.spill.any (fun x => x.msg.launch == w.launch)
  let seq := s.serial
  let s := { s with serial := s.serial + 1 }
  match behind, k.overflowSpace with
  | false, some g =>
    let used := (k.overflow.filter (fun x => x.granule == g)).map (·.line)
    let x : Spilled := ⟨w, seq, g, ((List.range 128).find? (fun i => !used.contains i)).getD 0⟩
    (s.meets w.launch (8 * cl) (x.place cl) 64).modCluster cl (fun k => { k with granules := Tab.set k.granules g .overflow, overflow := k.overflow ++ [x] })
  | _, _ =>
    if s.spillCount cl w.launch ≥ spillCap then
      match s.launch? w.launch with
      | some l => (s.countWalkers w.launch 1).faultLaunch w.launch 0x20 (8 * cl) (s.areaAddr l (spillQueueOff (cl - l.base)))
      | none => s
    else
      let n := Tab.get 0 k.spillNext w.launch
      let s := s.modCluster cl (fun k => k.enqueue w seq)
      match s.launch? w.launch with
      | some l => s.spillJob cl l [(spillLine n, w.words), (0, (s.cluster cl).spillHeader l.number)]
      | none => s

/-- A walker message at its owner's warren (R65 to R68). -/
def State.walkerArrives (s : State) (cl : Nat) (w : Walker) : State :=
  match s.launch? w.launch with
  | none => s
  | some l =>
    if l.phase ≠ .running then s.countWalkers w.launch 1
    else match s.seat cl l w with
      | some s' => s'
      | none => s.spillWalker cl w

/-! ### Expiry of one core (R141, R142) -/

/-- Did the core hold state for the launch (R142)? -/
def State.heldState (s : State) (c : Nat) (l : Launch) : Bool :=
  (s.core c).held.contains l.number || (l.kind == 0 && l.inField (clusterOf c)) ||
    (s.cluster (clusterOf c)).setts.any (fun x => x.launch == l.number && x.holder == c)

/-- Stop the launch's firings on a core but a surrender firing, and discard its words (R141). -/
def State.expireCore (s : State) (c l : Nat) : State :=
  let stops := (s.core c).slots.filter (fun y => y.2.ofLaunch l && y.2.kind != .surrender && y.1 < 8)
  let past := stops.foldl (fun n y => seenJoin n y.2.order.seen) []
  let s := (stops.foldl (fun s y => s.clearSlot c y.1) (s.unreserve c l)).modCore c (fun k => { k with past := Tab.set k.past l past })
  let s := s.dropWords c l
  s.modCore c (fun k => { k with expired := if k.expired.contains l then k.expired else k.expired ++ [l] })

end Sys2Proof.Machine
end

