-- ==== Sys2Proof/Machine/Ops.lean ====
section
/-! DEFINITION. Taking an exact fault and returning from a trap (R40, R58, R132, R148, R184, R193, R306), the checks at issue (R183,
R447), and the issue of one instruction: everything the meanings of instructions share. -/

namespace Sys2Proof.Machine

/-! ### Counters (R313, R342) -/

/-- An instruction issued on the core: counter 4, and event 0x01. -/
def Core.issued (k : Core) : Core :=
  let k := k.bump 0x01 1
  { k with perf := Tab.set k.perf 4 (Tab.get 0 k.perf 4 + 1) }

/-! ### Taking an exact fault -/

/-- The trap handler of the image on a core (R346). -/
def State.trapHandler (s : State) (c : Nat) : Option Nat := (s.image? c).bind (·.trap)

/-- The issuing slot's access waits on no full/empty bit any more (R88, R243). -/
def State.forgetWait (s : State) : State :=
  if (s.cluster (clusterOf s.cur)).waiters.any (fun w => w.core == s.cur && w.slot == s.curSlot) then
    s.modCluster (clusterOf s.cur) (fun k => k.dropWaiters s.cur s.curSlot)
  else s

/-- The trap handler runs in the slot: the trap registers are set and the pc goes to its entry (R40, R184). -/
def State.enterTrap (s : State) (h cause : Nat) (val addr : Word) : State :=
  s.forgetWait.modMe (fun x => { x with
    inTrap := true
    spilling := false
    trapCause := word cause
    trapPc := x.pc
    trapVal := val
    trapAddr := addr
    pc := word (s.here.handler h).entry })

/-- Take an exact fault of the slot that issues. Every register, word and counter is as the instruction found it (R184). A surrender
routine is ended and its sett stripped (R132); a fault in a wrap-up firing, in a trap handler, or where no trap handler is declared
ends the launch (R58, R59, R148); otherwise the trap handler runs in the slot (R40). A privileged firing has neither a launch nor a
trap handler: its frame is freed (DEDUCED, log 19). -/
def State.takeExact (s : State) (cause : Nat) (val addr : Word) : State :=
  let x := s.me
  if s.privileged then s.setMe Slot.empty
  else if x.kind = .surrender then s.stripFiring s.cur s.curSlot 3
  else if x.kind = .wrapup ∨ x.kind = .trap ∨ x.inTrap = true then s.faultLaunch x.launch cause s.cur (faultValue cause val addr)
  else match s.trapHandler s.cur with
    | none => s.faultLaunch x.launch cause s.cur (faultValue cause val addr)
    | some h => s.enterTrap h cause val addr

/-- `RFT` from an in-slot trap (R306): where the slot resumes. -/
def Slot.resumeAt (x : Slot) (skip : Bool) : Word :=
  if skip ∨ x.trapCause = 0x11 ∨ x.trapCause = 0x14 then x.trapPc + 12 else x.trapPc

/-- Return from the trap handler that runs in the slot: the trap registers keep their values (R306). -/
def State.leaveTrap (s : State) : State := s.modMe (fun x => { x with inTrap := false })

/-! ### The checks at issue (R183) -/

/-- The privileged opcodes (R182), and `PERF.clr` (R294). -/
def privilegedOp (op : Nat) (f : Fields) : Bool :=
  [0xE0, 0xE2, 0xE3, 0xE4, 0xE5, 0xE9, 0xEA].contains op || (op == 0xE8 && f.modf.getLsbD 0)

/-- The feature bit an instruction or form needs (R182). -/
def featureOf (op : Nat) (f : Fields) : Option Nat :=
  if op = 0xC0 ∨ op = 0xC1 then some 0
  else if op = 0xAC ∨ op = 0xAD ∨ op = 0xAE then some 1
  else if op = 0xD9 then some 2
  else if op = 0xB0 ∧ f.modf.getLsbD 0 = true then some 3
  else none

/-- R144: opcodes that fault with cause 0x01 in a wrap-up firing. -/
def wrapupForbids (op : Nat) : Bool :=
  [0x0B, 0x79, 0x7A, 0x95, 0x96, 0x97, 0x98, 0x99, 0x9A, 0x9B, 0x9C, 0x9F, 0xA2, 0xA4, 0xA5, 0xA6, 0xA7, 0xA8, 0xA9, 0xAA, 0xAB, 0xAC,
   0xAD, 0xAE, 0xB0, 0xB1, 0xB2, 0xB3, 0xC0, 0xC1, 0xD3, 0xD9, 0xE1].contains op

def Operand.portNum : Operand → Option Nat
  | .port n => some n.toNat
  | _ => none

/-- The k ports an instruction names (R90): in a wrap-up firing any faults; k0 to k3 are not written, nor read beyond the declared
inputs. -/
def portForbidden (kind : Kind) (inputs : Nat) (f : Fields) : Bool :=
  match kind with
  | .wrapup => (Operand.portNum f.d).isSome || (Operand.portNum f.a).isSome || (Operand.portNum f.b).isSome
  | _ =>
    (match Operand.portNum f.d with | some k => decide (k < 4) | none => false) ||
    (match Operand.portNum f.a with | some k => decide (k < 4) && decide (inputs ≤ k) | none => false) ||
    (match Operand.portNum f.b with | some k => decide (k < 4) && decide (inputs ≤ k) | none => false)

/-- Check 5: the cause, if the instruction is forbidden in the firing's kind (R127, R131, R144, R294, R90). -/
def kindForbids (kind : Kind) (inTrap : Bool) (inputs op : Nat) (f : Fields) : Option Nat :=
  if op = 0xD0 ∧ (kind = .wrapup ∨ kind = .surrender) then some 8
  else if op = 0xD4 ∧ kind ≠ .surrender then some 8
  else if op = 0xD8 ∧ kind ≠ .wrapup then some 1
  else if op = 0xE1 ∧ !(inTrap || kind == .trap) then some 1
  else if kind = .wrapup ∧ wrapupForbids op = true then some 1
  else if portForbidden kind inputs f then some 1
  else none

/-- The system registers below 0x800 that the table lists (R179). -/
def sysReadable (n : Nat) : Bool :=
  n ≤ 3 || (0x10 ≤ n && n ≤ 0x17) || (0x20 ≤ n && n ≤ 0x27) || (0x30 ≤ n && n ≤ 0x33) || n == 0x40 || n == 0x41
/-- The assigned registers from 0x800 (R179). -/
def privRegister (n : Nat) : Bool := (0x800 ≤ n && n ≤ 0x808) || (0x810 ≤ n && n ≤ 0x813)

/-- Check 6 (R179, R208, R307): a cause, TRAPVAL for `MOVS` and `MOVSW`. -/
def sysForbids (op : Nat) (f : Fields) : Option (Nat × Nat) :=
  if op = 0x38 then
    match f.d, f.a with
    | _, .sys n => if sysReadable n.toNat then none else some (1, op)
    | .sys n, _ => if n.toNat = 0x41 then none else some (1, op)
    | _, _ => none
  else if op = 0xE0 then
    match f.d, f.a with
    | _, .sys n => if n.toNat < 0x800 then some (2, 3) else if privRegister n.toNat then none else some (1, op)
    | .sys n, _ =>
      if n.toNat < 0x800 then some (2, 2) else if privRegister n.toNat && n.toNat != 0x800 then none else some (1, op)
    | _, _ => none
  else none

/-- The argument words of an `EMSG` as the header in its run gives them (R270). -/
def State.emsgWords (s : State) (o : Operand) : Nat :=
  match o with
  | .g x => bitsOf (s.me.readG (x + 1)).toNat 27 24
  | _ => 0
/-- Does the run of an `EMSG` pass the last register (R259)? -/
def State.runOutside (s : State) (op : Nat) (o : Operand) : Bool :=
  op == 0xAB && (match o with | .g x => decide (32 < x.toNat + s.emsgWords o + 2) | _ => false)

/-- Checks 1 to 6 of R183, in order: cause, TRAPVAL, TRAPADDR of the first that fails. A run that passes the last register fails as operand
B, before the modifier (R447). -/
def State.preCheck (s : State) (op : Nat) (f : Fields) : Option (Nat × Word × Word) :=
  let x := s.me
  if formsOf op = [] ∨ (privilegedOp op f = true ∧ s.privileged = false) then some (1, word op, 0)
  else match featureOf op f with
    | some b => if s.features.testBit b then rest x else some (3, word b, 0)
    | none => rest x
where
  rest (x : Slot) : Option (Nat × Word × Word) :=
    match check4 (formsOf op) f with
    | some n => some (2, word (if n = 5 ∧ s.runOutside op f.b = true then 4 else n), 0)
    | none =>
      if s.runOutside op f.b then some (2, 4, 0)
      else match kindForbids x.kind x.inTrap (s.here.handler x.handler).inputs op f with
      | some 8 => some (8, 0, 0)
      | some c => some (c, word op, 0)
      | none =>
        match sysForbids op f with
        | some (c, v) => some (c, word v, 0)
        | none => none

/-- The guard (R177). -/
def Slot.guard (x : Slot) (f : Fields) : Bool := x.readP f.pred != f.neg

/-- The instruction has issued: the pc advances by 12 (R172) and it counts (R127, R143, R313). -/
def State.retireTo (s : State) (pc : Word) : State :=
  s.setHere (let k := s.here.issued; k.setSlot s.curSlot { k.slot s.curSlot with pc := pc, count := (k.slot s.curSlot).count + 1, met := none, spilling := false })
def State.retire (s : State) : State := s.retireTo (s.me.pc + 12)

/-- The slot stalls at the instruction (R40). A full/empty access joins its word's waiters, and keeps its place while it waits for something
else (R88, R243). -/
def State.stallMe (s : State) (why : Stall) : State :=
  let why := match why with
    | .scoreboard _ => .scoreboard (s.here.scoreboard.map (·.job))
    | .entries _ => .entries (s.here.scoreboard.map (·.job))
    | w => w
  let begun := match why with
    | .spill _ n => n != 0
    | _ => false
  let s := s.modMe (fun x => { x with st := .stalled, stall := some why, spilling := x.spilling || begun })
  match why with
  | .feBit a full =>
    let w : Waiter := ⟨a, full, s.cur, s.curSlot⟩
    s.modCluster (clusterOf s.cur) (fun k => if k.waiters.contains w then k else { k with waiters := k.waiters ++ [w] })
  | _ => s

/-- The memory of a word in the model's numbering: 0 SRAM, 1 HBM, 2 second tier (R441). -/
def memoryOf (a : Nat) : Nat := if isLocal a then 0 else if a < 2 ^ 60 then 1 else 2
/-- An uncorrectable error is told: its place and how many launches it ended (R441). -/
def State.tellBad (s : State) (a ended : Nat) : State :=
  s.postEvent 0 0 0x0082 0x0C04 (word (a % 2 ^ 60)) (word (ended * 2 ^ 32 + memoryOf a))

/-- The slot that issues met an error that cannot be corrected: its launch ends with class 0x21 (R185, R442). A privileged firing has no
launch: its frame is freed (DEDUCED, log 19). A surrender routine of a launch that ends already is over, as at another fault of it (R132;
DEDUCED, log 129). -/
def State.meetBad (s : State) (a : Nat) (addr : Word) : State :=
  if s.privileged then (s.setMe Slot.empty).tellBad a 0
  else
    let ends := match s.myLaunch with
      | some l => l.phase != .ending
      | none => false
    if !ends && s.me.kind == .surrender then (s.stripFiring s.cur s.curSlot 3).tellBad a 0
    else (s.faultLaunch s.me.launch 0x21 s.cur addr).tellBad a (boolNat ends)

/-- What a body answered becomes the next state. -/
def State.settle (s : State) (r : Res After) : State :=
  match r with
  | .ok (.seq s') => s'.retire
  | .ok (.goto s' pc) => s'.retireTo pc
  | .ok (.gone s') => s'
  | .error (.trap cause val addr) => s.takeExact cause val addr
  | .error (.stall why) => s.stallMe why
  | .error (.light s') => s'.forgetWait
  | .error (.uncorrectable a addr) => s.meetBad a addr
  | .error (.trapAtPush cause val addr) => (s.modMe (fun x => { x with cmd := [] })).takeExact cause val addr

/-- A destination port that is a source too is pushed first (R174): k6 or k7 without room stalls the instruction before it pops. `CTRL` does
not take k6 or k7, and faults itself (R253). -/
def State.pushBlocked (s : State) (op : Nat) (f : Fields) : Option Stall :=
  if op = 0x9A ∨ (f.d ≠ f.a ∧ f.d ≠ f.b) then none
  else match f.d with
    | .port p =>
      if p = 7 ∧ 32 ≤ s.here.tasks.length then some (.portFull 7)
      else if p = 6 ∧ 16 ≤ s.me.cmd.length then some (.portFull 6)
      else if p = 6 ∧ 1 < s.me.cmd.length ∧ bitOf (msgWord s.me.cmd 1) 0 = true ∧
          s.me.cmd.length = bitsOf (msgWord s.me.cmd 1) 27 24 + 2 ∧ 16 ≤ s.here.complUsed then some .completion
      else none
    | _ => none

/-- Issue one instruction: the checks of R183 in order, the guard, then its own body. -/
def State.issue (s : State) (op : Nat) (f : Fields) (body : State → Res After) : Host.Outcome State Fault Refusal :=
  .next (match s.preCheck op f with
    | some (cause, val, addr) => s.takeExact cause val addr
    | none =>
      if s.me.guard f then (match s.pushBlocked op f with | some w => s.stallMe w | none => s.settle (body s))
      else (s.setHere (s.here.bump 0x0D 1)).retire)

/-- A system-scope fence, release or acquire executes: in a function limited to tenant scope it is demoted and counted (R116). -/
def State.demote (s : State) (system : Bool) : State :=
  match system, s.myLaunch with
  | true, some l =>
    if ctxTenantScope (s.ctx l.tenant) then s.modLaunch l.number (fun x => { x with demotions := min (x.demotions + 1) 65535 }) else s
  | _, _ => s
/-- Does a modifier name an order at system scope (R100, R176)? -/
def systemOrder (modf : Nat) : Bool := Modf.order modf != 0 && bitOf modf 6 && Modf.scope modf == 4

/-- A transfer of control to an offset that is not a multiple of 12 faults at the transferring instruction (R172). -/
def jumpTo (s : State) (pc : Word) : Res After :=
  if pc.toNat % 12 = 0 then .ok (.goto (s.setHere (s.here.bump 0x13 1)) pc) else .error (.trap 0x06 12 pc)

end Sys2Proof.Machine
end

