-- ==== Sys2Proof/Machine/Commands.lean ====
section
/-! DEFINITION. Engine commands at issue (spec 13): run limits, address checks, stalls, and the job that a command becomes. The
same operation serves the instructions, `EMSG` and the words pushed at k6. -/

namespace Sys2Proof.Machine

/-- The run length of a command (R260, R308). -/
def runLength : Nat → Option Nat
  | 0xA0 => some 3
  | 0xA1 => some 5
  | 0xA2 => some 3
  | 0xA3 => some 3
  | 0xA4 => some 5
  | 0xA5 => some 5
  | 0xA6 => some 6
  | 0xA7 => some 5
  | 0xA8 => some 7
  | 0xA9 => some 3
  | 0xAC => some 6
  | 0xAD => some 3
  | 0xAE => some 4
  | 0xC0 => some 6
  | 0xC1 => some 7
  | 0xE2 => some 2
  | 0xE3 => some 2
  | _ => none

/-- An address of a run with the paths it may name, its alignment, and the bytes reached through it: `rows` rows of `len` bytes,
`stride` apart. An address through which the command accesses no byte, because L, W, H or c is 0, has no rows. -/
structure Reach where
  addr : Word
  paths : List Nat
  align : Nat
  rows : Nat
  stride : Int
  len : Nat
  write : Bool
  deriving DecidableEq, Repr

def Reach.empty (r : Reach) : Bool := r.rows == 0 || r.len == 0

/-- Path sets of R259. -/
def pathsRd9 : List Nat := [0, 1, 2, 3, 4, 5, 6, 7, 9]
def pathsRd : List Nat := [0, 1, 2, 3, 4, 5, 6, 7]
def pathsWr : List Nat := [0, 2, 3, 4, 5, 6, 7]
def pathsOwn : List Nat := [4, 5]
def pathsAtomic : List Nat := [0, 2, 4, 5, 6]

def rn (run : List Word) (i : Nat) : Nat := msgWord run i
def rw (run : List Word) (i : Nat) : Word := run.getD i 0

/-- One run of n bytes. -/
def Reach.span (addr : Word) (paths : List Nat) (align n : Nat) (write : Bool) : Reach :=
  ⟨addr, paths, align, if n = 0 then 0 else 1, 0, n, write⟩
/-- The table of an index list of c entries, of T elements of s bytes; with T = 0 it is named though it has no byte. -/
def Reach.table (addr : Word) (paths : List Nat) (s c t : Nat) (write : Bool) : Reach :=
  ⟨addr, paths, s, if c = 0 then 0 else 1, 0, t * s, write⟩
/-- Are bytes read through it: those of a source, and the words of an atomic? -/
def Reach.reads (r : Reach) : Bool := !r.write || r.paths == pathsAtomic || (r.paths == [0] && r.align == 16)

/-- Bits of a search command's w2 (R272). -/
def srchC (run : List Word) : Nat := bitsOf (rn run 2) 23 0
def srchDm (run : List Word) : Nat := bitsOf (rn run 2) 36 24 + 1
def srchK (run : List Word) : Nat := bitsOf (rn run 2) 40 37 + 1
def srchDot (run : List Word) : Bool := bitOf (rn run 2) 41
/-- V of R272: the bytes of a vector. -/
def srchV (fmt : Nat) (run : List Word) : Nat := (srchDm run * Num.fmtWidth fmt + 7) / 8

/-- The reserved bits and value limits of a run (R259). -/
def runOk (op modf : Nat) (run : List Word) : Bool :=
  let u32 := fun i => decide (rn run i < 2 ^ 32)
  match op with
  | 0xA0 => u32 2
  | 0xA1 => decide (bitsOf (rn run 2) 31 0 * bitsOf (rn run 2) 63 32 < 2 ^ 32)
  | 0xA2 => u32 2
  | 0xA3 => u32 2
  | 0xA4 => bitsOf (rn run 3) 63 35 == 0 && bitsOf (rn run 3) 31 24 == 0 && decide (bitsOf (rn run 3) 34 32 ≤ 6) && u32 4
  | 0xA5 => bitsOf (rn run 3) 63 35 == 0 && bitsOf (rn run 3) 31 24 == 0 && decide (bitsOf (rn run 3) 34 32 ≤ 6) && u32 4
  | 0xA6 => bitsOf (rn run 1) 63 5 == 0 && decide (bitsOf (rn run 1) 3 0 ≤ 9) && (!bitOf (rn run 1) 4 || bitsOf (rn run 1) 3 0 == 9)
  | 0xA8 => bitsOf (rn run 1) 63 5 == 0 && decide (bitsOf (rn run 1) 3 0 ≤ 9) && (!bitOf (rn run 1) 4 || bitsOf (rn run 1) 3 0 == 9)
  | 0xA7 => bitsOf (rn run 3) 63 37 == 0 && bitsOf (rn run 3) 31 24 == 0 && decide (bitsOf (rn run 3) 35 32 ≤ 8)
  | 0xA9 => decide (rn run 2 ≤ 2 ^ 17) && rn run 2 % 8 == 0
  | 0xAC => decide (rn run 0 < 2 ^ 16) && u32 2 && decide (rn run 3 < 2) && (rn run 3 == 0 || rn run 5 == 0)
  | 0xAD => u32 1
  | 0xAE => decide (rn run 0 < 2 ^ 16) && u32 3
  | 0xC0 => bitsOf (rn run 2) 63 42 == 0 && decide (srchV (Modf.fmt modf) run ≤ 4096) && bitsOf (rn run 4) 44 39 == 0
  | 0xC1 => bitsOf (rn run 2) 63 42 == 0 && decide (srchV (Modf.fmt modf) run ≤ 4096) && bitsOf (rn run 4) 44 39 == 0 && u32 6
  | 0xE2 => decide (rn run 0 < 8)
  | 0xE3 => decide (rn run 0 < 8)
  | _ => true

/-- The addresses of a run, in run order (R260, R262 to R274, R308). -/
def reaches (op modf : Nat) (run : List Word) : List Reach :=
  let w := rw run
  let n := rn run
  match op with
  | 0xA0 => [.span (w 0) pathsWr 1 (n 2) true, .span (w 1) pathsRd9 1 (n 2) false]
  | 0xA1 =>
    let wd := bitsOf (n 2) 31 0
    let h := if wd = 0 then 0 else bitsOf (n 2) 63 32
    [⟨w 0, pathsWr, 1, h, (w 3).toInt, wd, true⟩, ⟨w 1, pathsRd, 1, h, (w 4).toInt, wd, false⟩]
  | 0xA2 => [.span (w 0) pathsOwn 1 (n 2) true, .span (w 1) pathsRd9 1 (n 2) false]
  | 0xA3 => [.span (w 0) pathsWr 1 (n 2) true, .span (w 1) pathsOwn 1 (n 2) false]
  | 0xA4 =>
    let c := bitsOf (n 3) 23 0
    let s := 2 ^ bitsOf (n 3) 34 32
    [.span (w 0) pathsOwn s (c * s) true, .table (w 1) pathsRd s c (n 4) false, .span (w 2) pathsOwn 4 (4 * c) false]
  | 0xA5 =>
    let c := bitsOf (n 3) 23 0
    let s := 2 ^ bitsOf (n 3) 34 32
    [.table (w 0) pathsWr s c (n 4) true, .span (w 1) pathsOwn s (c * s) false, .span (w 2) pathsOwn 4 (4 * c) false]
  | 0xA6 =>
    let sz := if bitOf (n 1) 4 then 16 else 8
    [.span (w 0) (if sz = 16 then [0] else pathsAtomic) sz sz true]
  | 0xA8 =>
    let sz := if bitOf (n 1) 4 then 16 else 8
    [.span (w 0) (if sz = 16 then [0] else pathsAtomic) sz sz true, .span (w 6) pathsOwn sz sz true]
  | 0xA7 =>
    let c := bitsOf (n 3) 23 0
    [.table (w 0) pathsAtomic 8 c (n 4) true] ++
      (if bitOf (n 3) 36 then [.span (w 1) pathsOwn 1 (8 * c) false] else []) ++ [.span (w 2) pathsOwn 4 (4 * c) false]
  | 0xA9 => [.span (w 0) [4] 8 (n 2) true, .span (w 1) [4] 8 (n 2) false]
  | 0xAC => [.span (w 1) pathsRd 1 (n 2) false]
  | 0xAD => [.span (w 0) [0, 4, 5, 6] 1 (n 1) true]
  | 0xAE => [.span (w 2) pathsWr 1 (n 3) true]
  | 0xC0 => srch
  | 0xC1 => srch
  | 0xE2 => [.span (w 1) [0] 4096 4096 true]
  | 0xE3 => [.span (w 1) [0] 4096 4096 false]
  | 0x79 => [.span (w 0) [5] 8 8 true]
  | _ => []
where
  srch : List Reach :=
    [.span (rw run 0) pathsRd 64 (srchV (Modf.fmt modf) run) false, .span (rw run 1) pathsRd 4 (4 * srchC run) false,
     .span (rw run 3) pathsOwn 8 (512 * srchK run) true, .span (rw run 4) [2] 64 (if srchC run = 0 then 0 else 1) false]

/-- The bytes a command declares (R260). -/
def declaredBytes (op : Nat) (run : List Word) : Nat :=
  let n := rn run
  match op with
  | 0xA0 => n 2
  | 0xA1 => bitsOf (n 2) 31 0 * bitsOf (n 2) 63 32
  | 0xA2 => n 2
  | 0xA3 => n 2
  | 0xA4 => bitsOf (n 3) 23 0 * 2 ^ bitsOf (n 3) 34 32
  | 0xA5 => bitsOf (n 3) 23 0 * 2 ^ bitsOf (n 3) 34 32
  | 0xA6 => if bitOf (n 1) 4 then 16 else 8
  | 0xA8 => if bitOf (n 1) 4 then 16 else 8
  | 0xA7 => 8 * bitsOf (n 3) 23 0
  | 0xA9 => n 2
  | 0xAC => n 2
  | 0xAD => n 1
  | 0xAE => n 3
  | 0xC0 => 512 * srchK run
  | 0xC1 => 512 * srchK run
  | 0xE2 => 4096
  | 0xE3 => 4096
  | _ => 0

/-- Pieces of n bytes at an address: 8-byte words of the destination, the first and last possibly in part (R102, R261). -/
def pieceCount (a n : Nat) : Nat := if n = 0 then 0 else (a % 8 + n + 7) / 8
/-- Offset and length of piece i. -/
def pieceOf (a n i : Nat) : Nat × Nat :=
  let lo := if i = 0 then 0 else 8 * i - a % 8
  (lo, min n (8 * (i + 1) - a % 8) - lo)

/-- Pieces or elements of a job; a tagged message of no byte is one packet all the same (R274). -/
def pieceTotal (op : Nat) (run : List Word) : Nat :=
  let n := rn run
  match op with
  | 0xA0 => pieceCount (n 0) (n 2)
  | 0xA1 => let wd := bitsOf (n 2) 31 0; if wd = 0 then 0 else bitsOf (n 2) 63 32 * ((wd + 14) / 8)
  | 0xA2 => pieceCount (n 0) (n 2)
  | 0xA3 => pieceCount (n 0) (n 2)
  | 0xA4 => bitsOf (n 3) 23 0
  | 0xA5 => bitsOf (n 3) 23 0
  | 0xA6 => 1
  | 0xA8 => 1
  | 0xA7 => bitsOf (n 3) 23 0
  | 0xAC => if n 2 = 0 ∧ n 3 = 1 then 1 else pieceCount (n 1) (n 2)
  | 0xAD => pieceCount (n 0) (n 1)
  | 0xAE => pieceCount (n 2) (n 3)
  | 0xC0 => 64
  | 0xC1 => 64
  | 0xE2 => 512
  | 0xE3 => 512
  | _ => 0

/-! ### Address checks (R260) -/

/-- The first failure among checks. -/
def firstOf (f : Nat → Except Halt Unit) : List Nat → Except Halt Unit
  | [] => .ok ()
  | h :: hs => match f h with
    | .ok _ => firstOf f hs
    | .error e => .error e

/-- Bounds of the row that begins d bytes on, in the own pool or store: the first byte that fails is shown. -/
def checkBounds (addr : Word) (off : Int) (limit len : Nat) (d : Int) : Except Halt Unit :=
  let o := off + d
  let at' := addr + BitVec.ofInt 64 d
  if len = 0 then .ok ()
  else if o < 0 then .error (.trap 0x05 (word limit) at')
  else if o + len > limit then
    .error (.trap 0x05 (word limit) (if o ≥ limit then at' else at' + word (limit - o.toNat)))
  else .ok ()

/-- Protection of the bytes of a row of the own store: the first byte that fails is shown. -/
def State.checkProtected (s : State) (addr : Word) (off : Int) (len : Nat) (d : Int) : Except Halt Unit :=
  let cl := clusterOf s.cur
  let o := (off + d).toNat
  if len = 0 then .ok ()
  else firstOf (fun g => checkGranule (s.cluster cl) cl s.me.launch g (addr + BitVec.ofInt 64 d + word (max o (8192 * g) - o))) (granulesOf o len)

/-- Bounds of all rows of an address in the own pool or store, then their protection. -/
def State.checkRows (s : State) (r : Reach) (off : Int) (limit : Nat) (store : Bool) : Except Halt Unit :=
  let rows := List.range (if r.stride = 0 then 1 else min r.rows 524289)
  match firstOf (fun h => checkBounds r.addr off limit r.len (h * r.stride)) rows with
  | .error e => .error e
  | .ok _ => if store then firstOf (fun h => s.checkProtected r.addr off r.len (h * r.stride)) rows else .ok ()

/-- R183 check 8 for one address of a run (R260). -/
def State.checkReach (s : State) (r : Reach) : Except Halt Unit :=
  let a := r.addr.toNat
  let p := pathOf r.addr
  if !r.paths.contains p ∨ (p = 9 ∧ bitsOf a 59 57 = 0) then .error (.trap 0x04 (word p) r.addr)
  else if r.rows = 0 then .ok ()
  else if p = 9 ∧ a % 64 ≠ 0 then .error (.trap 0x06 64 r.addr)
  else if a % r.align ≠ 0 then .error (.trap 0x06 (word r.align) r.addr)
  else if p = 4 then
    if bitsOf a 59 17 ≠ 0 then .error (.trap 0x05 0 r.addr)
    else s.checkRows r (bitsOf a 16 0 : Nat) (s.poolLimit s.cur) false
  else if p = 5 then
    if bitsOf a 59 19 ≠ 0 then .error (.trap 0x05 0 r.addr)
    else s.checkRows r (bitsOf a 18 0 : Nat) 524288 true
  else if p = 6 then
    if bitsOf a 59 48 ≠ 0 ∨ bitsOf a 32 19 ≠ 0 then .error (.trap 0x05 0 r.addr) else .ok ()
  else .ok ()

def State.checkReaches (s : State) : List Reach → Except Halt Unit
  | [] => .ok ()
  | r :: rs =>
    match s.checkReach r with
    | .ok _ => s.checkReaches rs
    | .error e => .error e

/-! ### The scoreboard (R94) -/

/-- The byte range in the own scratchpad from an address's lowest to its highest byte, on path 0x4, or on path 0x6 that names it. A scatter's
is its whole table, since only its index list says more (R94; DESIGN CHOICE, log 151). -/
def Reach.ownRange (c : Nat) (r : Reach) : Option (Nat × Nat) :=
  let a := r.addr.toNat
  let own := decide (pathOf r.addr = 4) || (decide (pathOf r.addr = 6) && !bitOf a 33 && decide (8 * bitsOf a 47 37 + bitsOf a 36 34 = c))
  if r.empty || !own then none
  else
    let off : Int := if pathOf r.addr = 4 then (bitsOf a 16 0 : Nat) else (bitsOf a 18 0 : Nat)
    let last : Int := off + (r.rows - 1 : Nat) * r.stride
    some ((min off last).toNat, (max off last + r.len - 1).toNat)

def State.writeRanges (s : State) (rs : List Reach) : List (Nat × Nat) := (rs.filter (·.write)).filterMap (·.ownRange s.cur)
def State.readRanges (s : State) (rs : List Reach) : List (Nat × Nat) := (rs.filter (·.reads)).filterMap (·.ownRange s.cur)

def overlaps (lo hi : Nat) (r : Range) : Bool := decide (lo ≤ r.hi) && decide (r.lo ≤ hi)

/-- The stalls of R260 step 2, in the order of R40 and R342 (DEDUCED, log 127); a full outReq is one of them, also where R324's run would go on
(DEDUCED, log 158). -/
def State.commandStall (s : State) (rs : List Reach) (posted nt : Bool) : Option Stall :=
  let k := s.here
  if nt && decide (k.complUsed ≥ 16) then some .completion
  else if k.scoreboard.length + (s.writeRanges rs).length > 16 then some (.entries [])
  else if (s.readRanges rs).any (fun x => k.scoreboard.any (overlaps x.1 x.2)) then some (.entries [])
  else if posted && (List.range 32).all (fun i => (Tab.get JournalEntry.free k.journal i).inUse) then some .journal
  else if k.outReq.length ≥ 16 then some (.outQueue 0)
  else none

/-- Is a `PUT` posted (R263)? -/
def isPosted (op : Nat) (run : List Word) : Bool := op == 0xA3 && decide (rn run 2 ≤ 64)

/-- The addresses of a row at which a 64 KiB page begins, its own first. -/
def pagesOf (a : Word) (n : Nat) : List Word :=
  a :: (List.range ((a.toNat % 65536 + n - 1) / 65536)).map (fun i => a + word (65536 * (i + 1) - a.toNat % 65536))

/-- R145: does every destination byte of a wrap-up firing's copy lie in a result region? Paths 0x0, 0x2 and 0x3 that the launch may
write, the own pool and store, and path 0x6 addresses in the field. -/
def State.inResultRegion (s : State) (r : Reach) : Bool :=
  let p := pathOf r.addr
  let rows := (List.range (if r.stride = 0 then 1 else r.rows)).map (fun (h : Nat) => r.addr + BitVec.ofInt 64 (h * r.stride))
  if r.empty then true
  else if p = 4 ∨ p = 5 then true
  else match s.myLaunch with
    | none => p = 0 ∨ p = 2 ∨ p = 3
    | some l => rows.all (fun a =>
        if p = 0 ∨ p = 2 ∨ p = 3 then
          decide (pathOf a = p) && (pagesOf a r.len).all (fun x => match s.xlate l.tenant x 1 with | .refused => false | _ => true)
        else if p = 6 then [a, a + word (r.len - 1)].all (fun x => decide (pathOf x = 6) && bitsOf x.toNat 59 48 == 0 && l.inField (bitsOf x.toNat 47 37))
        else false)

/-- A byte that a job of core c names, so that equal numbers name the same byte (R112); the core bits of a store's address are ignored
(R81). -/
def footAddr (c : Nat) (a : Word) : Nat :=
  let x := a.toNat
  let p := pathOf a
  if p = 4 then poolAt c (bitsOf x 16 0)
  else if p = 5 then storeAt (clusterOf c) (bitsOf x 18 0)
  else if p = 6 then (if bitOf x 33 then storeAt (bitsOf x 47 37) (bitsOf x 32 0) else 6 * 2 ^ 60 + bitsOf x 59 0)
  else xlatPath p * 2 ^ 60 + vaOf a

/-- The bytes from the lowest to the highest that an address of a command reaches, and whether it writes them. -/
structure Foot where
  lo : Nat
  hi : Nat
  write : Bool
  deriving DecidableEq, Repr

def Reach.foot (c : Nat) (r : Reach) : Option Foot :=
  if r.empty then none
  else
    let a : Int := footAddr c r.addr
    let last : Int := a + (r.rows - 1 : Nat) * r.stride
    some ⟨(min a last).toNat, (max a last + r.len).toNat, r.write⟩

/-- A job's footprint: its card's regions where a card covers it (R111, R269), else what its command implies. -/
def Job.feet (j : Job) : List Foot :=
  match j.card with
  | some c => c.zipIdx.filterMap (fun g => if g.1.2 = 0 then none
      else some ⟨footAddr j.core g.1.1, footAddr j.core g.1.1 + g.1.2, decide (4 ≤ g.2)⟩)
  | none => (reaches j.opcode j.modf j.run).filterMap (·.foot j.core)

def Foot.meets (a b : Foot) : Bool := decide (a.lo < b.hi) && decide (b.lo < a.hi)
/-- Do two footprints conflict (R111)? -/
def Foot.conflicts (a b : Foot) : Bool := a.meets b && (a.write || b.write)

/-- The cluster whose scheduler accepts a job: its own, or that of the engine that `EMSG` names (R270). Home slices are told apart from
clusters. -/
def Job.home (j : Job) : Nat :=
  match j.engine with
  | some (1, n) => n
  | some (2, n) => n
  | some (3, n) => 4096 + n
  | _ => clusterOf j.core

def feetConflict (a b : List Foot) : Bool := a.any (fun x => b.any (fun y => x.conflicts y))

/-- Do regions (start, length) together hold the bytes from p to below e? Each step goes on from the end of the regions that hold p. -/
def regionsHold (gs : List (Nat × Nat)) : Nat → Nat → Nat → Bool
  | 0, p, e => decide (e ≤ p)
  | k + 1, p, e => decide (e ≤ p) ||
    (let far := (gs.filter (fun g => decide (g.1 ≤ p) && decide (p < g.1 + g.2))).foldl (fun m g => max m (g.1 + g.2)) p
     decide (p < far) && regionsHold gs k far e)

/-- Do the read regions of a card, if the command reads there, and its write regions, if it writes, hold every byte of a range (R269)? Core c
has the card. -/
def inCard (c : Nat) (card : List (Word × Nat)) (r : Reach) : Bool :=
  let hold := fun (side : List (Word × Nat)) =>
    let regions := side.map (fun g => (footAddr c g.1, g.2))
    (List.range (if r.stride = 0 then 1 else r.rows)).all (fun h =>
      let a := footAddr c (r.addr + BitVec.ofInt 64 (h * r.stride))
      regionsHold regions regions.length a (a + r.len))
  r.empty || ((!r.reads || hold (card.take 4)) && (!r.write || hold (card.drop 4)))

/-- Are the command's ranges known before it starts (R269)? The table of an index list is not, nor a search's: their elements are checked
one by one (a search's vectors: DEDUCED, log 137). -/
def knownReaches (op : Nat) (rs : List Reach) : List Reach :=
  if op = 0xA4 then rs.take 1 ++ rs.drop 2 else if op = 0xA5 ∨ op = 0xA7 then rs.drop 1 else if op = 0xC0 ∨ op = 0xC1 then rs.take 3 else rs

/-- Where an address on path 0x4 or 0x5 of the issuing core stands. -/
def State.ownPlace (s : State) (addr : Word) : Nat :=
  let a := addr.toNat
  if pathOf addr = 4 then poolAt s.cur (bitsOf a 16 0) else storeAt (clusterOf s.cur) (bitsOf a 18 0)

/-- A barrier operand as an address of a command. -/
def barrierReach (bar : Word) : Reach := .span bar pathsOwn 16 16 true

/-- What is checked before a command becomes a job: limits, the barrier, `engine` for the address of a named engine, and the run's
addresses; the barrier's place and the addresses (R183, R259, R260, R270). -/
def State.checkNamed (s : State) (op modf : Nat) (run : List Word) (bar : Word) (engine : Except Halt Unit) :
    Res (Nat × List Reach) :=
  if !runOk op modf run then .error (.trap 0x02 4 0)
  else do
    s.checkReach (barrierReach bar)
    engine
    let rs := reaches op modf run
    s.checkReaches rs
    if s.me.kind == .wrapup && (op == 0xA0 || op == 0xA1 || op == 0xA3) && !(rs.take 1).all s.inResultRegion then
      throw (.trap 0x01 (word op) 0)
    pure (s.ownPlace bar, rs)
/-- The checks of a command that runs at its own engine. -/
def State.checkCommand (s : State) (op modf : Nat) (run : List Word) (bar : Word) : Res (Nat × List Reach) :=
  s.checkNamed op modf run bar (.ok ())

/-- The lowest free journal entry (R263). -/
def Core.freeJournal (k : Core) : Nat :=
  ((List.range 32).find? (fun i => !(Tab.get JournalEntry.free k.journal i).inUse)).getD 0

/-- The bytes of an own source as they stand (R263). -/
def State.ownBytes (s : State) (addr : Word) (n : Nat) : Nat := s.bytes (s.ownPlace addr) n
/-- An error that cannot be corrected in the source of a posted store, which is read at issue (R185, R263). -/
def State.sourceBad (s : State) (op : Nat) (run : List Word) : Option Nat :=
  if isPosted op run then s.badWord (s.ownPlace (rw run 1)) (rn run 2) else none

/-- The words of a peer's entry, if the peer is known: within the table, valid, no reserved bit set (R422). -/
def State.peerEntry (s : State) (t peer : Nat) : Option (List Word) :=
  let cfg := ((Tab.find s.tenants t).map (·.transport)).getD []
  let at' := hbmAt (bitsOf (msgWord cfg 0) 63 8 * 256 + 32 * peer)
  let w0 := s.wordAt at'
  if decide (peer < bitsOf (msgWord cfg 1) 15 0) && w0.getLsbD 63 && bitsOf w0.toNat 61 56 == 0 && bitsOf w0.toNat 39 24 == 0 &&
    bitsOf (s.wordAt (at' + 24)).toNat 63 16 == 0 then some ((List.range 4).map (fun i => s.wordAt (at' + 8 * i))) else none

/-- The unfinished jobs of the issuing core's cluster that write the source of a posted `PUT`, which it reads at issue: it waits for them, as
every read of a later job does (R111, R263; DEDUCED, log 134). -/
def State.sourceWriters (s : State) (op : Nat) (run : List Word) : List Nat :=
  if isPosted op run then
    let source := ((reaches op 0 run).filter (fun r => !r.write)).filterMap (·.foot s.cur)
    (s.jobs.filter (fun x => x.home == clusterOf s.cur && !x.isDevice && feetConflict x.feet source)).map (·.id)
  else []

/-- Issue a command whose checks have passed: its stalls, its scoreboard entries, journal entry and completion slot, and its job
(R260, R263, R269, R271). -/
def State.issueCommand (s : State) (op modf : Nat) (run : List Word) (bar : Word) (b : Nat) (rs : List Reach)
    (engine : Option (Nat × Nat)) (via : List Word) : Res State :=
  let posted := isPosted op run
  let nt := modf % 2 == 1
  match s.commandStall rs posted nt, s.sourceBad op run with
  | some w, _ => .error (.stall w)
  | none, some a => if s.sourceWriters op run = [] then .error (.uncorrectable a (rw run 1)) else .error (.stall (.footprint (s.sourceWriters op run)))
  | none, none =>
    if s.sourceWriters op run ≠ [] then .error (.stall (.footprint (s.sourceWriters op run))) else
    let x := s.me
    let id := s.nextJob
    let k := s.here
    let e := k.freeJournal
    let card := if x.cover = 0 then none else some x.card
    let outside := match card with
      | some c => !(knownReaches op rs).all (inCard s.cur c)
      | none => false
    let tenant := (s.myLaunch.map (·.tenant)).getD k.tenant.toNat
    let j : Job := { Job.blank with
      opcode := op
      modf := modf
      run := run
      barrier := b
      barAddr := bar
      core := s.cur
      slot := s.curSlot
      fid := x.fid
      launch := x.launch
      tenant := tenant
      pc := x.pc
      declared := declaredBytes op run
      total := if outside then 0 else pieceTotal op run
      engineFault := outside
      journal := if posted then some e else none
      card := card
      unfilled := op == 0xAD && !outside
      engine := engine
      via := via
      peer := if op = 0xAC ∨ op = 0xAE then s.peerEntry tenant (rn run 0) else none
      know := x.order.seen
      fenced := x.order.fenced
      data := if posted then Mem.writeN [] 0 (rn run 2) (s.ownBytes (rw run 1) (rn run 2)) else [] }
    let k := { k with
      scoreboard := k.scoreboard ++ (s.writeRanges rs).map (fun r => ⟨r.1, r.2, id⟩)
      complUsed := if nt then k.complUsed + 1 else k.complUsed
      journal := if posted then Tab.set k.journal e
        ⟨true, false, x.pc, x.launch, rn run 2, rw run 0, BitVec.ofNat 512 (s.ownBytes (rw run 1) (rn run 2))⟩ else k.journal }
    let s := s.setHere k
    let s := s.modMe (fun x => { x with cover := x.cover - 1 })
    let s := (s.addJob j).demote (systemOrder modf)
    .ok (if op = 0xAD ∧ !outside then { s with posted := s.posted ++ [id] } else s)

/-- Is the issuing slot a member of the gang that has formed and that it has not used (R255)? -/
def State.inGang (s : State) : Bool :=
  match s.here.gang with
  | some g => g.slot == s.curSlot && g.formed
  | none => false

/-- A member has issued its gang-issued instruction: the core holds no request any more. -/
def State.usedGang (s : State) : State := s.setHere { s.here with gang := none }

/-- Issue a `ROTATE` (R93, R268): gang-issued; the rotation runs when every member has issued. -/
def State.issueRotate (s : State) (modf : Nat) (run : List Word) (bar : Word) (b : Nat) (rs : List Reach) : Res State :=
  if !s.inGang then .error (.trap 0x08 0 0)
  else
    let id := s.nextJob
    match s.issueCommand 0xA9 modf run bar b rs none [] with
    | .error e => .error e
    | .ok s =>
      let part : RotPart := ⟨s.cur, bitsOf (rn run 0) 16 0, bitsOf (rn run 1) 16 0, rn run 2, id⟩
      .ok ((s.usedGang.modCluster (clusterOf s.cur) (fun k => { k with rotIssued := k.rotIssued ++ [part] })).post (.rotationRun (clusterOf s.cur)))

/-- The opcodes that an engine of a kind serves (R270). -/
def engineServes (kind op : Nat) : Bool :=
  if kind = 1 then [0xA0, 0xA1, 0xA2, 0xA3].contains op
  else if kind = 2 then [0xA4, 0xA5, 0xA6, 0xA7, 0xA8].contains op
  else if kind = 3 then [0xA6, 0xA7, 0xA8].contains op
  else false

/-- Does a command's own opcode accept a modifier (R259)? -/
def commandModOk (op modf : Nat) : Bool := (formsOf op).any (fun x => x.modOk modf)

/-- The engine address of `EMSG` (R270): kind and index. -/
def engineOf (a : Word) : Except Halt (Nat × Nat) :=
  let x := a.toNat
  let kind := bitsOf x 59 56
  if pathOf a ≠ 8 then .error (.trap 0x04 (word (pathOf a)) a)
  else if kind ≥ 4 then .error (.trap 0x05 0 a)
  else if kind = 3 then (if bitsOf x 55 48 ≠ 0 ∨ bitsOf x 39 0 ≠ 0 then .error (.trap 0x05 0 a) else .ok (3, bitsOf x 47 40))
  else if kind = 0 then .ok (0, 0)
  else if bitsOf x 55 48 ≠ 0 ∨ bitsOf x 36 0 ≠ 0 then .error (.trap 0x05 0 a)
  else .ok (kind, bitsOf x 47 37)

/-- A carried command's feature bit is not in FEATURES (R182). -/
def featureMissing (s : State) (op : Nat) : Bool :=
  ((op == 0xC0 || op == 0xC1) && !s.features.testBit 0) || ((op == 0xAC || op == 0xAD || op == 0xAE) && !s.features.testBit 1)

/-- An engine message's command (R270): the engine (none: the opcode's own, whose commands are those of the run lengths), header,
arguments, barrier. Its checks are those of its own instruction: that the engine serves it is checked with the header, before the feature,
and the engine's address with the run's addresses (DEDUCED, log 104). -/
def State.sendCommand (s : State) (eng : Word) (own : Bool) (header : Word) (args : List Word) (bar : Word) : Res State :=
  let h := header.toNat
  let op := bitsOf h 23 16
  let modf := bitsOf h 15 0
  let m := bitsOf h 27 24
  let kind := bitsOf eng.toNat 59 56
  let named := own || decide (pathOf eng ≠ 8) || decide (4 ≤ kind) || engineServes kind op
  if bitsOf h 63 28 ≠ 0 ∨ runLength op ≠ some m ∨ args.length ≠ m ∨ op ≥ 0xE0 ∨ !commandModOk op modf ∨ !named then .error (.trap 0x02 4 0)
  else if featureMissing s op then .error (.trap 0x03 (if op ≥ 0xC0 then 0 else 1) 0)
  else if own then do
    let c ← s.checkCommand op modf args bar
    if op = 0xA9 then s.issueRotate modf args bar c.1 c.2 else s.issueCommand op modf args bar c.1 c.2 none []
  else
    match engineOf eng with
    | .error e => do
      let c ← s.checkNamed op modf args bar (.error e)
      s.issueCommand op modf args bar c.1 c.2 none []
    | .ok e => do
      let c ← s.checkNamed op modf args bar (.ok ())
      s.issueCommand op modf args bar c.1 c.2 (some e) [eng, header]

end Sys2Proof.Machine
end

