-- ==== Sys2Proof/Machine/Operands.lean ====
section
/-! DEFINITION. Every operand form: reads and writes of registers, immediates, memory addresses and k ports (R90, R92, R173, R174,
R187, R189, R271). -/

namespace Sys2Proof.Machine

/-! ### Ports -/

/-- The word the next pop of k0 to k3 takes: reserved words of the slot first, then unreserved words of the launch (R38, R46). -/
def Core.nextWord (k : Core) (slot h l ch : Nat) : Option ChanWord :=
  let mine := k.channels.filter (fun w => w.handler == h && w.chan == ch && w.launch == l)
  match mine.find? (fun w => w.resv == some slot) with
  | some w => some w
  | none => mine.find? (fun w => w.resv == none)

/-- Remove the first equal element. -/
def removeFirst [DecidableEq α] (x : α) : List α → List α
  | [] => []
  | y :: ys => if y = x then ys else y :: removeFirst x ys

/-- The oldest entry of the task queue that a k7 read may take (R90). -/
def Core.nextTask (k : Core) (l : Nat) : Option Task := k.tasks.find? (fun t => t.launch == l)

/-- Remove a task entry; when it was the head its pending firing goes with it (R90). -/
def State.takeTask (s : State) (c : Nat) (t : Task) : State :=
  let k := s.core c
  let head := k.tasks.head? == some t
  let isSpawn := fun (p : Pending) => match p.source with | .spawn _ => true | _ => false
  (s.modCore c (fun k => { k with
    tasks := removeFirst t k.tasks
    pending := if head then k.pending.filter (fun p => !isSpawn p) else k.pending })).taskHead c

/-- The word that the next pop at a port of the issuing slot would return (R90, R254). -/
def State.peekPort (s : State) (p : Nat) : Option QWord :=
  let x := s.me
  let k := s.here
  if p < 4 then (k.nextWord s.curSlot x.handler x.launch p).map (fun w => ⟨w.word, w.tag, w.launch, w.seen⟩)
  else if p = 4 then k.ring4.head?
  else if p = 5 then k.ring5.head?
  else if p = 6 then k.completions.head?
  else match x.task with
    | some w => some ⟨w, false, x.launch, []⟩
    | none => (k.nextTask x.launch).map (fun t => ⟨t.word, false, t.launch, t.seen⟩)

/-- The state after that pop. -/
def State.takeWord (s : State) (p : Nat) : State :=
  let x := s.me
  let k := s.here
  if p < 4 then
    match k.nextWord s.curSlot x.handler x.launch p with
    | some w => ((s.setHere { k with channels := removeFirst w k.channels }).freedWord s.cur w).evalRules s.cur
    | none => s
  else if p = 4 then s.setHere { k with ring4 := k.ring4.drop 1 }
  else if p = 5 then s.setHere { k with ring5 := k.ring5.drop 1 }
  else if p = 6 then s.setHere { k with completions := k.completions.drop 1, complUsed := k.complUsed - 1 }
  else match x.task with
    | some _ => s.modMe (fun x => { x with task := none })
    | none =>
      match k.nextTask x.launch with
      | some t => s.takeTask s.cur t
      | none => s

/-- That pop as an acquire of what the word's sender released (R106). -/
def State.afterPop (s : State) (p : Nat) : State := (s.takeWord p).acquired (((s.peekPort p).map (·.seen)).getD [])

/-- The light handler of an input channel, unless a light handler runs (R92). -/
def State.lightOf (s : State) (p : Nat) : Option Nat :=
  if p < 4 ∧ !s.me.light then inLight ((s.here.handler s.me.handler).input p) else none

/-- The light call of R92: g31, g30 and the flag set, the pc at the light handler's entry; the instruction issued and counts. -/
def State.lightCall (s : State) (h : Nat) (v : Word) : State :=
  let back := s.me.pc + 12
  ((s.modMe (fun x => { ((x.writeG 31 back).writeG 30 v) with light := true, lightRet := back })).retireTo (word (s.here.handler h).entry))

/-- A pop of a port as a source (R90, R92, R189). -/
def State.pop (s : State) (p : Nat) : Res (Word × State) :=
  match s.peekPort p with
  | none => .error (.stall (.portEmpty p))
  | some w =>
    let s' := s.afterPop p
    match (if w.tag then s.lightOf p else none) with
    | some h => .error (.light (s'.lightCall h w.word))
    | none => .ok (w.word, s')

/-- Has a ring queue of the issuing core room (R90: 16 words each way)? -/
def succOf (c : Nat) : Nat := 8 * (c / 8) + (c % 8 + 1) % 8
def predOf (c : Nat) : Nat := 8 * (c / 8) + (c % 8 + 7) % 8
def State.ringRoom4 (s : State) : Bool := decide (s.here.ringOut4.length + (s.core (succOf s.cur)).ring5.length < 16)
def State.ringRoom5 (s : State) : Bool := decide (s.here.ringOut5.length + (s.core (predOf s.cur)).ring4.length < 16)

/-- Has a port room for a push? -/
def State.portRoom (s : State) (p : Nat) : Bool :=
  if p = 4 then s.ringRoom4 else if p = 5 then s.ringRoom5 else if p = 6 then decide (s.me.cmd.length < 16) else decide (s.here.tasks.length < 32)

/-- Push a word, with its tag, at k4 or k5. -/
def State.pushRing (s : State) (p : Nat) (w : Word) (tag : Bool) : Res State :=
  let q : QWord := ⟨w, tag, s.me.launch, s.given⟩
  if p = 4 then
    if s.ringRoom4 then
      .ok ((s.setHere { s.here with ringOut4 := s.here.ringOut4 ++ [q] }).post (.ringWordArrival s.cur))
    else .error (.stall (.portFull 4))
  else if s.ringRoom5 then
    .ok ((s.setHere { s.here with ringOut5 := s.here.ringOut5 ++ [q] }).post (.ringWordArrival s.cur))
  else .error (.stall (.portFull 5))

/-- A push at a port as a destination (R90, R271). A command pushed at k6 issues at its last word; a check that fails then faults at
that push and its words are discarded. -/
def State.push (s : State) (p : Nat) (w : Word) : Res State :=
  if p < 6 then s.pushRing p w false
  else if p = 6 then
    let words := s.me.cmd ++ [w]
    let m := bitsOf (msgWord words 1) 27 24
    if words.length > 16 then .error (.stall (.portFull 6))
    else if words.length < 2 ∨ words.length < m + 3 then .ok (s.modMe (fun x => { x with cmd := words }))
    else
      let cleared := s.modMe (fun x => { x with cmd := [] })
      let eng := words.getD 0 0
      match cleared.sendCommand eng (eng == 0) (words.getD 1 0) ((words.drop 2).take m) (words.getD (m + 2) 0) with
      | .ok s' => .ok s'
      | .error (.trap c v a) => .error (.trapAtPush c v a)
      | .error e => .error e
  else if s.here.tasks.length < 32 then
    .ok ((s.setHere { s.here with tasks := s.here.tasks ++ [⟨s.me.handler, w, s.me.launch, s.given⟩] }).taskHead s.cur)
  else .error (.stall (.portFull 7))

/-- A port that an operand names has a word to read, or room for the word to write: the slot tests that first (R40, R342). -/
def State.srcReady (s : State) (o : Operand) : Res Unit :=
  match o with
  | .port p => if (s.peekPort p.toNat).isNone then .error (.stall (.portEmpty p.toNat)) else .ok ()
  | _ => .ok ()
def State.dstReady (s : State) (o : Operand) : Res Unit :=
  match o with
  | .port p => if 4 ≤ p.toNat ∧ s.portRoom p.toNat = false then .error (.stall (.portFull p.toNat)) else .ok ()
  | _ => .ok ()

/-! ### Registers and immediates -/

def sext (x : BitVec 17) : Word := x.signExtend 64

/-- A source of class G, I or N as a 64-bit value (R173, R187): a port pops. Other classes never pass check 4 where this is used. -/
def State.src (s : State) (o : Operand) : Res (Word × State) :=
  match o with
  | .g n => .ok (s.me.readG n, s)
  | .port n => s.pop n.toNat
  | .imm x => .ok (sext x, s)
  | _ => .ok (0, s)

/-- A destination of class G: a register, or a push (R174). -/
def State.dst (s : State) (o : Operand) (x : Word) : Res State :=
  match o with
  | .g n => .ok (s.modMe (fun y => y.writeG n x))
  | .port n => s.push n.toNat x
  | _ => .ok s

def State.srcV (s : State) : Operand → Line
  | .v n => s.me.readV n
  | _ => 0
def State.dstV (s : State) (o : Operand) (x : Line) : State :=
  match o with
  | .v n => s.modMe (fun y => y.writeV n x)
  | _ => s
def State.srcP (s : State) : Operand → Bool
  | .p n => s.me.readP n
  | _ => false
def State.dstP (s : State) (o : Operand) (x : Bool) : State :=
  match o with
  | .p n => s.modMe (fun y => y.writeP n x)
  | _ => s
def State.srcW (s : State) : Operand → Word
  | .w n => s.me.readW n
  | _ => BitVec.allOnes 64
def State.dstW (s : State) (o : Operand) (x : Word) : State :=
  match o with
  | .w n => s.modMe (fun y => y.writeW n x)
  | _ => s
def State.srcM (s : State) : Operand → Members
  | .m n => s.me.readM n
  | _ => 0
def State.dstM (s : State) (o : Operand) (x : Members) : State :=
  match o with
  | .m n => s.modMe (fun y => y.writeM n x)
  | _ => s

/-- The address of a memory operand at an access size (R173). -/
def State.addr (s : State) (o : Operand) (size : Nat) : Word :=
  match o with
  | .mem b off => s.me.readG b + off.signExtend 64 * word size
  | _ => 0

/-- The old D of a read-modify-write scalar entry. -/
def State.oldG (s : State) : Operand → Word
  | .g n => s.me.readG n
  | _ => 0

/-- The argument run g(X) to g(X + n - 1) (R259). -/
def State.run (s : State) (o : Operand) (n : Nat) : List Word :=
  match o with
  | .g x => (List.range n).map (fun i => s.me.readG (BitVec.ofNat 5 (x.toNat + i)))
  | _ => []

/-- Is an operand an immediate outside lo to hi, read as signed (R190)? -/
def immOutside (o : Operand) (lo hi : Int) : Bool :=
  match o with
  | .imm x => decide (x.toInt < lo) || decide (hi < x.toInt)
  | _ => false

/-- The count of R195 at a port. -/
def State.portCount (s : State) (p : Nat) : Nat :=
  let x := s.me
  let k := s.here
  if p < 4 then (k.channels.filter (fun w => w.handler == x.handler && w.chan == p && w.launch == x.launch &&
    (w.resv == none || w.resv == some s.curSlot))).length
  else if p = 4 then k.ring4.length
  else if p = 5 then k.ring5.length
  else if p = 6 then k.completions.length
  else boolNat x.task.isSome + (k.tasks.filter (fun t => t.launch == x.launch)).length

/-- A port's depth (R90, R195). -/
def State.portDepth (s : State) (p : Nat) : Nat :=
  if p < 4 then inSlots ((s.here.handler s.me.handler).input p) else if p = 7 then 32 else 16

end Sys2Proof.Machine
end

