-- ==== Sys2Proof/Machine/Flags.lean ====
section
/-! DEFINITION. The conditions that set predicates and lane masks. The machine has no flags register: integer arithmetic keeps no
flags (R188), and comparisons write p and w registers (R205, R215). -/

namespace Sys2Proof

/-- Lane width in bits of a width code (R188). -/
def widthBits (c : Nat) : Nat := 64 / 2 ^ c
def Fields.width (f : Fields) : Nat := widthBits (Modf.width f.modf.toNat)
def Fields.unsigned (f : Fields) : Bool := bitOf f.modf.toNat 4
def Fields.fmt (f : Fields) : Nat := Modf.fmt f.modf.toNat
def Fields.rnd (f : Fields) : Nat := Modf.rnd f.modf.toNat
def Fields.sat (f : Fields) : Bool := Modf.sat f.modf.toNat
/-- Modifier [hi:lo]. -/
def Fields.bits (f : Fields) (hi lo : Nat) : Nat := bitsOf f.modf.toNat hi lo
def Fields.bit (f : Fields) (i : Nat) : Bool := bitOf f.modf.toNat i

end Sys2Proof

namespace Sys2Proof.Machine
open Sys2Proof.Num

/-- A w-bit value read as an integer, signed or unsigned (R188). -/
def intOf (w : Nat) (u : Bool) (x : Nat) : Int := if u then ((x % 2 ^ w : Nat) : Int) else signed w x

/-- The integer conditions of R205 on two w-bit values. -/
def intCond (c w : Nat) (u : Bool) (a b : Nat) : Bool :=
  let x := intOf w u a
  let y := intOf w u b
  match c with
  | 0 => x == y
  | 1 => x != y
  | 2 => decide (x < y)
  | 3 => decide (x ≤ y)
  | 4 => decide (y < x)
  | 5 => decide (y ≤ x)
  | _ => ((a % 2 ^ w) &&& (b % 2 ^ w)) != 0

/-- One of six orderings of two integers. -/
def orderCond (c : Nat) (x y : Int) : Bool :=
  match c with
  | 0 => x == y
  | 1 => x != y
  | 2 => decide (x < y)
  | 3 => decide (x ≤ y)
  | 4 => decide (y < x)
  | _ => decide (y ≤ x)

/-- The float conditions of R215 on two encodings of a format: without .tot by value, with bf16 subnormals read as zero; with .tot
by totalorder (R167). -/
def floatCond (c : Nat) (tot : Bool) (fmt a b : Nat) : Bool :=
  if tot then orderCond c (orderKey fmt (flush fmt a)) (orderKey fmt (flush fmt b))
  else
    let x := decodeFloat fmt a
    let y := decodeFloat fmt b
    let nan := x.isNan || y.isNan
    match c with
    | 0 => !nan && x.eqv y
    | 1 => nan || !x.eqv y
    | 2 => !nan && !y.le x
    | 3 => !nan && x.le y
    | 4 => !nan && !x.le y
    | 5 => !nan && y.le x
    | 6 => nan
    | _ => !nan

/-- Lane truths as a mask: bit i is lane i, and the bits from the lane count up are clear (R205, R215). -/
def maskOf : List Bool → Nat
  | [] => 0
  | b :: bs => boolNat b + 2 * maskOf bs

end Sys2Proof.Machine
end

