-- ==== Sys2Proof/Machine/Int.lean ====
section
/-! DEFINITION. Integer arithmetic and logic, opcodes 0x10 to 0x2E (R187, R188, R197 to R201). -/

namespace Sys2Proof.Machine
open Sys2Proof.Num

abbrev Out := Host.Outcome State Fault Refusal

namespace IntOp

/-! Each operation acts on w-bit values a and b (raw bits) and gives w raw bits. The count of a shift is b as it comes: the whole
register in the scalar shape, the lane in the vector shape (R199). -/

def low (w : Nat) (z : Int) : Nat := wrap w z
def maxOf (w : Nat) (u : Bool) : Int := if u then 2 ^ w - 1 else 2 ^ (w - 1) - 1
def minOf (w : Nat) (u : Bool) : Int := if u then 0 else -2 ^ (w - 1)
def clampTo (w : Nat) (u : Bool) (z : Int) : Nat := wrap w (max (minOf w u) (min (maxOf w u) z))

def add (w : Nat) (u : Bool) (a b : Nat) : Nat := low w (intOf w u a + intOf w u b)
def sub (w : Nat) (u : Bool) (a b : Nat) : Nat := low w (intOf w u a - intOf w u b)
def mul (w : Nat) (u : Bool) (a b : Nat) : Nat := low w (intOf w u a * intOf w u b)
def mulh (w : Nat) (u : Bool) (a b : Nat) : Nat := low w (intOf w u a * intOf w u b / 2 ^ w)
def mad (w : Nat) (u : Bool) (d a b : Nat) : Nat := low w (intOf w u d + intOf w u a * intOf w u b)
/-- R198. -/
def div (w : Nat) (u : Bool) (a b : Nat) : Nat :=
  if intOf w u b = 0 then 2 ^ w - 1 else low w ((intOf w u a).tdiv (intOf w u b))
def rem (w : Nat) (u : Bool) (a b : Nat) : Nat :=
  if intOf w u b = 0 then a % 2 ^ w else low w ((intOf w u a).tmod (intOf w u b))
def abs (w : Nat) (_u : Bool) (a _b : Nat) : Nat := low w (signed w a).natAbs
def min (w : Nat) (u : Bool) (a b : Nat) : Nat := if intOf w u a ≤ intOf w u b then a % 2 ^ w else b % 2 ^ w
def max (w : Nat) (u : Bool) (a b : Nat) : Nat := if intOf w u a ≤ intOf w u b then b % 2 ^ w else a % 2 ^ w
def adds (w : Nat) (u : Bool) (a b : Nat) : Nat := clampTo w u (intOf w u a + intOf w u b)
def subs (w : Nat) (u : Bool) (a b : Nat) : Nat := clampTo w u (intOf w u a - intOf w u b)
def avg (w : Nat) (u : Bool) (a b : Nat) : Nat := low w ((intOf w u a + intOf w u b + 1) / 2)
def sad (w : Nat) (u : Bool) (d a b : Nat) : Nat := low w (intOf w u d + (intOf w u a - intOf w u b).natAbs)
/-- min(max(d, a), b); b wins when a > b. -/
def clamp (w : Nat) (u : Bool) (d a b : Nat) : Nat := min w u (max w u d a) b
def and (w : Nat) (_u : Bool) (a b : Nat) : Nat := (a &&& b) % 2 ^ w
def or (w : Nat) (_u : Bool) (a b : Nat) : Nat := (a ||| b) % 2 ^ w
def xor (w : Nat) (_u : Bool) (a b : Nat) : Nat := (a ^^^ b) % 2 ^ w
def andn (w : Nat) (_u : Bool) (a b : Nat) : Nat := (a % 2 ^ w) &&& ((2 ^ w - 1) ^^^ (b % 2 ^ w))
/-- R199. -/
def shl (w : Nat) (_u : Bool) (a c : Nat) : Nat := if c ≥ w then 0 else (a * 2 ^ c) % 2 ^ w
def shr (w : Nat) (_u : Bool) (a c : Nat) : Nat := if c ≥ w then 0 else a % 2 ^ w / 2 ^ c
def sar (w : Nat) (_u : Bool) (a c : Nat) : Nat := low w (signed w a / 2 ^ (Nat.min c w))
def rol (w : Nat) (_u : Bool) (a c : Nat) : Nat :=
  let k := c % w
  let x := a % 2 ^ w
  (x * 2 ^ k + x / 2 ^ (w - k)) % 2 ^ w
def clz (w : Nat) (_u : Bool) (a _b : Nat) : Nat := let x := a % 2 ^ w; if x = 0 then w else w - 1 - Nat.log2 x
def popc (w : Nat) (_u : Bool) (a _b : Nat) : Nat := ((List.range w).filter (fun i => a.testBit i)).length
def brev (w : Nat) (_u : Bool) (a _b : Nat) : Nat := maskOf ((List.range w).map (fun i => a.testBit (w - 1 - i)))
/-- R200: position, effective length; at width .x8 a lane of 8 bits holds no length (DEDUCED, log 122). -/
def fieldPos (b : Nat) : Nat := b % 64
def fieldLen (w b : Nat) : Nat := Nat.min (b / 64 % 64 + 1) (w - fieldPos b)
def ext (w : Nat) (u : Bool) (a b : Nat) : Nat :=
  if fieldPos b ≥ w then 0 else low w (intOf (fieldLen w b) u (a % 2 ^ w / 2 ^ fieldPos b))
def ins (w : Nat) (_u : Bool) (d a b : Nat) : Nat :=
  let p := fieldPos b
  let l := fieldLen w b
  if p ≥ w then d % 2 ^ w
  else (d % 2 ^ w) - (d / 2 ^ p % 2 ^ l) * 2 ^ p + (a % 2 ^ l) * 2 ^ p
/-- R201. -/
def hash (_w : Nat) (_u : Bool) (a b : Nat) : Nat := (hash64 (word a) (word b)).toNat
def mix (_w : Nat) (_u : Bool) (d a b : Nat) : Nat := (hash64 (word d ^^^ word a) (word b)).toNat

end IntOp

/-- A w-bit result as R188 extends it to 64 bits in the scalar shape. -/
def ext64 (w : Nat) (u : Bool) (r : Nat) : Word := if u then word (r % 2 ^ w) else BitVec.ofInt 64 (signed w r)

/-- Lane values of a vector operand of width w. -/
def lanesOf (w : Nat) (x : Line) : List Nat := elems w (512 / w) x.toNat
def ofLanes (w : Nat) (l : List Nat) : Line := BitVec.ofNat 512 (pack w l)

/-- The B lanes of the vector shape: a v register, or one value in every lane (R187). -/
def State.laneB (s : State) (o : Operand) (w : Nat) : Res (List Nat × State) :=
  match o with
  | .v n => .ok (lanesOf w (s.me.readV n), s)
  | _ =>
    match s.src o with
    | .ok (x, s') => .ok (List.replicate (512 / w) (x.toNat % 2 ^ w), s')
    | .error e => .error e

def zip3 (g : Nat → Nat → Nat → Nat) : List Nat → List Nat → List Nat → List Nat
  | x :: xs, y :: ys, z :: zs => g x y z :: zip3 g xs ys zs
  | _, _, _ => []

/-- The scalar shape (R187, R188): sources, then the destination. -/
def scalarInt (g : Nat → Bool → Nat → Nat → Nat → Nat) (f : Fields) (s : State) : Res State :=
  match s.src f.a with
  | .error e => .error e
  | .ok (a, s1) =>
    match s1.src f.b with
    | .error e => .error e
    | .ok (b, s2) => s2.dst f.d (ext64 f.width f.unsigned (g f.width f.unsigned (s.oldG f.d).toNat a.toNat b.toNat))

/-- The vector shape. -/
def vectorInt (g : Nat → Bool → Nat → Nat → Nat → Nat) (f : Fields) (s : State) : Res State :=
  match s.laneB f.b f.width with
  | .error e => .error e
  | .ok (b, s1) =>
    .ok (s1.dstV f.d (ofLanes f.width
      (zip3 (g f.width f.unsigned) (lanesOf f.width (s.srcV f.d)) (lanesOf f.width (s.srcV f.a)) b)))

/-- The integer entries of R197 by their lane result on d, a and b. -/
def intBody (g : Nat → Bool → Nat → Nat → Nat → Nat) (f : Fields) (s : State) : Res After :=
  match (match f.d with | .v _ => vectorInt g f s | _ => scalarInt g f s) with
  | .ok s' => .ok (.seq s')
  | .error e => .error e

/-- A lane result that does not read the old D. -/
def noD (g : Nat → Bool → Nat → Nat → Nat) : Nat → Bool → Nat → Nat → Nat → Nat := fun w u _ a b => g w u a b

/-- `ADD` (R197). -/
def execAdd (f : Fields) (s : State) : Out := s.issue 0x10 f (intBody (noD IntOp.add) f)
/-- `SUB` (R197). -/
def execSub (f : Fields) (s : State) : Out := s.issue 0x11 f (intBody (noD IntOp.sub) f)
/-- `MUL` (R197). -/
def execMul (f : Fields) (s : State) : Out := s.issue 0x12 f (intBody (noD IntOp.mul) f)
/-- `MULH` (R197). -/
def execMulh (f : Fields) (s : State) : Out := s.issue 0x13 f (intBody (noD IntOp.mulh) f)
/-- `MAD` (R197). -/
def execMad (f : Fields) (s : State) : Out := s.issue 0x14 f (intBody IntOp.mad f)
/-- `DIV` (R198). -/
def execDiv (f : Fields) (s : State) : Out := s.issue 0x15 f (intBody (noD IntOp.div) f)
/-- `REM` (R198). -/
def execRem (f : Fields) (s : State) : Out := s.issue 0x16 f (intBody (noD IntOp.rem) f)
/-- `ABS` (R197). -/
def execAbs (f : Fields) (s : State) : Out := s.issue 0x17 f (intBody (noD IntOp.abs) f)
/-- `MIN` (R197). -/
def execMin (f : Fields) (s : State) : Out := s.issue 0x18 f (intBody (noD IntOp.min) f)
/-- `MAX` (R197). -/
def execMax (f : Fields) (s : State) : Out := s.issue 0x19 f (intBody (noD IntOp.max) f)
/-- `ADDS` (R197). -/
def execAdds (f : Fields) (s : State) : Out := s.issue 0x1A f (intBody (noD IntOp.adds) f)
/-- `SUBS` (R197). -/
def execSubs (f : Fields) (s : State) : Out := s.issue 0x1B f (intBody (noD IntOp.subs) f)
/-- `AVG` (R197). -/
def execAvg (f : Fields) (s : State) : Out := s.issue 0x1C f (intBody (noD IntOp.avg) f)
/-- `SAD` (R197). -/
def execSad (f : Fields) (s : State) : Out := s.issue 0x1D f (intBody IntOp.sad f)
/-- `CLAMP` (R197). -/
def execClamp (f : Fields) (s : State) : Out := s.issue 0x1E f (intBody IntOp.clamp f)
/-- `AND` (R197). -/
def execAnd (f : Fields) (s : State) : Out := s.issue 0x20 f (intBody (noD IntOp.and) f)
/-- `OR` (R197). -/
def execOr (f : Fields) (s : State) : Out := s.issue 0x21 f (intBody (noD IntOp.or) f)
/-- `XOR` (R197). -/
def execXor (f : Fields) (s : State) : Out := s.issue 0x22 f (intBody (noD IntOp.xor) f)
/-- `ANDN` (R197). -/
def execAndn (f : Fields) (s : State) : Out := s.issue 0x23 f (intBody (noD IntOp.andn) f)
/-- `SHL` (R199). -/
def execShl (f : Fields) (s : State) : Out := s.issue 0x24 f (intBody (noD IntOp.shl) f)
/-- `SHR` (R199). -/
def execShr (f : Fields) (s : State) : Out := s.issue 0x25 f (intBody (noD IntOp.shr) f)
/-- `SAR` (R199). -/
def execSar (f : Fields) (s : State) : Out := s.issue 0x26 f (intBody (noD IntOp.sar) f)
/-- `ROL` (R199). -/
def execRol (f : Fields) (s : State) : Out := s.issue 0x27 f (intBody (noD IntOp.rol) f)
/-- `CLZ` (R199). -/
def execClz (f : Fields) (s : State) : Out := s.issue 0x28 f (intBody (noD IntOp.clz) f)
/-- `POPC` (R199). -/
def execPopc (f : Fields) (s : State) : Out := s.issue 0x29 f (intBody (noD IntOp.popc) f)
/-- `BREV` (R199). -/
def execBrev (f : Fields) (s : State) : Out := s.issue 0x2A f (intBody (noD IntOp.brev) f)
/-- `EXT` (R200). -/
def execExt (f : Fields) (s : State) : Out := s.issue 0x2B f (intBody (noD IntOp.ext) f)
/-- `INS` (R200). -/
def execIns (f : Fields) (s : State) : Out := s.issue 0x2C f (intBody IntOp.ins f)
/-- `HASH` (R201). -/
def execHash (f : Fields) (s : State) : Out := s.issue 0x2D f (intBody (noD IntOp.hash) f)
/-- `MIX` (R201). -/
def execMix (f : Fields) (s : State) : Out := s.issue 0x2E f (intBody IntOp.mix f)

end Sys2Proof.Machine
end

