-- ==== Sys2Proof/Machine/Control.lean ====
section
/-! DEFINITION. Control instructions, opcodes 0x00 to 0x0D (R190 to R196). -/

namespace Sys2Proof.Machine

/-- PC + 12 × a (R190), as an integer. -/
def State.relative (s : State) (a : Int) : Int := s.me.pc.toNat + 12 * a

/-- Transfer to an offset that the instruction computes: R172 tests the integer, and the pc holds it modulo 2^64, so that an offset
below 0 lies past the end of the code (DEDUCED, log 20). -/
def branchTo (s : State) (t : Int) : Res After :=
  if t % 12 = 0 then .ok (.goto (s.setHere (s.here.bump 0x13 1)) (BitVec.ofInt 64 t)) else .error (.trap 0x06 12 (BitVec.ofInt 64 t))

/-- `NOP` (R190). -/
def execNop (f : Fields) (s : State) : Out := s.issue 0x00 f (fun s => .ok (.seq s))

/-- `BRA` (R190). -/
def execBra (f : Fields) (s : State) : Out := s.issue 0x01 f (fun s =>
  match f.a with
  | .imm x => branchTo s (s.relative x.toInt)
  | _ => .ok (.seq s))

/-- `JMP` (R190). -/
def execJmp (f : Fields) (s : State) : Out := s.issue 0x02 f (fun s => jumpTo s (s.oldG f.a))

/-- `CALL` (R190): the target is taken before D is written. -/
def execCall (f : Fields) (s : State) : Out := s.issue 0x03 f (fun s =>
  match s.dst f.d (s.me.pc + 12) with
  | .ok s' =>
    match f.a with
    | .imm x => branchTo s' (s.relative x.toInt)
    | o => jumpTo s' (s.oldG o)
  | .error e => .error e)

/-- `RET` (R190, R191): a target equal to the recorded return address clears the light flag. -/
def execRet (f : Fields) (s : State) : Out := s.issue 0x04 f (fun s =>
  let target := match f.a with
    | .g n => s.me.readG n
    | _ => s.me.readG 31
  jumpTo (s.modMe (fun x => if x.light ∧ target = x.lightRet then { x with light := false } else x)) target)

/-- `LOOP` (R190): the decremented value decides, also for g0, whose write is ignored (R174). -/
def execLoop (f : Fields) (s : State) : Out := s.issue 0x05 f (fun s =>
  let d := s.oldG f.d - 1
  match s.dst f.d d with
  | .error e => .error e
  | .ok s' =>
    if d = 0 then .ok (.seq s')
    else
      match f.a with
      | .imm x => branchTo s' (s.relative x.toInt)
      | _ => .ok (.seq s'))

/-- `END` (R39, R192). The instruction issues and counts, then its firing ends. -/
def execEndFiring (f : Fields) (s : State) : Out := s.issue 0x06 f (fun s =>
  .ok (.gone (s.retire.endFiring s.cur s.curSlot)))

/-- `YIELD` (R192): gives way; no architectural state changes. -/
def execYield (f : Fields) (s : State) : Out := s.issue 0x07 f (fun s => .ok (.seq s))

/-- `JTAB` (R190). -/
def execJtab (f : Fields) (s : State) : Out := s.issue 0x08 f (fun s =>
  match f.b with
  | .imm x =>
    if x.toInt < 0 then .error (.trap 0x02 4 0)
    else branchTo s (s.relative (1 + min (s.oldG f.a).toNat x.toNat : Nat))
  | _ => .ok (.seq s))

/-- `TRAP` (R193). -/
def execTrap (f : Fields) (s : State) : Out := s.issue 0x09 f (fun s =>
  match s.src f.a with
  | .ok (a, _) => .error (.trap 0x14 a 0)
  | .error e => .error e)

/-- A wait at the barrier at a place ends: it acquires the flips that it observes, at system scope (R106, R110). One that was seen to end while
it stalled has acquired them (R194). That the flip and the wait are the release and the acquire which a later read through path 0x1 asks for, also
for the firing's own jobs, is the model's (DESIGN CHOICE, log 146). -/
def State.waited (s : State) (a : Nat) : State :=
  let s := s.demote true
  if s.me.met ≠ none then s else s.syncOn s.cur s.curSlot (s.systemScope s.myTenant) (s.syncAt a)
/-- One that ends as cancelled acquires the arrivals that have landed. -/
def State.waitedShort (s : State) (a : Nat) : State := (s.demote true).acquireShort s.cur s.curSlot a

/-- `WAITB` (R194). -/
def execWaitb (f : Fields) (s : State) : Out := s.issue 0x0A f (fun s =>
  match s.checkLocal (s.addr f.a 16) 16 16 with
  | .error e => .error e
  | .ok a =>
    match s.src f.b with
    | .error e => .error e
    | .ok (b, s) =>
      if immOutside f.b 0 1 then .error (.trap 0x02 4 0)
      else
        let ph := b.getLsbD 0
        -- a flip seen while it stalled ends the wait, with the word as it was then
        let w := s.me.met.getD (s.wordAt a)
        let quiet := s.me.kind = .wrapup ∧ s.outstanding s.me.launch = [] ∧ s.arrayBusy s.me.launch = false
        -- the barrier is met before the scoreboard (R40)
        if w.getLsbD 48 ≠ ph ∧ s.me.met = none ∧ ¬ quiet ∧ (s.scoreboarded a 16 ∨ s.badWord a 16 = none) then .error (.stall (.barrier a ph))
        else match s.unboarded a 16 (s.addr f.a 16) with
        | .error e => .error e
        | .ok _ =>
          if w.getLsbD 48 = ph ∨ s.me.met ≠ none then
            match (s.waited a).dst f.d w with
            | .ok s' => .ok (.seq s')
            | .error e => .error e
          else
            -- a wait that begins at a quiet point ends at once (R146)
            let w := w ||| word flagCancelled
            match ((s.pokeWord a w).waitedShort a).dst f.d w with
            | .ok s' => .ok (.seq s')
            | .error e => .error e)

/-- `WAITC` (R195). -/
def execWaitc (f : Fields) (s : State) : Out := s.issue 0x0B f (fun s =>
  match f.a with
  | .port p =>
    let n := match f.b with
      | .imm x => (sext x).toNat
      | o => (s.oldG o).toNat
    if immOutside f.b 1 1024 then .error (.trap 0x02 4 0)
    else if n > s.portDepth p.toNat then .error (.trap 0x02 4 0)
    else
      -- a count seen while it stalled ends the wait (R195: c is taken at each change)
      let c := s.me.met.getD (word (s.portCount p.toNat))
      if n ≤ c.toNat then
        match s.dst f.d c with
        | .ok s' => .ok (.seq s')
        | .error e => .error e
      else .error (.stall (.words p.toNat n))
  | _ => .ok (.seq s))

/-- `BRK` (R190, R193). -/
def execBrk (f : Fields) (s : State) : Out := s.issue 0x0C f (fun _ =>
  let a := match f.a with
    | .imm x => sext x
    | _ => 0
  .error (.trap 0x14 (a ||| 0x8000000000000000) 0))

/-- `SLEEP` (R192): the wake time is recorded at the first issue and kept in the slot. It is a number without a bound (DESIGN CHOICE, log
155). -/
def execSleep (f : Fields) (s : State) : Out := s.issue 0x0D f (fun s =>
  match s.src f.a with
  | .error e => .error e
  | .ok (a, s) =>
    if immOutside f.a 0 65535 then .error (.trap 0x02 3 0)
    else
      let t := match s.me.wake with
        | some t => t
        | none => s.now + a.toNat
      if t ≤ s.now then .ok (.seq (s.modMe (fun x => { x with wake := none })))
      else
        let s := s.setHere { s.here with wakes := Tab.set s.here.wakes s.curSlot t }
        .ok (.gone (s.modMe (fun x => { x with wake := some t, st := .stalled, stall := some (.sleep t) }))))

end Sys2Proof.Machine
end

