-- ==== Sys2Proof/Machine/Fetch.lean ====
section
/-! DEFINITION. Which slot issues next on a core (R35, R336), fetching (R23, R39, R172), and the clock that every step takes. -/

namespace Sys2Proof.Machine

/-- Slots that are ready, in slot order; the privileged handler's frame, 8, stands after the others (log 1). -/
def Core.readySlots (k : Core) : List Nat := (List.range 9).filter (fun n => (k.slot n).st == .running)

/-- The ready slot that follows the slot that issued last (R35). -/
def Core.nextSlot (k : Core) : Option Nat :=
  match k.readySlots.find? (fun n => decide (k.lastSlot < n)) with
  | some n => some n
  | none => k.readySlots.head?

/-- The slot issues: it is the current one, and the last of its core. -/
def State.select (s : State) (c n : Nat) : State := { s.modCore c (fun k => { k with lastSlot := n }) with cur := c, curSlot := n }

/-- The code that the current slot runs, and its length: the placed image's, or the privileged handler's. -/
def State.code (s : State) : Option (Mem × Nat) :=
  if s.privileged then some (s.privCode, s.privLen) else (s.image? s.cur).map (fun im => (im.code, im.codeLen))

/-- The bytes of one instruction at an offset of a code. -/
def codeBytes (m : Mem) (pc : Nat) : List Byte := (List.range 12).map (fun i => m.read (pc + i))

/-- Fetch and decode at the pc of the current slot. An offset at or past the end of the code is an illegal fetch (R39, R172). -/
def fetchAt (m : Mem) (len pc : Nat) : Instr :=
  if len ≤ pc then .illegalInstruction .pastEnd
  else match decodeBytes (codeBytes m pc) with
    | .ok (i, _) => i
    | .error _ => .illegalInstruction .pastEnd

/-- The bound of the routine of a sett of the current firing's launch (R124, R127): by the table index in the handle, for a sett that
the routine itself has released too. -/
def State.routineBound (s : State) (h : Word) : Nat :=
  let e := ((s.image? s.cur).bind (fun im => Tab.find im.setts (bitsOf h.toNat 23 16))).getD 0
  min (bitsOf e.toNat 35 22) (((s.launch? s.me.launch).map (·.boundCap)).getD 2048)

/-- What stands in an instruction's place when the firing's bound or budget is used up (R127, R143). -/
def State.boundHit (s : State) : Option Instr :=
  let x := s.me
  match x.kind with
  | .surrender => if s.routineBound x.surrSett ≤ x.count then some (.surrenderBoundExceeded s.cur s.curSlot) else none
  | .wrapup =>
    match s.myLaunch with
    | some l => if l.wrapBudget ≤ x.count then some (.wrapupBudgetExhausted s.cur s.curSlot) else none
    | none => none
  | _ => none

/-- What stands in an instruction's place once time is up: at the first boundary at or past the deadline the core
stops the launch, after which a surrender firing goes on (R141), and the wall budget stops wrap-up firings (R147). -/
def State.timeUp (s : State) : Option Instr :=
  let x := s.me
  match s.launch? x.launch with
  | some l =>
    if s.overdue s.cur x.launch then some (.deadlineExpiry x.launch s.cur)
    else if x.kind = .wrapup ∧ s.wallOver l = true then some (.wallBudgetExpiry x.launch)
    else none
  | none => none

/-- What the current slot issues. -/
def State.nextInstr (s : State) : Except Fault Instr :=
  match (if s.privileged then none else match s.timeUp with | some i => some i | none => s.boundHit) with
  | some i => .ok i
  | none =>
    match s.code with
    | some (m, len) => .ok (fetchAt m len s.me.pc.toNat)
    | none => .error (.noImage s.cur)

/-! ### Clocks and counters -/

/-- The event that a slot clock of a stall counts (R342). -/
def Stall.event : Stall → Nat
  | .portEmpty k => if k = 6 then 0 else 0x04
  | .portFull k => if k = 6 then 0 else 0x04
  | .words k _ => if k = 6 then 0 else 0x04
  | .credit _ => 0x04
  | .feBit _ _ => 0x05
  | .barrier _ _ => 0x06
  | .gang => 0x07
  | .scoreboard _ => 0x08
  | .entries _ => 0x08
  | .footprint _ => 0
  | .journal => 0x09
  | .completion => 0x09
  | .outQueue _ => 0x0A
  | .sleep _ => 0
  | .commit => 0
  | .request => 0
  | .release _ _ => 0
  | .spill _ _ => 0
  | .nisync => 0
  | .idle => 0
  | .array (some _) => 0x03
  | .array none => 0

/-- One core clock of a core: its stalled slots count (R342). -/
def Core.ticked (k : Core) : Core :=
  if k.perfsel.all (fun e => e.2 == 0) then k
  else k.slots.foldl (fun k x =>
    if x.2.st = .stalled then (match x.2.stall with | some w => k.bump w.event 1 | none => k) else k) k

/-- Events of the timing that the model leaves out (R342; log 15). -/
def timingEvents : List Nat := [0x02, 0x03, 0x0B, 0x0C, 0x0E, 0x0F]
/-- A core that counts them counts a free number in each clock, none without a Running slot: at most one for clocks, at most one for each
Running slot for slot clocks. -/
def State.timed (s : State) : State :=
  s.cores.foldl (fun s e =>
    if timingEvents.any (fun x => e.2.perfsel.any (fun p => p.2 == word x)) then
      let n := s.free.toNat
      let running := (e.2.slots.filter (fun x => x.2.st == .running)).length
      s.drew.modCore e.1 (fun k => (List.range timingEvents.length).foldl (fun k i =>
        let code := timingEvents.getD i 0
        k.bump code (bitsOf n (4 * i + 3) (4 * i) % (if code = 0x02 then min running 1 + 1 else running + 1))) k)
    else s) s

/-- Slewing moves device time by one ns in 2 µs, so by 500 ns in one ms, and never backwards (R135). -/
def State.slewed (s : State) : State :=
  if s.servo.slew = 0 ∨ s.clock % (2000 * s.perNs) ≠ 0 then s
  else if 0 < s.servo.slew then { s with timeBase := s.timeBase + 1, servo := { s.servo with slew := s.servo.slew - 1 } }
  else { s with timeBase := s.timeBase - 1, servo := { s.servo with slew := s.servo.slew + 1 } }

/-- One core clock passes (log 15); an input has been taken. -/
def State.tick (s : State) : State :=
  ({ s with clock := s.clock + 1, input := .none, cores := s.cores.map (fun e => (e.1, e.2.ticked)) } : State).timed.slewed

end Sys2Proof.Machine
end

