-- ==== Sys2Proof/Machine/Moves.lean ====
section
/-! DEFINITION. Moves, compares and lane moves, opcodes 0x30 to 0x3E (R202 to R210), and the reading of system registers (R179). -/

namespace Sys2Proof.Machine
open Sys2Proof.Num

/-! ### System registers (R179) -/

/-- A register below 0x800 of the issuing firing; none where the manual states no value, which is what the launch gives in the
privileged handler's frame (log 17). -/
def State.sysRead (s : State) (n : Nat) : Option Word :=
  let x := s.me
  let cl := clusterOf s.cur
  let own := s.myLaunch
  match n with
  | 0x000 => some (word s.now)
  | 0x001 => own.map (fun l => l.msg.getD 3 0)
  | 0x002 => own.map (fun l =>
      if l.deadline = 0 then word (2 ^ 63 - 1)
      else BitVec.ofInt 64 (s.slack l (Tab.get l.estimate s.here.estimates l.number)))
  | 0x003 => own.map (fun l => word (if x.kind = .wrapup then l.wrapBudget - x.count else l.wrapBudget))
  | 0x010 => some (word (s.cur % 8))
  | 0x011 => some (word cl)
  | 0x012 => some (word (cl / 128))
  | 0x013 => some (word (dieOf cl))
  | 0x014 => own.map (fun l => word (l.stageOf cl))
  | 0x015 => own.map (fun l => word l.base)
  | 0x016 => own.map (fun l => word l.size)
  | 0x017 => if s.privileged then none else some (word s.curSlot)
  | 0x020 => own.map (fun l => word (l.seq * 2 ^ 32 + l.number))
  | 0x021 => if s.privileged then none else some (word x.handler)
  | 0x022 => some (word x.qblock)
  | 0x023 => some (word x.meets)
  | 0x024 => own.map (fun l => word l.partw)
  | 0x025 => some (word s.features)
  | 0x026 => own.map (fun l => l.msg.getD 6 0)
  | 0x027 => own.map (fun l => l.crec)
  | 0x030 => some x.trapCause
  | 0x031 => some x.trapPc
  | 0x032 => some x.trapVal
  | 0x033 => some x.trapAddr
  | 0x040 => some x.surrSett
  | 0x041 => some (s.here.seed.setWidth 64)
  | _ => none

/-- A destination takes a value that the manual may leave open: then a free one (log 17). -/
def State.dstFree (s : State) (o : Operand) (v : Option Word) : Res State :=
  match v with
  | some v => s.dst o v
  | none => s.drew.dst o s.free

/-- Finish a body whose last part is the destination. -/
def seqOf (r : Res State) : Res After :=
  match r with
  | .ok s => .ok (.seq s)
  | .error e => .error e

/-! ### Moves -/

/-- `MOV` (R202). -/
def execMov (f : Fields) (s : State) : Out := s.issue 0x30 f (fun s =>
  match f.d with
  | .v _ => .ok (.seq (s.dstV f.d (s.srcV f.a)))
  | .p _ => .ok (.seq (s.dstP f.d (s.srcP f.a)))
  | .w _ => .ok (.seq (s.dstW f.d (s.srcW f.a)))
  | .m _ => .ok (.seq (s.dstM f.d (s.srcM f.a)))
  | _ =>
    match s.src f.a with
    | .ok (a, s) => seqOf (s.dst f.d a)
    | .error e => .error e)

/-- A chunk of R203: its lowest bit is 17 × c; chunk 3 holds 13 bits. -/
def depositChunk (d : Word) (c : Nat) (x : BitVec 17) : Word :=
  let n := if c = 3 then 13 else 17
  word (d.toNat - bitsOf d.toNat (17 * c + n - 1) (17 * c) * 2 ^ (17 * c) + x.toNat % 2 ^ n * 2 ^ (17 * c))

/-- `MOVH` (R203). -/
def execMovh (f : Fields) (s : State) : Out := s.issue 0x31 f (fun s =>
  match f.a with
  | .imm x => seqOf (s.dst f.d (depositChunk (s.oldG f.d) (f.bits 1 0) x))
  | _ => .ok (.seq s))

/-- Lanes chosen by the bits of a mask. -/
def selLanes (m : Nat) : Nat → List Nat → List Nat → List Nat
  | i, x :: xs, y :: ys => (if m.testBit i then x else y) :: selLanes m (i + 1) xs ys
  | _, _, _ => []

/-- `SEL` (R204). -/
def execSel (f : Fields) (s : State) : Out := s.issue 0x32 f (fun s =>
  let n : BitVec 3 := BitVec.ofNat 3 (f.bits 2 0)
  match f.d with
  | .p _ => .ok (.seq (s.dstP f.d (if s.me.readP n then s.srcP f.a else s.srcP f.b)))
  | .v _ =>
    match s.laneB f.b f.width with
    | .error e => .error e
    | .ok (b, s) => .ok (.seq (s.dstV f.d (ofLanes f.width (selLanes (s.me.readW n).toNat 0 (lanesOf f.width (s.srcV f.a)) b))))
  | _ =>
    match s.src f.a with
    | .error e => .error e
    | .ok (a, s1) =>
      match s1.src f.b with
      | .error e => .error e
      | .ok (b, s2) => seqOf (s2.dst f.d (if s2.me.readP n then a else b)))

/-- `CMP` (R205). -/
def execCmp (f : Fields) (s : State) : Out := s.issue 0x33 f (fun s =>
  match s.src f.a with
  | .error e => .error e
  | .ok (a, s1) =>
    match s1.src f.b with
    | .error e => .error e
    | .ok (b, s2) => .ok (.seq (s2.dstP f.d (intCond (f.bits 2 0) f.width f.unsigned a.toNat b.toNat))))

/-- `CMPV` (R205). -/
def execCmpv (f : Fields) (s : State) : Out := s.issue 0x3E f (fun s =>
  match s.laneB f.b f.width with
  | .error e => .error e
  | .ok (b, s) => .ok (.seq (s.dstW f.d (word (maskOf
      (List.zipWith (intCond (f.bits 2 0) f.width f.unsigned) (lanesOf f.width (s.srcV f.a)) b))))))

/-- `PAND`, `POR` and `PXOR` (R206) by the operation on one bit and on a word. -/
def predBody (g : Bool → Bool → Bool) (h : Word → Word → Word) (f : Fields) (s : State) : Res After :=
  let n := f.bit 0
  match f.d with
  | .w _ => let b := s.srcW f.b; .ok (.seq (s.dstW f.d (h (s.srcW f.a) (if n then ~~~b else b))))
  | _ => let b := s.srcP f.b; .ok (.seq (s.dstP f.d (g (s.srcP f.a) (if n then !b else b))))

/-- `PAND` (R206). -/
def execPand (f : Fields) (s : State) : Out := s.issue 0x34 f (predBody (· && ·) (· &&& ·) f)
/-- `POR` (R206). -/
def execPor (f : Fields) (s : State) : Out := s.issue 0x35 f (predBody (· || ·) (· ||| ·) f)
/-- `PXOR` (R206). -/
def execPxor (f : Fields) (s : State) : Out := s.issue 0x36 f (predBody (· != ·) (· ^^^ ·) f)

/-- `LEA` (R207); it has no `.u` (DEDUCED, log 123). -/
def execLea (f : Fields) (s : State) : Out := s.issue 0x37 f (fun s => seqOf (s.dst f.d (s.addr f.a (f.width / 8))))

/-- `MOVS` (R208): a read of a register below 0x800, or a write of SEED. -/
def execMovs (f : Fields) (s : State) : Out := s.issue 0x38 f (fun s =>
  match f.a with
  | .sys n => seqOf (s.dstFree f.d (s.sysRead n.toNat))
  | _ =>
    match s.src f.a with
    | .error e => .error e
    | .ok (a, s) => .ok (.seq (s.setHere { s.here with seed := if a.setWidth 32 = (0 : BitVec 32) then 1 else a.setWidth 32 })))

/-- Word j of a membership. -/
def memberWord (m : Members) (j : Nat) : Word := (m >>> (64 * j)).setWidth 64
def setMemberWord (m : Members) (j : Nat) (x : Word) : Members :=
  (m &&& ~~~((BitVec.allOnes 64).setWidth 256 <<< (64 * j))) ||| (x.setWidth 256 <<< (64 * j))

/-- `MOVW` (R209). -/
def execMovw (f : Fields) (s : State) : Out := s.issue 0x39 f (fun s =>
  match f.a with
  | .w _ => seqOf (s.dst f.d (s.srcW f.a))
  | .p _ => seqOf (s.dst f.d (word (boolNat (s.srcP f.a))))
  | .m _ =>
    match s.src f.b with
    | .error e => .error e
    | .ok (b, s) => if immOutside f.b 0 3 then .error (.field 4) else seqOf (s.dst f.d (memberWord (s.srcM f.a) (b.toNat % 4)))
  | _ =>
    match s.src f.a with
    | .error e => .error e
    | .ok (a, s1) =>
      match s1.src f.b with
      | .error e => .error e
      | .ok (b, s2) =>
        match f.d with
        | .w _ => .ok (.seq (s2.dstW f.d a))
        | .p _ => .ok (.seq (s2.dstP f.d (a != 0)))
        | _ => if immOutside f.b 0 3 then .error (.field 4) else .ok (.seq (s2.dstM f.d (setMemberWord (s2.srcM f.d) (b.toNat % 4) a))))

/-! ### Lane moves (R210) -/

/-- `IOTA` (R210). -/
def execIota (f : Fields) (s : State) : Out := s.issue 0x3A f (fun s =>
  match s.src f.a with
  | .error e => .error e
  | .ok (a, s1) =>
    match s1.src f.b with
    | .error e => .error e
    | .ok (b, s2) =>
      let b := if f.b = .none then 1 else b.toNat
      .ok (.seq (s2.dstV f.d (ofLanes f.width ((List.range (512 / f.width)).map (fun i => a.toNat + i * b))))))

/-- `BCAST` (R210). -/
def execBcast (f : Fields) (s : State) : Out := s.issue 0x3B f (fun s =>
  let n := 512 / f.width
  match f.a with
  | .v _ =>
    match s.src f.b with
    | .error e => .error e
    | .ok (b, s) => .ok (.seq (s.dstV f.d (ofLanes f.width (List.replicate n (elem f.width (s.srcV f.a).toNat (b.toNat % n))))))
  | _ =>
    match s.src f.a with
    | .error e => .error e
    | .ok (a, s) => .ok (.seq (s.dstV f.d (ofLanes f.width (List.replicate n a.toNat)))))

/-- `EXTL` (R210). -/
def execExtl (f : Fields) (s : State) : Out := s.issue 0x3C f (fun s =>
  match s.src f.b with
  | .error e => .error e
  | .ok (b, s) => seqOf (s.dst f.d (ext64 f.width f.unsigned (elem f.width (s.srcV f.a).toNat (b.toNat % (512 / f.width))))))

/-- `INSL` (R210). -/
def execInsl (f : Fields) (s : State) : Out := s.issue 0x3D f (fun s =>
  match s.src f.a with
  | .error e => .error e
  | .ok (a, s1) =>
    match s1.src f.b with
    | .error e => .error e
    | .ok (b, s2) =>
      .ok (.seq (s2.dstV f.d (BitVec.ofNat 512 (setElem f.width (s2.srcV f.d).toNat (b.toNat % (512 / f.width)) a.toNat)))))

end Sys2Proof.Machine
end

