-- ==== Sys2Proof/Machine/Float.lean ====
section
/-! DEFINITION. Floating point, conversions, block scales and planes, opcodes 0x40 to 0x5C (R211 to R223). -/

namespace Sys2Proof.Machine
open Sys2Proof.Num

/-- Round values in increasing lane order into a format, SEED advancing under .rs (R164, R166). -/
def State.rounded (s : State) (fmt mode : Nat) (sat : Bool) (vs : List XVal) : List Nat × State :=
  let r := roundAll fmt mode sat s.here.seed vs
  (r.1, s.setHere { s.here with seed := r.2 })

/-- A list of raw lane results from raw lanes of d, a and b. -/
abbrev LaneFun := Nat → Nat → Nat → XVal

/-- The shapes of R211: exact values of the lanes, rounded. -/
def floatBody (g : LaneFun) (f : Fields) (s : State) : Res After :=
  let w := fmtWidth f.fmt
  match f.d with
  | .v _ =>
    match s.laneB f.b w with
    | .error e => .error e
    | .ok (b, s1) =>
      let vs := (List.zip (lanesOf w (s1.srcV f.d)) (List.zip (lanesOf w (s1.srcV f.a)) b)).map (fun x => g x.1 x.2.1 x.2.2)
      let r := s1.rounded f.fmt f.rnd f.sat vs
      .ok (.seq (r.2.dstV f.d (ofLanes w r.1)))
  | _ =>
    match s.src f.a with
    | .error e => .error e
    | .ok (a, s1) =>
      match s1.src f.b with
      | .error e => .error e
      | .ok (b, s2) =>
        let r := s2.rounded f.fmt f.rnd f.sat [g ((s2.oldG f.d).toNat % 2 ^ w) (a.toNat % 2 ^ w) (b.toNat % 2 ^ w)]
        seqOf (r.2.dst f.d (word (r.1.getD 0 0)))

/-- The same shapes for results that take no rounding, as raw lanes (R213, R216). -/
def rawBody (g : Nat → Nat → Nat → Nat) (f : Fields) (s : State) : Res After :=
  let w := fmtWidth f.fmt
  match f.d with
  | .v _ =>
    match s.laneB f.b w with
    | .error e => .error e
    | .ok (b, s1) => .ok (.seq (s1.dstV f.d (ofLanes w (zip3 g (lanesOf w (s1.srcV f.d)) (lanesOf w (s1.srcV f.a)) b))))
  | _ =>
    match s.src f.a with
    | .error e => .error e
    | .ok (a, s1) =>
      match s1.src f.b with
      | .error e => .error e
      | .ok (b, s2) => seqOf (s2.dst f.d (word (g ((s2.oldG f.d).toNat % 2 ^ w) (a.toNat % 2 ^ w) (b.toNat % 2 ^ w))))

/-- An exact zero sum is −0 under .rd (R157). -/
def Fields.down (f : Fields) : Bool := f.rnd == 2
def fdec (f : Fields) (x : Nat) : XVal := decodeFloat f.fmt x

def two (f : Fields) (g : XVal → XVal → XVal) : LaneFun := fun _ a b => g (fdec f a) (fdec f b)
def three (f : Fields) (g : XVal → XVal → XVal → XVal) : LaneFun := fun d a b => g (fdec f d) (fdec f a) (fdec f b)
def one (f : Fields) (g : XVal → XVal) : LaneFun := fun _ a _ => g (fdec f a)

/-- `FADD` (R211). -/
def execFadd (f : Fields) (s : State) : Out := s.issue 0x40 f (floatBody (two f (XVal.add (Fields.down f))) f)
/-- `FSUB` (R211). -/
def execFsub (f : Fields) (s : State) : Out := s.issue 0x41 f (floatBody (two f (fun a b => XVal.add (Fields.down f) a b.neg)) f)
/-- `FMUL` (R211). -/
def execFmul (f : Fields) (s : State) : Out := s.issue 0x42 f (floatBody (two f XVal.mul) f)
/-- `FMA` (R211). -/
def execFma (f : Fields) (s : State) : Out := s.issue 0x43 f (floatBody (three f (fun d a b => XVal.add (Fields.down f) (a.mul b) d)) f)
/-- `FMS` (R211). -/
def execFms (f : Fields) (s : State) : Out := s.issue 0x44 f (floatBody (three f (fun d a b => XVal.add (Fields.down f) (a.mul b) d.neg)) f)
/-- `FNMA` (R211). -/
def execFnma (f : Fields) (s : State) : Out := s.issue 0x45 f (floatBody (three f (fun d a b => XVal.add (Fields.down f) d (a.mul b).neg)) f)
/-- `FMIN` (R213). -/
def execFmin (f : Fields) (s : State) : Out := s.issue 0x46 f (rawBody (fun _ a b => fminmax f.fmt false a b) f)
/-- `FMAX` (R213). -/
def execFmax (f : Fields) (s : State) : Out := s.issue 0x47 f (rawBody (fun _ a b => fminmax f.fmt true a b) f)

/-- The sign bit of an encoding set as wanted, NaN and bf16 subnormals as R213 says. -/
def withSign (c : Nat) (neg : Bool → Bool) (a : Nat) : Nat :=
  if isNanEnc c a then nanOf c
  else
    let w := fmtWidth c
    let a := flush c a
    a % 2 ^ (w - 1) + boolNat (neg (a.testBit (w - 1))) * 2 ^ (w - 1)

/-- `FABS` (R213). -/
def execFabs (f : Fields) (s : State) : Out := s.issue 0x48 f (rawBody (fun _ a _ => withSign f.fmt (fun _ => false) a) f)
/-- `FNEG` (R213). -/
def execFneg (f : Fields) (s : State) : Out := s.issue 0x49 f (rawBody (fun _ a _ => withSign f.fmt (fun n => !n) a) f)

/-- `FCMP` (R215). -/
def execFcmp (f : Fields) (s : State) : Out := s.issue 0x4A f (fun s =>
  let w := fmtWidth f.fmt
  let cond := floatCond (f.bits 2 0) (f.bit 3) f.fmt
  match f.d with
  | .w _ =>
    match s.laneB f.b w with
    | .error e => .error e
    | .ok (b, s1) => .ok (.seq (s1.dstW f.d (word (maskOf (List.zipWith cond (lanesOf w (s1.srcV f.a)) b)))))
  | _ =>
    match s.src f.a with
    | .error e => .error e
    | .ok (a, s1) =>
      match s1.src f.b with
      | .error e => .error e
      | .ok (b, s2) => .ok (.seq (s2.dstP f.d (cond (a.toNat % 2 ^ w) (b.toNat % 2 ^ w)))))

/-- `FCLASS` (R216). -/
def execFclass (f : Fields) (s : State) : Out := s.issue 0x4B f (rawBody (fun _ a _ => 2 ^ classOf f.fmt a) f)
/-- `FDIV` (R211, R212). -/
def execFdiv (f : Fields) (s : State) : Out := s.issue 0x4C f (floatBody (two f XVal.div) f)
/-- `FSQRT` (R211, R212). -/
def execFsqrt (f : Fields) (s : State) : Out := s.issue 0x4D f (floatBody (one f XVal.sqrt) f)
/-- `FRCP` (R211, R212). -/
def execFrcp (f : Fields) (s : State) : Out := s.issue 0x4E f (floatBody (one f XVal.recip) f)
/-- `FRSQ` (R211, R212). -/
def execFrsq (f : Fields) (s : State) : Out := s.issue 0x4F f (floatBody (one f XVal.rsqrt) f)
/-- `FEXP2` (R211, R212). -/
def execFexp2 (f : Fields) (s : State) : Out := s.issue 0x50 f (floatBody (one f XVal.exp2) f)
/-- `FLOG2` (R211, R212). -/
def execFlog2 (f : Fields) (s : State) : Out := s.issue 0x51 f (floatBody (one f XVal.log2) f)
/-- `FTANH` (R211, R212). -/
def execFtanh (f : Fields) (s : State) : Out := s.issue 0x52 f (floatBody (one f XVal.tanh) f)

/-- `FSCALE` (R214): n is b as a signed 64-bit integer, or in the vector shape each lane, or a sign-extended immediate. -/
def execFscale (f : Fields) (s : State) : Out := s.issue 0x53 f (fun s =>
  let w := fmtWidth f.fmt
  match f.d, f.b with
  | .v _, .imm x =>
    let r := s.rounded f.fmt f.rnd f.sat ((lanesOf w (s.srcV f.a)).map (fun a => (fdec f a).scale x.toInt))
    .ok (.seq (r.2.dstV f.d (ofLanes w r.1)))
  | .v _, _ => floatBody (fun _ a b => (fdec f a).scale (signed w b)) f s
  | _, _ =>
    match s.src f.a with
    | .error e => .error e
    | .ok (a, s1) =>
      match s1.src f.b with
      | .error e => .error e
      | .ok (b, s2) =>
        let r := s2.rounded f.fmt f.rnd f.sat [(fdec f (a.toNat % 2 ^ w)).scale b.toInt]
        seqOf (r.2.dst f.d (word (r.1.getD 0 0))))

/-! ### Conversions -/

/-- Replace n elements of width w from element i. -/
def setElems (w x i : Nat) : List Nat → Nat
  | [] => x
  | e :: es => setElems w (setElem w x i e) (i + 1) es

/-- `FCVT` (R217). -/
def execFcvt (f : Fields) (s : State) : Out := s.issue 0x54 f (fun s =>
  let src := f.bits 4 0
  let ws := fmtWidth src
  let wd := fmtWidth f.fmt
  match f.d with
  | .v _ =>
    match s.src f.b with
    | .error e => .error e
    | .ok (b, s1) =>
      let wm := Nat.max ws wd
      let n := 512 / wm
      let j := b.toNat % (wm / Nat.min ws wd)
      let a := (s1.srcV f.a).toNat
      let from' := if ws < wd then j * n else 0
      let r := s1.rounded f.fmt f.rnd f.sat ((List.range n).map (fun i => decode src (elem ws a (from' + i))))
      let d := if ws < wd then pack wd r.1 else setElems wd (s1.srcV f.d).toNat (j * n) r.1
      .ok (.seq (r.2.dstV f.d (BitVec.ofNat 512 d)))
  | _ =>
    match s.src f.a with
    | .error e => .error e
    | .ok (a, s1) =>
      let r := s1.rounded f.fmt f.rnd f.sat [decode src (a.toNat % 2 ^ ws)]
      seqOf (r.2.dst f.d (word (r.1.getD 0 0))))

/-- Values rounded to integers of width w in order, SEED advancing under .rs (R165, R166). -/
def State.roundedInts (s : State) (w : Nat) (u : Bool) (mode : Nat) (sat : Bool) (vs : List XVal) : List Nat × State :=
  let lo : Int := if u then 0 else -2 ^ (w - 1)
  let hi : Int := if u then 2 ^ w - 1 else 2 ^ (w - 1) - 1
  let r := vs.foldl (fun (acc : List Nat × BitVec 32) v =>
    let l := if mode = 5 then advance acc.2 else acc.2
    (acc.1 ++ [roundIntRange w lo hi mode sat (l.toNat % 2 ^ 24) v], l)) ([], s.here.seed)
  (r.1, s.setHere { s.here with seed := r.2 })

/-- `FTOI` (R218). -/
def execFtoi (f : Fields) (s : State) : Out := s.issue 0x55 f (fun s =>
  let w := fmtWidth f.fmt
  match f.d with
  | .v _ =>
    let r := s.roundedInts w (f.bit 4) f.rnd f.sat ((lanesOf w (s.srcV f.a)).map (fdec f))
    .ok (.seq (r.2.dstV f.d (ofLanes w r.1)))
  | _ =>
    match s.src f.a with
    | .error e => .error e
    | .ok (a, s1) =>
      let r := s1.roundedInts 64 (f.bit 4) f.rnd f.sat [fdec f (a.toNat % 2 ^ w)]
      seqOf (r.2.dst f.d (word (r.1.getD 0 0))))

/-- `ITOF` (R218). -/
def execItof (f : Fields) (s : State) : Out := s.issue 0x56 f (fun s =>
  let w := fmtWidth f.fmt
  match f.d with
  | .v _ =>
    let r := s.rounded f.fmt f.rnd f.sat ((lanesOf w (s.srcV f.a)).map (fun a => ofInt (intOf w (f.bit 4) a)))
    .ok (.seq (r.2.dstV f.d (ofLanes w r.1)))
  | _ =>
    match s.src f.a with
    | .error e => .error e
    | .ok (a, s1) =>
      let r := s1.rounded f.fmt f.rnd f.sat [ofInt (intOf 64 (f.bit 4) a.toNat)]
      seqOf (r.2.dst f.d (word (r.1.getD 0 0))))

/-- An encoding rounded to an integral value of its format (R219): no SEED, no saturation; a zero keeps the operand's sign. -/
def roundIntegral (c mode a : Nat) : Nat :=
  match decodeFloat c a with
  | .fin neg n d => roundFloat c 0 true 0 (.fin neg (roundNat mode neg 0 n d) 1)
  | .inf _ => a
  | .nan => nanOf c

/-- `FRND` (R219). -/
def execFrnd (f : Fields) (s : State) : Out := s.issue 0x57 f (rawBody (fun _ a _ => roundIntegral f.fmt f.rnd a) f)

/-- `FDOT` (R220). -/
def execFdot (f : Fields) (s : State) : Out := s.issue 0x58 f (fun s =>
  let w := fmtWidth f.fmt
  let terms := List.zipWith (fun a b => (fdec f a).mul (fdec f b)) (lanesOf w (s.srcV f.a)) (lanesOf w (s.srcV f.b))
  let r := s.rounded 0 f.rnd f.sat [xsum (Fields.down f) (f32 (s.oldG f.d).toNat :: terms)]
  seqOf (r.2.dst f.d (word (r.1.getD 0 0))))

/-! ### Block scales and planes -/

/-- emax of R221 by the block format's code. -/
def blockEmax (c : Nat) : Int :=
  if c = 23 then 8 else if c = 24 then 15 else if c = 25 then 4 else if c = 26 then 2 else if c = 27 then 2 else if c = 29 then 6 else 2

/-- The scale byte of one group, its exact value, and whether the elements are all +0 (R221). -/
def groupScale (c : Nat) (xs : List XVal) : Nat × XVal × Bool :=
  let special := xs.any (fun x => x.isNan || (match x with | .inf _ => true | _ => false))
  let amax := xs.foldl (fun m x => if m.le x.abs then x.abs else m) (.fin false 0 1)
  if special then (0xFF, .nan, true)
  else match amax with
    | .fin _ n d =>
      if n = 0 then (if c = 28 then 0x78 else 0x7F, .fin false 1 1, true)
      else if c = 28 then
        let b := roundUe5m3Up (XVal.div amax (.fin false 6 1))
        (b, decodeUe5m3 b, false)
      else
        let e := max (-127) (min 127 (ilog2 n d - blockEmax c))
        ((e + 127).toNat, pow2 false 1 e, false)
    | _ => (0xFF, .nan, true)

/-- One group quantised: its scale byte, and its elements, each of which is a result that SEED is threaded through (R166). -/
def State.quantise (s : State) (c mode : Nat) (xs : List XVal) : Nat × List Nat × State :=
  let sc := groupScale c xs
  if sc.2.2 then
    let r := s.rounded (elemFmt c) mode true (xs.map (fun _ => .fin false 0 1))
    (sc.1, xs.map (fun _ => 0), r.2)
  else
    let r := s.rounded (elemFmt c) mode true (xs.map (fun x => XVal.div x sc.2.1))
    (sc.1, r.1, r.2)

/-- `QNT` (R221). -/
def execQnt (f : Fields) (s : State) : Out := s.issue 0x59 f (fun s =>
  let c := f.fmt
  let src := f.bits 4 0
  let ws := fmtWidth src
  let a := lanesOf ws (s.srcV f.a)
  let xs := (if src = 0 then a ++ lanesOf ws (s.srcV f.b) else a).map (decodeFloat src)
  let we := fmtWidth (elemFmt c)
  if c = 28 then
    let r0 := s.quantise c f.rnd (xs.take 16)
    let r1 := r0.2.2.quantise c f.rnd (xs.drop 16)
    .ok (.seq (r1.2.2.dstV f.d (BitVec.ofNat 512 (pack we (r0.2.1 ++ r1.2.1) + r0.1 * 2 ^ 496 + r1.1 * 2 ^ 504))))
  else
    let r := s.quantise c f.rnd xs
    .ok (.seq (r.2.2.dstV f.d (BitVec.ofNat 512 (pack we r.2.1 + r.1 * 2 ^ 504)))))

/-- `DQNT` (R222). -/
def execDqnt (f : Fields) (s : State) : Out := s.issue 0x5A f (fun s =>
  match s.src f.b with
  | .error e => .error e
  | .ok (b, s1) =>
    if immOutside f.b 0 1 then .error (.field 4) else
    let c := f.bits 4 0
    let a := (s1.srcV f.a).toNat
    let we := fmtWidth (elemFmt c)
    let scale := fun i => decodeScale c (if c = 28 then elem 8 a (62 + i / 16) else elem 8 a 63)
    let out := fun i => (decode (elemFmt c) (elem we a i)).mul (scale i)
    let h := b.toNat % 2
    let wd := fmtWidth f.fmt
    let is := if f.fmt = 0 then (List.range 16).map (16 * h + ·) else List.range 32
    let r := s1.rounded f.fmt f.rnd f.sat (is.map out)
    .ok (.seq (r.2.dstV f.d (ofLanes wd r.1))))

/-- `PLSPLIT` (R223). -/
def execPlsplit (f : Fields) (s : State) : Out := s.issue 0x5B f (fun s =>
  match s.src f.b with
  | .error e => .error e
  | .ok (b, s1) =>
    if immOutside f.b 0 7 then .error (.field 4) else
    let p := b.toNat % 8
    let a := (s1.srcV f.a).toNat
    seqOf (s1.dst f.d (word (maskOf ((List.range 64).map (fun i => (elem 8 a i).testBit (7 - p)))))))

/-- `PLJOIN` (R223). -/
def execPljoin (f : Fields) (s : State) : Out := s.issue 0x5C f (fun s =>
  match s.src f.a with
  | .error e => .error e
  | .ok (a, s1) =>
    match s1.src f.b with
    | .error e => .error e
    | .ok (b, s2) =>
      if immOutside f.b 0 7 then .error (.field 4) else
      let q := 7 - b.toNat % 8
      let d := (s2.srcV f.d).toNat
      let lane := fun i => let x := elem 8 d i; x - boolNat (x.testBit q) * 2 ^ q + boolNat (a.getLsbD i) * 2 ^ q
      .ok (.seq (s2.dstV f.d (BitVec.ofNat 512 (pack 8 ((List.range 64).map lane))))))

end Sys2Proof.Machine
end

