-- ==== Sys2Proof/Machine/Vector.lean ====
section
/-! DEFINITION. Vector permutes, reductions, sorting and distances, opcodes 0x60 to 0x6D (R224 to R232). -/

namespace Sys2Proof.Machine
open Sys2Proof.Num

/-- Lane i of a list, 0 beyond its end. -/
def laneAt (l : List Nat) (i : Nat) : Nat := l.getD i 0

/-- Write the lanes of D. -/
def State.lanesD (s : State) (f : Fields) (w : Nat) (l : List Nat) : State := s.dstV f.d (ofLanes w l)

/-! ### Permutes (R225, R226) -/

/-- `VSHUF` (R225). -/
def execVshuf (f : Fields) (s : State) : Out := s.issue 0x60 f (fun s =>
  let w := f.width
  let a := lanesOf w (s.srcV f.a)
  .ok (.seq (s.lanesD f w ((lanesOf w (s.srcV f.b)).map (fun i =>
    if i.testBit (w - 1) then 0 else laneAt a (i % (512 / w)))))))

/-- `VPERM2` (R225). -/
def execVperm2 (f : Fields) (s : State) : Out := s.issue 0x61 f (fun s =>
  let w := f.width
  let t := lanesOf w (s.srcV f.a) ++ lanesOf w (s.srcV f.b)
  .ok (.seq (s.lanesD f w ((lanesOf w (s.srcV f.d)).map (fun i =>
    if i.testBit (w - 1) then 0 else laneAt t (i % (2 * (512 / w))))))))

/-- `VROT` (R225). -/
def execVrot (f : Fields) (s : State) : Out := s.issue 0x62 f (fun s =>
  match s.src f.b with
  | .error e => .error e
  | .ok (b, s) =>
    let w := f.width
    let n := 512 / w
    let a := lanesOf w (s.srcV f.a)
    .ok (.seq (s.lanesD f w ((List.range n).map (fun (i : Nat) =>
      if f.bit 0 then
        let j : Int := (i : Int) + b.toInt
        if 0 ≤ j ∧ j < n then laneAt a j.toNat else 0
      else laneAt a ((i + b.toNat % n) % n))))))

/-- `VZIP` (R225). -/
def execVzip (f : Fields) (s : State) : Out := s.issue 0x63 f (fun s =>
  let w := f.width
  let n := 512 / w
  let a := lanesOf w (s.srcV f.a)
  let b := lanesOf w (s.srcV f.b)
  let h := boolNat (f.bit 0)
  .ok (.seq (s.lanesD f w ((List.range n).map (fun i => laneAt (if i % 2 = 0 then a else b) (h * (n / 2) + i / 2))))))

/-- `VUNZIP` (R225). -/
def execVunzip (f : Fields) (s : State) : Out := s.issue 0x64 f (fun s =>
  let w := f.width
  let n := 512 / w
  let a := lanesOf w (s.srcV f.a)
  let b := lanesOf w (s.srcV f.b)
  let e := boolNat (f.bit 0)
  .ok (.seq (s.lanesD f w ((List.range n).map (fun i => if i < n / 2 then laneAt a (2 * i + e) else laneAt b (2 * (i - n / 2) + e))))))

/-- The lanes that a mask selects, in order (R226). -/
def compress (m : Nat) : Nat → List Nat → List Nat
  | _, [] => []
  | i, x :: xs => if m.testBit i then x :: compress m (i + 1) xs else compress m (i + 1) xs

/-- `VCOMP` (R226). -/
def execVcomp (f : Fields) (s : State) : Out := s.issue 0x65 f (fun s =>
  let w := f.width
  .ok (.seq (s.lanesD f w (compress (s.srcW f.b).toNat 0 (lanesOf w (s.srcV f.a))))))

/-- Old lanes with the selected ones taken from a in order, the others 0 when `z` (R226). -/
def expand (m : Nat) (z : Bool) : Nat → List Nat → List Nat → List Nat
  | _, [], _ => []
  | i, d :: ds, a =>
    if m.testBit i then a.headD 0 :: expand m z (i + 1) ds (a.drop 1)
    else (if z then 0 else d) :: expand m z (i + 1) ds a

/-- `VEXP` (R226). -/
def execVexp (f : Fields) (s : State) : Out := s.issue 0x66 f (fun s =>
  let w := f.width
  .ok (.seq (s.lanesD f w (expand (s.srcW f.b).toNat (f.bit 0) 0 (lanesOf w (s.srcV f.d)) (lanesOf w (s.srcV f.a))))))

/-- For each lane: does an earlier lane equal it? -/
def dupLanes : List Nat → List Nat → List Bool
  | _, [] => []
  | seen, x :: xs => seen.contains x :: dupLanes (x :: seen) xs

/-- `VMATCH` (R225). -/
def execVmatch (f : Fields) (s : State) : Out := s.issue 0x6C f (fun s =>
  let w := f.width
  let a := lanesOf w (s.srcV f.a)
  let bits := match f.b with
    | .v _ => let b := lanesOf w (s.srcV f.b); a.map (fun x => b.contains x)
    | _ => dupLanes [] a
  .ok (.seq (s.dstW f.d (word (maskOf bits)))))

/-! ### Reductions and scans (R227 to R229) -/

/-- Lane width of a reduction: the format's for the float operations. -/
def redWidth (f : Fields) : Nat := if f.bits 2 0 ≥ 5 then fmtWidth f.fmt else f.width

/-- The encoding of an operation's identity (R227). -/
def redIdentity (f : Fields) : Nat :=
  let w := redWidth f
  match f.bits 2 0 with
  | 0 => 0
  | 1 => wrap w (IntOp.maxOf w f.unsigned)
  | 2 => wrap w (IntOp.minOf w f.unsigned)
  | 3 => 2 ^ w - 1
  | 4 => 0
  | 5 => 2 ^ (w - 1)
  | _ => nanOf f.fmt

/-- A lane as a reduction reads it: float lanes with NaN canonical and bf16 subnormals as zero (R156, R157; DEDUCED, log 22). -/
def redLane (f : Fields) (x : Nat) : Nat :=
  if f.bits 2 0 < 5 then x else if isNanEnc f.fmt x then nanOf f.fmt else flush f.fmt x

/-- x ⊕ y of two values that take part (R227), with SEED. -/
def redStep (f : Fields) (l : BitVec 32) (x y : Nat) : Nat × BitVec 32 :=
  let w := redWidth f
  match f.bits 2 0 with
  | 0 => ((x + y) % 2 ^ w, l)
  | 1 => (IntOp.min w f.unsigned x y, l)
  | 2 => (IntOp.max w f.unsigned x y, l)
  | 3 => (x &&& y, l)
  | 4 => (x ||| y, l)
  | 5 => roundStep f.fmt f.rnd f.sat l (XVal.add (Fields.down f) (fdec f x) (fdec f y))
  | 6 => (fminmax f.fmt false x y, l)
  | _ => (fminmax f.fmt true x y, l)

/-- x ⊕ y where none is an identity operand: the other operand unchanged, and still one step for SEED (R227). -/
def redStep? (f : Fields) (l : BitVec 32) (x y : Option Nat) : Option Nat × BitVec 32 :=
  let l' := if f.bits 2 0 = 5 ∧ f.rnd = 5 then advance l else l
  match x, y with
  | none, y => (y, l')
  | x, none => (x, l')
  | some x, some y => let r := redStep f l x y; (some r.1, r.2)

/-- One stage of the tree (R228). -/
def redStage (f : Fields) : BitVec 32 → List (Option Nat) → List (Option Nat) × BitVec 32
  | l, x :: y :: r =>
    let z := redStep? f l x y
    let rest := redStage f z.2 r
    (z.1 :: rest.1, rest.2)
  | l, r => (r, l)

/-- The tree of R228 over k stages. -/
def redTree (f : Fields) : Nat → BitVec 32 → List (Option Nat) → List (Option Nat) × BitVec 32
  | 0, l, x => (x, l)
  | k + 1, l, x => let r := redStage f l x; redTree f k r.2 r.1

/-- Lanes with the excluded ones as none. -/
def maskedLanes (f : Fields) (m : Nat) (a : List Nat) : List (Option Nat) :=
  (List.range a.length).map (fun i => if m.testBit i then some (redLane f (laneAt a i)) else none)

/-- `VRED` (R228). -/
def execVred (f : Fields) (s : State) : Out := s.issue 0x67 f (fun s =>
  let w := redWidth f
  let r := redTree f 7 s.here.seed (maskedLanes f (s.srcW f.b).toNat (lanesOf w (s.srcV f.a)))
  let v := (r.1.headD none).getD (redIdentity f)
  let s := s.setHere { s.here with seed := r.2 }
  seqOf (s.dst f.d (if f.bits 2 0 ≥ 5 then word v else ext64 w f.unsigned v)))

/-- The running values of R229; `heads` restarts them. -/
def redScan (f : Fields) (heads : Nat → Bool) : Nat → BitVec 32 → Option Nat → List (Option Nat) → List Nat × BitVec 32
  | _, l, _, [] => ([], l)
  | i, l, acc, t :: ts =>
    let acc := if heads i then none else acc
    let r := redStep? f l acc t
    let rest := redScan f heads (i + 1) r.2 r.1 ts
    ((if f.bit 3 then acc else r.1).getD (redIdentity f) :: rest.1, rest.2)

/-- `VSCAN` (R229). -/
def execVscan (f : Fields) (s : State) : Out := s.issue 0x68 f (fun s =>
  let w := redWidth f
  let r := redScan f (fun _ => false) 0 s.here.seed none (maskedLanes f (s.srcW f.b).toNat (lanesOf w (s.srcV f.a)))
  .ok (.seq ((s.setHere { s.here with seed := r.2 }).lanesD f w r.1)))

/-- `VSEG` (R229). -/
def execVseg (f : Fields) (s : State) : Out := s.issue 0x6D f (fun s =>
  let w := redWidth f
  let m := s.srcW f.b
  let r := redScan f (fun i => i == 0 || m.getLsbD i) 0 s.here.seed none (maskedLanes f (2 ^ 64 - 1) (lanesOf w (s.srcV f.a)))
  .ok (.seq ((s.setHere { s.here with seed := r.2 }).lanesD f w r.1)))

/-! ### Sorting and top-k (R230, R231, R76) -/

/-- Insert before the first element that does not come before x. -/
def insertBy (le : α → α → Bool) (x : α) : List α → List α
  | [] => [x]
  | y :: ys => if le x y then x :: y :: ys else y :: insertBy le x ys

/-- A stable sort: equal elements keep their order. -/
def sortBy (le : α → α → Bool) (l : List α) : List α := l.foldr (insertBy le) []

/-- The order of result pairs: distance under totalorder, then the lower id (R76). -/
def pairLe (x y : Nat) : Bool :=
  let dx := orderKey 0 (x / 2 ^ 32 % 2 ^ 32)
  let dy := orderKey 0 (y / 2 ^ 32 % 2 ^ 32)
  decide (dx < dy) || (decide (dx = dy) && decide (x % 2 ^ 32 ≤ y % 2 ^ 32))

/-- Is key x at or before key y under the sort's key kind, ascending (R230)? -/
def sortLe (f : Fields) (x y : Nat) : Bool :=
  match f.bits 1 0 with
  | 0 => decide (intOf f.width f.unsigned x ≤ intOf f.width f.unsigned y)
  | 1 => decide (orderKey f.fmt x ≤ orderKey f.fmt y)
  | _ => pairLe x y

/-- `VSORT` (R230). -/
def execVsort (f : Fields) (s : State) : Out := s.issue 0x6A f (fun s =>
  let w := f.width
  let a := lanesOf w (s.srcV f.a)
  let le := fun (x y : Nat × Nat) => if f.bit 3 then sortLe f y.1 x.1 else sortLe f x.1 y.1
  let r := sortBy le (List.zip a (List.range a.length))
  .ok (.seq (s.lanesD f w (r.map (fun x => if f.bit 2 then x.2 else x.1)))))

/-- The empty pair (R231). -/
def emptyPair : Nat := 0x7FC00000FFFFFFFF
def pairEmpty (x : Nat) : Bool := isNanEnc 0 (x / 2 ^ 32 % 2 ^ 32)

/-- Drop pairs whose id an earlier pair has. -/
def uniqPairs : List Nat → List Nat → List Nat
  | _, [] => []
  | seen, x :: xs => if seen.contains (x % 2 ^ 32) then uniqPairs seen xs else x :: uniqPairs (x % 2 ^ 32 :: seen) xs

/-- The best k of a list and eight new pairs (R231). -/
def topK (k : Nat) (uniq : Bool) (old new : List Nat) : List Nat :=
  let c := sortBy pairLe ((old.take k ++ new).filter (fun x => !pairEmpty x))
  ((if uniq then uniqPairs [] c else c) ++ List.replicate k emptyPair).take k

/-- `VTOPK` (R231); k is checked before D (DEDUCED, log 124). -/
def execVtopk (f : Fields) (s : State) : Out := s.issue 0x69 f (fun s =>
  match s.src f.b with
  | .error e => .error e
  | .ok (b, s) =>
    let k := b.toNat
    if k = 0 ∨ k > 16 then .error (.trap 0x02 4 0)
    else
      let a := lanesOf 64 (s.srcV f.a)
      match f.d with
      | .v n =>
        if k ≤ 8 then
          .ok (.seq (s.lanesD f 64 (topK k (f.bit 0) (lanesOf 64 (s.me.readV n)) a ++ List.replicate (8 - k) emptyPair)))
        else if n.toNat % 2 = 1 then .error (.trap 0x02 2 0)
        else
          let r := topK k (f.bit 0) (lanesOf 64 (s.me.readV n) ++ lanesOf 64 (s.me.readV (n + 1))) a ++ List.replicate (16 - k) emptyPair
          .ok (.seq (s.modMe (fun x => (x.writeV n (ofLanes 64 (r.take 8))).writeV (n + 1) (ofLanes 64 (r.drop 8)))))
      | _ => .ok (.seq s))

/-! ### Distances (R232) -/

/-- The exact term of one lane: squared difference, or negated product. -/
def distTerm (dot : Bool) (fmt a b : Nat) : XVal :=
  let x := decode fmt a
  let y := decode fmt b
  if dot then (x.mul y).neg else let d := XVal.add false x y.neg; d.mul d

/-- Groups added to an f32 accumulator one after another, each rounded (R168, R232). -/
def distChain (mode : Nat) (sat : Bool) : BitVec 32 → Nat → List (List XVal) → Nat × BitVec 32
  | l, acc, [] => (acc, l)
  | l, acc, g :: gs =>
    let r := roundStep 0 mode sat l (xsum (mode == 2) (f32 acc :: g))
    distChain mode sat r.2 r.1 gs

/-- `VDIST` (R232). -/
def execVdist (f : Fields) (s : State) : Out := s.issue 0x6B f (fun s =>
  let w := fmtWidth f.fmt
  let terms := List.zipWith (distTerm (f.bit 0) f.fmt) (lanesOf w (s.srcV f.a)) (lanesOf w (s.srcV f.b))
  let r := distChain f.rnd f.sat s.here.seed ((s.oldG f.d).toNat % 2 ^ 32) (groups terms.length (groupSize f.fmt f.fmt) terms)
  seqOf ((s.setHere { s.here with seed := r.2 }).dst f.d (word r.1)))

end Sys2Proof.Machine
end

