-- ==== Sys2Proof/Machine/Membership.lean ====
section
/-! DEFINITION. Memberships, per-query records and walkers, opcodes 0x70 to 0x7D (R233 to R238). -/

namespace Sys2Proof.Machine
open Sys2Proof.Num

/-- The lowest n query slots. -/
def firstMembers (n : Nat) : Members := BitVec.ofNat 256 (2 ^ min n 256 - 1)

/-- `MSET` (R233). -/
def execMset (f : Fields) (s : State) : Out := s.issue 0x70 f (fun s =>
  match s.src f.b with
  | .error e => .error e
  | .ok (b, s) =>
    let bit : Members := BitVec.ofNat 256 (2 ^ (b.toNat % 256))
    let d := s.srcM f.d
    .ok (.seq (s.dstM f.d (match f.bits 2 0 with
      | 0 => 0
      | 1 => BitVec.allOnes 256
      | 2 => d ||| bit
      | 3 => d &&& ~~~bit
      | _ => firstMembers b.toNat))))

/-- B of `MAND`, `MOR` and `MANDN`: an m register, or bytes 0 to 31 of a v register (R233). -/
def State.membersB (s : State) (o : Operand) : Members :=
  match o with
  | .v n => (s.me.readV n).setWidth 256
  | o => s.srcM o

def memberBody (g : Members → Members → Members) (f : Fields) (s : State) : Res After :=
  .ok (.seq (s.dstM f.d (g (s.srcM f.a) (s.membersB f.b))))

/-- `MAND` (R233). -/
def execMand (f : Fields) (s : State) : Out := s.issue 0x71 f (memberBody (fun a b => a &&& b) f)
/-- `MOR` (R233). -/
def execMor (f : Fields) (s : State) : Out := s.issue 0x72 f (memberBody (fun a b => a ||| b) f)
/-- `MANDN` (R233). -/
def execMandn (f : Fields) (s : State) : Out := s.issue 0x73 f (memberBody (fun a b => a &&& ~~~b) f)

/-- The members of a set, lowest first. -/
def membersOf (m : Members) : List Nat := (List.range 256).filter (fun i => m.getLsbD i)

/-- `MCNT` (R233). -/
def execMcnt (f : Fields) (s : State) : Out := s.issue 0x74 f (fun s =>
  match s.src f.b with
  | .error e => .error e
  | .ok (b, s) =>
    let n := if f.b = .none then 256 else min b.toNat 256
    seqOf (s.dst f.d (word ((membersOf (s.srcM f.a)).filter (fun i => decide (i < n))).length)))

/-- `MFIND` (R233). -/
def execMfind (f : Fields) (s : State) : Out := s.issue 0x75 f (fun s =>
  match s.src f.b with
  | .error e => .error e
  | .ok (b, s) =>
    let ms := membersOf (s.srcM f.a)
    let r := if f.bit 0 then
        let top := if f.b = .none then 255 else min b.toNat 255
        (ms.filter (fun i => decide (i ≤ top))).getLast?
      else ms.find? (fun i => decide (b.toNat ≤ i))
    seqOf (s.dst f.d (word (r.getD 256))))

/-- `MSPLIT` (R233). -/
def execMsplit (f : Fields) (s : State) : Out := s.issue 0x76 f (fun s =>
  match f.d with
  | .m n =>
    if n.toNat % 2 = 1 then .error (.trap 0x02 2 0)
    else
      let a := s.srcM f.a
      let b := s.srcM f.b
      .ok (.seq (s.modMe (fun x => (x.writeM n (a &&& b)).writeM (n + 1) (a &&& ~~~b))))
  | _ => .ok (.seq s))

/-- Set or clear slots of a set by the bits of a mask, the i-th slot of the list by bit i (R234). -/
def scatterBits (m : Word) : Nat → List Nat → Members → Members
  | _, [], d => d
  | i, x :: xs, d =>
    let bit : Members := BitVec.ofNat 256 (2 ^ x)
    scatterBits m (i + 1) xs (if m.getLsbD i then d ||| bit else d &&& ~~~bit)

/-- `MPRED` (R234). -/
def execMpred (f : Fields) (s : State) : Out := s.issue 0x77 f (fun s =>
  let n := 512 / f.width
  let chunk := ((membersOf (s.srcM f.a)).drop (f.bits 4 0 * n)).take n
  .ok (.seq (s.dstM f.d (scatterBits (s.srcW f.b) 0 chunk (s.srcM f.d)))))

/-- `MTOV` (R234). -/
def execMtov (f : Fields) (s : State) : Out := s.issue 0x7B f (fun s =>
  match s.src f.b with
  | .error e => .error e
  | .ok (b, s) =>
    if f.bit 0 then
      let w := f.width
      let n := 512 / w
      let c := b.toNat % (max 1 (256 / n))
      let ms := ((membersOf (s.srcM f.a)).drop (c * n)).take n
      .ok (.seq (s.lanesD f w (ms ++ List.replicate (n - ms.length) (2 ^ w - 1))))
    else .ok (.seq (s.dstV f.d ((s.srcM f.a).setWidth 512))))

/-- `VTOM` (R234). -/
def execVtom (f : Fields) (s : State) : Out := s.issue 0x7C f (fun s =>
  if f.bit 0 then
    .ok (.seq (s.dstM f.d ((lanesOf f.width (s.srcV f.a)).foldl (fun d i => if i < 256 then d ||| BitVec.ofNat 256 (2 ^ i) else d) (s.srcM f.d))))
  else .ok (.seq (s.dstM f.d ((s.srcV f.a).setWidth 256))))

/-! ### Per-query records (R235, R236) -/

/-- `QLD` (R235). -/
def execQld (f : Fields) (s : State) : Out := s.issue 0x78 f (fun s =>
  match s.src f.b with
  | .error e => .error e
  | .ok (b, s) =>
    match s.reach (s.addr f.a 64 + word (b.toNat % 256 * 2 ^ (6 + f.bits 3 0))) 64 64 with
    | .error e => .error e
    | .ok a => .ok (.seq ((s.dstV f.d (BitVec.ofNat 512 (s.bytes a 64))).loadOrder 0 a 64)))

/-- A job of the firing that issues, with a fresh number. -/
def State.startJob (s : State) (op modf : Nat) (run : List Word) (bar : Word) (b declared total : Nat) : State :=
  let x := s.me
  s.addJob { Job.blank with
    opcode := op
    modf := modf
    run := run
    barrier := b
    barAddr := bar
    core := s.cur
    slot := s.curSlot
    fid := x.fid
    launch := x.launch
    tenant := (s.myLaunch.map (·.tenant)).getD s.here.tenant.toNat
    pc := x.pc
    know := x.order.seen
    fenced := x.order.fenced
    declared := declared
    total := total }

/-- `QST` (R236): the address on path 0x5, then the barrier, in this order (DESIGN CHOICE, log 157); 8 bytes declared for each cluster of the
field. -/
def execQst (f : Fields) (s : State) : Out := s.issue 0x79 f (fun s =>
  let t := s.addr f.a 8
  let bar := s.addr f.b 16
  if pathOf t ≠ 5 then .error (.trap 0x04 (word (pathOf t)) t)
  else match s.checkLocal t 8 8 with
    | .error e => .error e
    | .ok _ =>
      match s.checkLocal bar 16 16 with
      | .error e => .error e
      | .ok b =>
        if s.here.outReq.length ≥ 16 then .error (.stall (.outQueue 0))
        else
          let n := (s.myLaunch.map (·.size)).getD 0
          .ok (.seq (s.startJob 0x79 0 [t, s.oldG f.d, word (f.bits 1 0)] bar b (8 * n) n)))

/-! ### Walkers (R237, R238) -/

/-- `WALK` (R237). -/
def execWalk (f : Fields) (s : State) : Out := s.issue 0x7A f (fun s =>
  let h := f.bits 4 0
  if (s.here.handler h).kindBits ≠ 1 then .error (.trap 0x02 5 0)
  else match s.src f.a with
    | .error e => .error e
    | .ok (a, s) =>
      let b := s.srcM f.b
      if b = 0 then .ok (.seq s)
      else if s.here.outWalk.length ≥ 16 then .error (.stall (.outQueue 2))
      else
        let lane := fun i => elem 64 (s.srcV f.d).toNat i
        let x := s.me
        let m : Walker :=
          { depth := min (x.depth + 1) 2047
            handler := h
            key := a.toNat % 2 ^ 48
            launch := x.launch % 4096
            block := lane 2 % 256
            members := b
            carry6 := word (lane 0)
            carry7 := word (lane 1)
            seen := s.given }
        .ok (.seq ((s.setHere { s.here with outWalk := s.here.outWalk ++ [m] }).post (.walkerMessageArrival s.cur))))

/-- `MMEET` (R238): outside a walker firing a fault of cause 0x01; in a wrap-up firing, which R144 allows, no entry stands and nothing
changes (DEDUCED, log 23). A message that arrives later in the same fabric clock is absorbed as it arrives (`State.seat`). -/
def execMmeet (f : Fields) (s : State) : Out := s.issue 0x7D f (fun s =>
  let x := s.me
  if x.kind ≠ .walker ∧ x.kind ≠ .wrapup then .error (.illegal 0x7D)
  else match s.src f.a with
    | .error e => .error e
    | .ok (a, s) =>
      let cl := clusterOf s.cur
      let key := a.toNat % 2 ^ 48
      let asked : Absorb := ⟨s.fabric, s.cur, s.curSlot, x.fid, (match f.d with | .m n => n | _ => 0), x.launch, x.handler, x.qblock, key⟩
      let s := if x.kind = .walker then s.modCluster cl (fun k => { k with absorb := some asked }) else s
      match (s.cluster cl).warren.find? (fun e => e.msg.launch == x.launch && e.msg.handler == x.handler && e.msg.block == x.qblock &&
        e.msg.key == key && e.owner == s.cur) with
      | none => .ok (.seq s)
      | some e =>
        let h := s.here.handler x.handler
        let s := s.modMe (fun y => y.absorb h asked.dst e.msg e.meets)
        let s := s.modCluster cl (fun k => { k with warren := k.warren.filter (fun y => y.serial != e.serial) })
        .ok (.seq (s.overflowReturn cl)))

end Sys2Proof.Machine
end

