-- ==== Sys2Proof/Machine/LocalMem.lean ====
section
/-! DEFINITION. Loads, stores, full/empty accesses and local atomics, opcodes 0x80 to 0x8C (R239 to R244). -/

namespace Sys2Proof.Machine
open Sys2Proof.Num

/-- A completed load, or store, of n bytes at a with its order, demoted where it is at system scope (R106, R116). -/
def State.loaded (s : State) (f : Fields) (a n : Nat) : State := (s.demote (systemOrder f.modf.toNat)).loadOrder f.modf.toNat a n
def State.stored (s : State) (f : Fields) (a n : Nat) : State := (s.demote (systemOrder f.modf.toNat)).storeOrder f.modf.toNat a n

/-- A checked local access of an instruction whose ports are tested before the scoreboard (R40, R342; DEDUCED, log 127). -/
def State.reachAfter (s : State) (addr : Word) (n align : Nat) (ports : Res Unit) : Res Nat := do
  let a ← s.checkLocal addr n align
  ports
  s.unboarded a n addr
  pure a

/-- `LD` (R240). -/
def execLd (f : Fields) (s : State) : Out := s.issue 0x80 f (fun s =>
  match s.reachAfter (s.addr f.a 8) 8 8 (s.dstReady f.d) with
  | .error e => .error e
  | .ok a => seqOf ((s.loaded f a 8).dst f.d (s.wordAt a)))

/-- `ST` (R240). -/
def execSt (f : Fields) (s : State) : Out := s.issue 0x81 f (fun s =>
  match s.reachAfter (s.addr f.a 8) 8 8 (s.srcReady f.b) with
  | .error e => .error e
  | .ok a =>
    match s.src f.b with
    | .error e => .error e
    | .ok (b, s) => .ok (.seq ((s.pokeWord a b).stored f a 8)))

/-- `LDV` (R240). -/
def execLdv (f : Fields) (s : State) : Out := s.issue 0x82 f (fun s =>
  match s.reach (s.addr f.a 64) 64 8 with
  | .error e => .error e
  | .ok a => .ok (.seq ((s.dstV f.d (BitVec.ofNat 512 (s.bytes a 64))).loaded f a 64)))

/-- `STV` (R240). -/
def execStv (f : Fields) (s : State) : Out := s.issue 0x83 f (fun s =>
  match s.reach (s.addr f.a 64) 64 8 with
  | .error e => .error e
  | .ok a => .ok (.seq ((s.poke a 64 (s.srcV f.b).toNat).stored f a 64)))

/-- The places of the lanes that `LDX` and `STX` access, each checked in order; none for a skipped lane (R241). -/
def State.lanePlaces (s : State) (base : Word) (w : Nat) : List Nat → Res (List (Option Nat))
  | [] => .ok []
  | i :: is =>
    if i.testBit (w - 1) then
      match s.lanePlaces base w is with
      | .ok r => .ok (none :: r)
      | .error e => .error e
    else
      match s.checkLocal (base + word (i * (w / 8))) (w / 8) (w / 8) with
      | .error e => .error e
      | .ok a =>
        match s.lanePlaces base w is with
        | .ok r => .ok (some a :: r)
        | .error e => .error e

/-- The same, with the scoreboard's stall of the whole instruction. A misaligned base faults itself, after its path (R183, R241). -/
def State.laneReach (s : State) (f : Fields) : Res (List (Option Nat)) :=
  let w := f.width
  let base := s.addr f.a (w / 8)
  let none' := (lanesOf w (s.srcV f.b)).all (fun i => i.testBit (w - 1))
  if base.toNat % (w / 8) ≠ 0 ∧ (pathOf base = 4 ∨ pathOf base = 5 ∨ none' = true) then .error (.trap 0x06 (word (w / 8)) base)
  else match s.lanePlaces (s.addr f.a (w / 8)) w (lanesOf w (s.srcV f.b)) with
  | .error e => .error e
  | .ok l =>
    if l.any (fun a => match a with | some a => s.scoreboarded a (w / 8) | none => false) then .error (.stall (.scoreboard []))
    else match ((lanesOf w (s.srcV f.b)).zip l).findSome? (fun x =>
        (x.2.bind (fun a => s.badWord a (w / 8))).map (fun b => (b, base + word (x.1 * (w / 8))))) with
      | some (b, at') => .error (.uncorrectable b at')
      | none => .ok l

/-- The reads of a vector's lanes, in increasing order, as R106 and R107 order them. -/
def State.lanesLoaded (s : State) (l : List (Option Nat)) (n : Nat) : State :=
  l.foldl (fun (s : State) a => match a with | some a => s.loadOrder 0 a n | none => s) s

/-- `LDX` (R241). -/
def execLdx (f : Fields) (s : State) : Out := s.issue 0x84 f (fun s =>
  match s.laneReach f with
  | .error e => .error e
  | .ok l =>
    .ok (.seq ((s.lanesLoaded l (f.width / 8)).lanesD f f.width (l.map (fun a => match a with | some a => s.bytes a (f.width / 8) | none => 0)))))

/-- Store lanes in increasing order. -/
def State.storeLanes (s : State) (n : Nat) : List (Option Nat) → List Nat → State
  | some a :: as, x :: xs => ((s.poke a n x).storeOrder 0 a n).storeLanes n as xs
  | none :: as, _ :: xs => s.storeLanes n as xs
  | _, _ => s

/-- `STX` (R241). -/
def execStx (f : Fields) (s : State) : Out := s.issue 0x85 f (fun s =>
  match s.laneReach f with
  | .error e => .error e
  | .ok l => .ok (.seq (s.storeLanes (f.width / 8) l (lanesOf f.width (s.srcV f.d)))))

/-! ### Full/empty accesses (R242, R243) -/

/-- Could a waiting access take its word but for the bit: is what its slot stalls on beside it over (R88)? What remains beside its ports and its
word's scoreboard is the stall of a command that its word completes at k6 (R260). -/
def State.feWaits (s : State) (w : Waiter) : Bool :=
  let s : State := { s with cur := w.core, curSlot := w.slot }
  match s.me.stall with
  | none => true
  | some (.feBit _ _) => true
  | some (.scoreboard _) => !s.scoreboarded w.addr 8
  | some (.portEmpty p) => (s.peekPort p).isSome
  | some (.portFull p) => s.portRoom p
  | some _ => match s.push 6 (s.wordAt w.addr) with
    | .error (.stall _) => false
    | _ => true
/-- May the issuing slot's access proceed now: the bit is as it wants, and no other access that could proceed began waiting before it
(R88)? -/
def State.feReady (s : State) (a : Nat) (full : Bool) : Bool :=
  let before := ((s.cluster (clusterOf s.cur)).waiters.takeWhile (fun w => !(w.core == s.cur && w.slot == s.curSlot && w.addr == a)))
  s.isFull a == full && !before.any (fun w => w.addr == a && w.wantFull == full && s.feWaits w)

/-- The access proceeds: it waits no longer. -/
def State.feDone (s : State) : State := s.modCluster (clusterOf s.cur) (fun k => k.dropWaiters s.cur s.curSlot)

/-- The place of a full/empty access in its checks' order; its word's bit is met before the scoreboard (R40). -/
def State.feReach (s : State) (f : Fields) (a : Nat) (full : Bool) : Res Unit :=
  if s.feReady a full then s.unboarded a 8 (s.addr f.a 8) else .error (.stall (.feBit a full))

/-- `LDFE` (R242, R243). -/
def execLdfe (f : Fields) (s : State) : Out := s.issue 0x86 f (fun s =>
  match s.checkLocal (s.addr f.a 8) 8 8 with
  | .error e => .error e
  | .ok a =>
    match (do s.dstReady f.d; s.feReach f a true) with
    | .error e => .error e
    | .ok _ =>
      match (s.loaded f a 8).dst f.d (s.wordAt a) with
      | .error e => .error e
      | .ok s' => .ok (.seq (s'.feDone.markWord a false)))

/-- `LDFF` (R242, R243). -/
def execLdff (f : Fields) (s : State) : Out := s.issue 0x87 f (fun s =>
  match s.checkLocal (s.addr f.a 8) 8 8 with
  | .error e => .error e
  | .ok a =>
    match (do s.dstReady f.d; s.feReach f a true) with
    | .error e => .error e
    | .ok _ =>
      match (s.loaded f a 8).dst f.d (s.wordAt a) with
      | .error e => .error e
      | .ok s' => .ok (.seq s'.feDone))

/-- `STEF` (R242, R243). -/
def execStef (f : Fields) (s : State) : Out := s.issue 0x88 f (fun s =>
  match s.checkLocal (s.addr f.a 8) 8 8 with
  | .error e => .error e
  | .ok a =>
    match s.src f.b with
    | .error e => .error e
    | .ok (b, s') =>
      match s.feReach f a false with
      | .error e => .error e
      | .ok _ => .ok (.seq (((s'.pokeWord a b).stored f a 8).feDone.markWord a true)))

/-- `STXF` (R242). -/
def execStxf (f : Fields) (s : State) : Out := s.issue 0x89 f (fun s =>
  match s.reachAfter (s.addr f.a 8) 8 8 (s.srcReady f.b) with
  | .error e => .error e
  | .ok a =>
    match s.src f.b with
    | .error e => .error e
    | .ok (b, s) => .ok (.seq (((s.pokeWord a b).stored f a 8).markWord a true)))

/-- `FEMARK` (R242). -/
def execFemark (f : Fields) (s : State) : Out := s.issue 0x8A f (fun s =>
  match s.reach (s.addr f.a 8) 8 8 with
  | .error e => .error e
  | .ok a => .ok (.seq (s.markWord a (f.bit 0))))

/-- `FEPOLL` (R242). -/
def execFepoll (f : Fields) (s : State) : Out := s.issue 0x8B f (fun s =>
  match s.reach (s.addr f.a 8) 8 8 with
  | .error e => .error e
  | .ok a => .ok (.seq (s.dstP f.d (s.isFull a))))

/-- The new word of a local atomic (R244). -/
def latomWord (op : Nat) (old b d : Word) : Word :=
  match op with
  | 0 => old + b
  | 1 => old &&& b
  | 2 => old ||| b
  | 3 => old ^^^ b
  | 4 => umin old b
  | 5 => umax old b
  | 6 => if old.toInt ≤ b.toInt then old else b
  | 7 => if old.toInt ≤ b.toInt then b else old
  | 8 => b
  | _ => if old = d then b else old

/-- `LATOM` (R244). -/
def execLatom (f : Fields) (s : State) : Out := s.issue 0x8C f (fun s =>
  match s.reachAfter (s.addr f.a 8) 8 8 (do s.srcReady f.b; s.dstReady f.d) with
  | .error e => .error e
  | .ok a =>
    match s.src f.b with
    | .error e => .error e
    | .ok (b, s) =>
      let old := s.wordAt a
      seqOf (((s.pokeWord a (latomWord (f.bits 3 0) old b (s.oldG f.d))).chainOrder a).dst f.d old))

end Sys2Proof.Machine
end

