-- ==== Sys2Proof/Machine/Sync.lean ====
section
/-! DEFINITION. Barriers, fences, channels, gangs, handler entries and spawning, opcodes 0x90 to 0x9F (R245 to R258). -/

namespace Sys2Proof.Machine

/-! ### Barriers (R245, R246) -/

/-- The sources and checks that `BINIT`, `BEXPECT` and `BARRIVE` share: the byte count and the barrier's place. -/
def State.barrierOperands (s : State) (f : Fields) : Res (Nat × Nat × State) :=
  match s.reachAfter (s.addr f.a 16) 16 16 (s.srcReady f.b) with
  | .error e => .error e
  | .ok a =>
    match s.src f.b with
    | .error e => .error e
    | .ok (b, s) => if b.toNat ≥ 2 ^ 48 then .error (.field 4) else .ok (b.toNat, a, s)

/-- `BINIT` (R245): two plain stores. -/
def execBinit (f : Fields) (s : State) : Out := s.issue 0x90 f (fun s =>
  match s.barrierOperands f with
  | .error e => .error e
  | .ok (b, a, s) => .ok (.seq (((s.poke a 8 b).poke (a + 8) 8 b).storeOrder 0 a 16)))

/-- remaining + b and reload + b, each at most 2^48 − 1 with the overrun flag (R246). -/
def expectWords (w0 w1 b : Nat) (rl : Bool) : Nat × Nat :=
  let top := 2 ^ 48 - 1
  let r := barRemaining w0 + b
  let l := bitsOf w1 47 0 + b
  let ovr := decide (r > top) || (rl && decide (l > top))
  let w0 := barWord w0 (barPhase w0) (min r top)
  (if ovr then w0 ||| flagOverrun else w0, if rl then w1 / 2 ^ 48 * 2 ^ 48 + min l top else w1)

/-- `BEXPECT` (R245, R246). -/
def execBexpect (f : Fields) (s : State) : Out := s.issue 0x91 f (fun s =>
  match s.barrierOperands f with
  | .error e => .error e
  | .ok (b, a, s) =>
    let r := expectWords (s.wordAt a).toNat (s.wordAt (a + 8)).toNat b (f.bit 0)
    .ok (.seq ((s.poke a 8 r.1).poke (a + 8) 8 r.2)))

/-- `BARRIVE` (R245, R246): a release at system scope. -/
def execBarrive (f : Fields) (s : State) : Out := s.issue 0x92 f (fun s =>
  match s.barrierOperands f with
  | .error e => .error e
  | .ok (b, a, s) => .ok (.seq ((s.arrive s.myTenant s.cur a (a + 8) b 0 s.me.order.seen []).demote true)))

/-- What `BPOLL` orders: with .acq it acquires the flips that it observes, and counts a demotion whether it observes any or not (R106, R116;
DEDUCED, log 63); without, its read is a plain one. -/
def State.polled (s : State) (f : Fields) (a : Nat) : State :=
  if f.bits 2 1 = 1 then (let s := s.demote true; s.syncOn s.cur s.curSlot (s.systemScope s.myTenant) (s.syncAt a)) else s.loadOrder 0 a 8

/-- `BPOLL` (R245, R246). -/
def execBpoll (f : Fields) (s : State) : Out := s.issue 0x93 f (fun s =>
  match s.reachAfter (s.addr f.a 16) 16 16 (s.dstReady f.d) with
  | .error e => .error e
  | .ok a => seqOf ((s.polled f a).dst f.d (s.wordAt a)))

/-- `FENCE` (R247): it orders what path 0x1 reads return and what later stores release; the model's other accesses are in sequential
consistency (log 14). -/
def execFence (f : Fields) (s : State) : Out := s.issue 0x94 f (fun s =>
  .ok (.seq ((s.demote (bitOf f.modf.toNat 6 && Modf.scope f.modf.toNat == 4)).fence f.modf.toNat)))

/-! ### Sends (R248 to R253) -/

/-- Where a word goes: an output channel's number, or an engine-space address. -/
inductive Dest where
  | output (j : Nat)
  | address (a : Word)

/-- The checks of an engine-space channel address (R248). -/
def State.checkChannelAddr (s : State) (a : Word) : Res Unit :=
  let x := a.toNat
  if pathOf a ≠ 8 then .error (.trap 0x04 (word (pathOf a)) a)
  else if bitsOf x 59 56 ≠ 0 then .error (.trap 0x05 0 a)
  else match s.myLaunch with
    | none => .error (.trap 0x05 0 a)
    | some l =>
      if !l.inField (bitsOf x 47 37) then .error (.trap 0x05 (word (l.base + l.size)) a)
      else if bitsOf x 55 48 ≠ 0 ∨ bitsOf x 26 0 ≠ 0 ∨ !(s.here.handler (bitsOf x 33 29)).declares (bitsOf x 28 27) then .error (.trap 0x05 0 a)
      else .ok ()

/-- The destination operand A of a send (R249). -/
def State.sendDest (s : State) (op : Nat) (o : Operand) : Res (Dest × State) :=
  match o with
  | .imm x =>
    if x.toNat = 4 ∨ x.toNat = 5 then
      if outPresent ((s.here.handler s.me.handler).output x.toNat) && s.myLaunch.isSome then .ok (.output x.toNat, s) else .error (.illegal op)
    else .error (.field 3)
  | o =>
    match s.src o with
    | .error e => .error e
    | .ok (a, s) =>
      match s.checkChannelAddr a with
      | .error e => .error e
      | .ok _ => .ok (.address a, s)

/-- Unused reserved slots of output channel j. -/
def Slot.reserved (x : Slot) (j : Nat) : Nat := if j = 4 then x.out4 else x.out5
def Slot.useReserved (x : Slot) (j : Nat) : Slot := if j = 4 then { x with out4 := x.out4 - 1 } else { x with out5 := x.out5 - 1 }

/-- Free slots that the mirror of output channel j shows the issuing firing (R47). -/
def State.outFree (s : State) (j : Nat) : Nat :=
  match s.myLaunch with
  | none => 0
  | some l =>
    match s.outDest s.cur l s.me.handler j with
    | some (dc, h, ch, slots) => s.mirrorFree s.cur (destKey dc h ch) slots
    | none => 0

/-- The address that a word for a destination carries. -/
def State.destAddr (s : State) (d : Dest) : Word :=
  match d with
  | .address a => a
  | .output j =>
    match s.myLaunch.bind (fun l => s.outDest s.cur l s.me.handler j) with
    | some (dc, h, ch, _) => chanAddr dc h ch
    | none => 0

/-- Why a send cannot proceed, if it cannot: no credit, or no room in the queue (R250). -/
def State.sendBlocked (s : State) (d : Dest) (net : Nat) : Option Stall :=
  let q := if net = 0 then s.here.outReq else s.here.outRep
  let credit := match d with
    | .output j => if s.me.reserved j = 0 ∧ s.outFree j = 0 then some (Stall.credit j) else none
    | .address _ => none
  match credit with
  | some w => some w
  | none => if q.length ≥ 16 then some (.outQueue net) else none

/-- Enter a word in the outbound queue, its credit taken (R250). -/
def State.sendWord (s : State) (op : Nat) (d : Dest) (net : Nat) (w : Word) (tag : Bool) : State :=
  let addr := s.destAddr d
  let credited := match d with | .output _ => true | .address _ => false
  let s := match d with
    | .output j =>
      if s.me.reserved j > 0 then s.modMe (fun x => x.useReserved j)
      else match s.myLaunch.bind (fun l => s.outDest s.cur l s.me.handler j) with
        | some (dc, h, ch, _) => (s.takeMirror s.cur (destKey dc h ch) 1).evalRules s.cur
        | none => s
    | .address _ => s
  let q : OutWord := ⟨addr, w, tag, s.me.launch, credited, false, s.serial, s.me.pc, op, s.given⟩
  let s := { s with serial := s.serial + 1 }
  let s := s.setHere (if net = 0 then { s.here with outReq := s.here.outReq ++ [q] } else { s.here with outRep := s.here.outRep ++ [q] })
  s.post (.channelWordArrival s.cur net)

/-- `SEND` (R249, R250). -/
def execSend (f : Fields) (s : State) : Out := s.issue 0x95 f (fun s =>
  match s.sendDest 0x95 f.a with
  | .error e => .error e
  | .ok (d, s1) =>
    match s1.src f.b with
    | .error e => .error e
    | .ok (b, s2) =>
      match s2.sendBlocked d (f.bits 1 0) with
      | some w => .error (.stall w)
      | none => .ok (.seq (s2.sendWord 0x95 d (f.bits 1 0) b false)))

/-- `SENDT` (R249, R250, R252). -/
def execSendt (f : Fields) (s : State) : Out := s.issue 0x96 f (fun s =>
  match s.sendDest 0x96 f.a with
  | .error e => .error e
  | .ok (d, s1) =>
    match s1.src f.b with
    | .error e => .error e
    | .ok (b, s2) =>
      match s2.sendBlocked d (f.bits 1 0) with
      | some _ => .error (.trap 0x11 (word (f.bits 1 0)) (s2.destAddr d))
      | none => .ok (.seq (s2.sendWord 0x96 d (f.bits 1 0) b false)))

/-- `TRYSEND` (R249, R250). -/
def execTrysend (f : Fields) (s : State) : Out := s.issue 0x97 f (fun s =>
  match s.sendDest 0x97 f.a with
  | .error e => .error e
  | .ok (d, s1) =>
    match s1.src f.b with
    | .error e => .error e
    | .ok (b, s2) =>
      match s2.sendBlocked d (f.bits 1 0) with
      | some _ => .ok (.seq (s2.dstP f.d false))
      | none => .ok (.seq ((s2.sendWord 0x97 d (f.bits 1 0) b false).dstP f.d true)))

/-- A control value (R91, R253). -/
def controlValue (v : Word) : Bool := (decide (1 ≤ v.toNat) && decide (v.toNat ≤ 3)) || (decide (128 ≤ v.toNat) && decide (v.toNat ≤ 255))

/-- `CTRL` (R253). -/
def execCtrl (f : Fields) (s : State) : Out := s.issue 0x9A f (fun s =>
  match f.d with
  | .port p =>
    if p.toNat ≥ 6 then .error (.field 2)
    else match s.src f.a with
    | .error e => .error e
    | .ok (v, s) =>
      if !controlValue v then .error (.field 3)
      else seqOf (s.pushRing p.toNat v true)
  | _ =>
    match s.sendDest 0x9A f.a with
    | .error e => .error e
    | .ok (d, s1) =>
      match s1.src f.b with
      | .error e => .error e
      | .ok (v, s2) =>
        if !controlValue v then .error (.field 4)
        else match s2.sendBlocked d (f.bits 1 0) with
          | some w => .error (.stall w)
          | none => .ok (.seq (s2.sendWord 0x9A d (f.bits 1 0) v true)))

/-! ### Receives (R254) -/

/-- D and, for the .t forms, pN of a word that `RECV` or `PEEK` read. -/
def State.received (s : State) (f : Fields) (w : QWord) : Res State :=
  let s := if f.bit 3 then s.modMe (fun x => x.writeP (BitVec.ofNat 3 (f.bits 2 0)) w.tag) else s
  s.dst f.d w.word

/-- `RECV` (R254). -/
def execRecv (f : Fields) (s : State) : Out := s.issue 0x98 f (fun s =>
  match f.a with
  | .port p =>
    if f.bit 3 then
      match s.peekPort p.toNat with
      | none => .error (.stall (.portEmpty p.toNat))
      | some w => seqOf ((s.afterPop p.toNat).received f w)
    else
      match s.pop p.toNat with
      | .error e => .error e
      | .ok (w, s) => seqOf (s.dst f.d w)
  | _ => .ok (.seq s))

/-- `PEEK` (R254). -/
def execPeek (f : Fields) (s : State) : Out := s.issue 0x99 f (fun s =>
  match f.a with
  | .port p =>
    match s.peekPort p.toNat with
    | none => .error (.stall (.portEmpty p.toNat))
    | some w => seqOf ((s.acquired w.seen).received f w)
  | _ => .ok (.seq s))

/-- `CHCNT` (R254). -/
def execChcnt (f : Fields) (s : State) : Out := s.issue 0x9B f (fun s =>
  match f.a with
  | .port p => seqOf (s.dst f.d (word (s.portCount p.toNat)))
  | .imm x =>
    if x.toNat = 4 ∨ x.toNat = 5 then
      if outPresent ((s.here.handler s.me.handler).output x.toNat) then
        seqOf (s.dst f.d (word (s.outFree x.toNat + s.me.reserved x.toNat)))
      else .error (.illegal 0x9B)
    else .error (.field 3)
  | _ => .ok (.seq s))

/-! ### Gangs, handler entries, spawning (R255 to R257) -/

/-- `GANG` (R255): a token from a port stays there until the gang forms, so that a released request finds it again (R239; log 105). -/
def execGang (f : Fields) (s : State) : Out := s.issue 0x9C f (fun s =>
  match s.src f.a with
  | .error e => .error e
  | .ok (a, _) =>
    match s.here.gang with
    | none =>
      let port := match f.a with | .port p => (s.peekPort p.toNat).map (fun w => (p.toNat, w)) | _ => none
      let s := s.setHere { s.here with gang := some ⟨s.me.launch, a, s.curSlot, false, port⟩ }
      .ok (.gone ((s.stallMe .gang).post (.gangFormation (clusterOf s.cur))))
    | some g =>
      if g.slot = s.curSlot ∧ g.formed = true then .error (.trap 0x08 0 0) else .error (.stall .gang))

/-- Change word 0 of a handler entry of the issuing core, after the checks of R256 on its index. -/
def State.changeEntry (s : State) (a : Word) (g : Nat → Nat) : Res State :=
  let h := a.toNat
  if h > 31 then .error (.field 3)
  else
    let e := s.here.handler h
    if e.kindBits > 1 then .error (.field 3)
    else .ok (s.setHere { s.here with handlers := Tab.set s.here.handlers h { e with w0 := word (g e.w0.toNat) } })

/-- `HMASK` (R256). -/
def execHmask (f : Fields) (s : State) : Out := s.issue 0x9D f (fun s =>
  match s.src f.a with
  | .error e => .error e
  | .ok (a, s) => seqOf (s.changeEntry a (fun w => withBits w 21 21 (boolNat (f.bit 0)))))

/-- `HPRIO` (R256). -/
def execHprio (f : Fields) (s : State) : Out := s.issue 0x9E f (fun s =>
  match s.src f.a with
  | .error e => .error e
  | .ok (a, s1) =>
    match s1.src f.b with
    | .error e => .error e
    | .ok (b, s2) =>
      match s2.changeEntry a (fun w => withBits w 20 19 b.toNat) with
      | .error e => .error e
      | .ok s3 => if b.toNat > 3 then .error (.field 4) else .ok (.seq s3))

/-- `SPAWN` (R257). An entry for a core where the launch has stopped is discarded and counted (R141). The free count that the ring last
reported of a neighbour's queue may be lower than the true one: a free value says whether it shows room (log 17). -/
def execSpawn (f : Fields) (s : State) : Out := s.issue 0x9F f (fun s =>
  let h := f.bits 6 2
  if (s.here.handler h).kindBits ≠ 0 then .error (.field 5)
  else match s.src f.a with
    | .error e => .error e
    | .ok (a, s) =>
      let t := f.bits 1 0
      let c := if t = 1 then succOf s.cur else if t = 2 then predOf s.cur else s.cur
      let room := decide ((s.core c).tasks.length < 32) && (t == 0 || s.free.getLsbD 0)
      let s := if t = 0 then s else s.drew
      let s := if !room then s
        else if s.stopped c s.me.launch then s.countWords s.me.launch 1
        else (s.modCore c (fun k => { k with tasks := k.tasks ++ [⟨h, a, s.me.launch, s.given⟩] })).taskHead c
      .ok (.seq (s.dstP f.d room)))

end Sys2Proof.Machine
end

