-- ==== Sys2Proof/Machine/Engines.lean ====
section
/-! DEFINITION. Engine commands, job cards, engine messages, search and merge paths, opcodes 0xA0 to 0xAE and 0xC0 to 0xC2 (R259 to
R275): what the instruction does at issue. The course of a job is in Machine/Jobs.lean. -/

namespace Sys2Proof.Machine

/-- A command at issue: its run, its checks, its stalls, and the job that it becomes (R259, R260). -/
def commandBody (op n : Nat) (f : Fields) (s : State) : Res After :=
  let run := s.run f.b n
  let bar := s.addr f.a 16
  match s.checkCommand op f.modf.toNat run bar with
  | .error e => .error e
  | .ok (b, rs) => seqOf (s.issueCommand op f.modf.toNat run bar b rs none [])

/-- `COPY` (R262). -/
def execCopy (f : Fields) (s : State) : Out := s.issue 0xA0 f (commandBody 0xA0 3 f)

/-- `COPY2` (R262). -/
def execCopy2 (f : Fields) (s : State) : Out := s.issue 0xA1 f (commandBody 0xA1 5 f)

/-- `GET` (R262). -/
def execGet (f : Fields) (s : State) : Out := s.issue 0xA2 f (commandBody 0xA2 3 f)

/-- `PUT` (R262, R263). -/
def execPut (f : Fields) (s : State) : Out := s.issue 0xA3 f (commandBody 0xA3 3 f)

/-- `GETX` (R264). -/
def execGetx (f : Fields) (s : State) : Out := s.issue 0xA4 f (commandBody 0xA4 5 f)

/-- `PUTX` (R264). -/
def execPutx (f : Fields) (s : State) : Out := s.issue 0xA5 f (commandBody 0xA5 5 f)

/-- `AMO` (R265). -/
def execAmo (f : Fields) (s : State) : Out := s.issue 0xA6 f (commandBody 0xA6 6 f)

/-- `AMOX` (R266). -/
def execAmox (f : Fields) (s : State) : Out := s.issue 0xA7 f (commandBody 0xA7 5 f)

/-- `AMOF` (R265). -/
def execAmof (f : Fields) (s : State) : Out := s.issue 0xA8 f (commandBody 0xA8 7 f)

/-- `ROTATE` (R93, R268). -/
def execRotate (f : Fields) (s : State) : Out := s.issue 0xA9 f (fun s =>
  let run := s.run f.b 3
  let bar := s.addr f.a 16
  match s.checkCommand 0xA9 f.modf.toNat run bar with
  | .error e => .error e
  | .ok (b, rs) => seqOf (s.issueRotate f.modf.toNat run bar b rs))

/-- `JOB` (R269): the card is read as plain loads. A reserved bit in it faults as in the records that other instructions read (R5;
DEDUCED, log 24). -/
def execJob (f : Fields) (s : State) : Out := s.issue 0xAA f (fun s =>
  match s.reach (s.addr f.a 16) 96 8 with
  | .error e => .error e
  | .ok a =>
    match s.src f.b with
    | .error e => .error e
    | .ok (c, s) =>
      if c.toNat = 0 ∨ c.toNat > 16 then .error (.field 4)
      else if (List.range 6).any (fun i => bitsOf (s.wordAt (a + 16 * i + 8)).toNat 63 48 != 0) then .error (.field 3)
      else
        let card := (List.range 6).map (fun i => (s.wordAt (a + 16 * i), bitsOf (s.wordAt (a + 16 * i + 8)).toNat 47 0))
        .ok (.seq (s.modMe (fun x => { x with card := card, cover := c.toNat }))))

/-- `EMSG` (R270): the run's length follows from the header in its second word. -/
def execEmsg (f : Fields) (s : State) : Out := s.issue 0xAB f (fun s =>
  let m := s.emsgWords f.b
  let run := s.run f.b (m + 2)
  seqOf (s.sendCommand (rw run 0) false (rw run 1) (run.drop 2) (s.addr f.a 16)))

/-- `XSEND` (R274). -/
def execXsend (f : Fields) (s : State) : Out := s.issue 0xAC f (commandBody 0xAC 6 f)

/-- `XPOST` (R274). -/
def execXpost (f : Fields) (s : State) : Out := s.issue 0xAD f (commandBody 0xAD 3 f)

/-- `XGET` (R274). -/
def execXget (f : Fields) (s : State) : Out := s.issue 0xAE f (commandBody 0xAE 4 f)

/-- `SRCH` (R272). -/
def execSrch (f : Fields) (s : State) : Out := s.issue 0xC0 f (commandBody 0xC0 6 f)

/-- `SRCHF` (R272). -/
def execSrchf (f : Fields) (s : State) : Out := s.issue 0xC1 f (commandBody 0xC1 7 f)

/-- The search of R273 over an array, at most 33 halvings: each element is read by `read`, which may stall or meet an error. -/
def pathSearch (read : Nat → Except Halt Nat) (d : Nat) : Nat → Nat → Nat → Except Halt Nat
  | 0, lo, _ => .ok lo
  | k + 1, lo, hi =>
    if lo < hi then
      let mid := (lo + hi + 1) / 2
      match read (mid - 1) with
      | .error e => .error e
      | .ok x => if mid ≤ d ∧ x ≤ d - mid then pathSearch read d k mid hi else pathSearch read d k lo (mid - 1)
    else .ok lo

/-- One element of `MPATH`'s array, as a plain load of 4 bytes (R94, R273). -/
def State.readElement (s : State) (addr : Word) (j : Nat) : Except Halt Nat :=
  let a := s.ownPlace addr + 4 * j
  if s.scoreboarded a 4 then .error (.stall (.scoreboard []))
  else match s.badWord a 4 with
    | some w => .error (.uncorrectable w (addr + word (4 * j)))
    | none => .ok (s.bytes a 4)

/-- `MPATH` (R273): a fault of its range shows the access's address (R184). -/
def execMpath (f : Fields) (s : State) : Out := s.issue 0xC2 f (fun s =>
  let run := s.run f.b 2
  let n := bitsOf (rn run 1) 31 0
  let z := bitsOf (rn run 1) 63 32
  if bitsOf (rn run 0) 63 32 ≠ 0 then .error (.field 4)
  else
    let addr := s.addr f.a 4
    if n = 0 then
      if pathOf addr ≠ 4 ∧ pathOf addr ≠ 5 then .error (.trap 0x04 (word (pathOf addr)) addr) else seqOf (s.dst f.d 0)
    else match s.checkReach ⟨addr, pathsOwn, 4, 1, 0, 4 * n, false⟩ with
      | .error (.trap c v _) => .error (.trap c v addr)
      | .error e => .error e
      | .ok _ =>
        let d := min (rn run 0) (n + z)
        match pathSearch (s.readElement addr) d 33 (d - z) (min d n) with
        | .error e => .error e
        | .ok i => seqOf (s.dst f.d (word i)))

end Sys2Proof.Machine
end

