-- ==== Sys2Proof/Machine/Matrix.lean ====
section
/-! DEFINITION. The joint matrix array, opcodes 0xB0 to 0xB8 (R276 to R291): what the instructions do at issue, and what one member's
part of a formed operation computes. Forming and running are in Machine/Arrays.lean. -/

namespace Sys2Proof.Machine
open Sys2Proof.Num

/-! ### Slice shapes and tiles (R276, R277, R279, R280) -/

/-- The slice depth of a format's width class (R276). -/
def sliceDepth (c : Nat) : Nat :=
  if c = 0 then 4
  else if c = 1 ∨ c = 2 ∨ c = 8 then 16
  else if (3 ≤ c ∧ c ≤ 6) ∨ c = 9 ∨ c = 10 ∨ (19 ≤ c ∧ c ≤ 26) ∨ c = 29 then 32
  else 64

/-- Bytes of a tile image (R279). -/
def tileBytes (c : Nat) : Nat := if isPlanes c then (c - 14) * 2 * sliceDepth c else 2 * sliceDepth c * fmtWidth c
/-- Bytes of a tile's scales (R279): none for an unscaled format. -/
def scaleBytes (c : Nat) (sparse : Bool) : Nat :=
  if isPlanes c then 16 * (sliceDepth c / 32)
  else if isBlock c then 16 * (sliceDepth c * (1 + boolNat sparse) / groupOf c)
  else 0

/-- The exact value of an element with the scale byte of its group (R160). -/
def scaledValue (c x sc : Nat) : XVal := if isBlock c then (decode (elemFmt c) x).mul (decodeScale c sc) else decode c x

/-- The metadata entry of kept value i of column n (R280). -/
def Tile.entry (t : Tile) (n i : Nat) : Nat := elem 2 t.metadata (n * sliceDepth t.fmt + i)

/-- The stored position of logical row p of a column: none where the sparse form dropped it (R280). -/
def Tile.stored (t : Tile) (n p : Nat) : Option Nat :=
  if !t.sparse then some p
  else [2 * (p / 4), 2 * (p / 4) + 1].find? (fun i => t.entry n i == p % 4)

/-- The weight at logical row p of column n (R162, R279, R280). -/
def Tile.weight (t : Tile) (n p : Nat) : Option XVal :=
  let kw := sliceDepth t.fmt
  (t.stored n p).map (fun k =>
    if isPlanes t.fmt then
      let d := t.fmt - 14
      let x := (List.range d).foldl (fun x q => x + (t.weights >>> (q * 2 * kw * 8 + n * kw + k)) % 2 * 2 ^ (7 - q)) 0
      (ofInt (planeInt d x)).mul (decode 31 (elem 8 t.scales (n * (kw / 32) + k / 32)))
    else
      let g := groupOf t.fmt
      let depth := kw * (1 + boolNat t.sparse)
      scaledValue t.fmt (elem (fmtWidth t.fmt) t.weights (n * kw + k)) (elem 8 t.scales (n * (depth / g) + p / g)))

/-- Are the entries of every group strictly rising (R280)? -/
def risingEntries (kw metadata : Nat) : Bool :=
  (List.range (8 * kw)).all (fun i => decide (elem 2 metadata (2 * i) < elem 2 metadata (2 * i + 1)))

/-! ### What must hold at issue -/

/-- The launch holds its cluster's gang sett (R123, R130, R278). -/
def State.checkGangSett (s : State) : Except Halt Unit :=
  let cl := clusterOf s.cur
  let mine := (s.cluster cl).setts.filter (fun x => x.gang && x.launch == s.me.launch)
  match mine.find? (fun x => !x.isDisplaced), mine.head? with
  | some _, _ => .ok ()
  | none, some x => .error (.trap 0x07 (x.handle cl) 0)
  | none, none => .error (.trap 0x08 0 0)

/-- The slot is a member of a formed gang (R255, R278). -/
def State.checkMember (s : State) : Except Halt Unit := if s.inGang then .ok () else .error (.trap 0x08 0 0)

/-- A range of n rows from d lies in the accumulator (R283, R288). -/
def State.checkAccRows (s : State) (d n : Nat) : Except Halt Unit :=
  let lim := s.here.rows
  if d ≥ lim ∨ d + n > lim then .error (.trap 0x05 (word lim) (word (max d lim))) else .ok ()

/-- A memory operand that must stand in the scratchpad (R278). -/
def State.checkPool (s : State) (addr : Word) (n align : Nat) : Res Nat :=
  if pathOf addr ≠ 4 then .error (.trap 0x04 (word (pathOf addr)) addr) else s.checkLocal addr n align

/-- An own MSWAP that has not yet been applied (R280). -/
def State.swapPending (s : State) (c : Nat) : Bool :=
  let k := s.cluster (clusterOf c)
  k.gangIssued.any (fun p => p.core == c && p.opcode == 0xB1) || k.arrayOps.any (fun o => o.swap)

/-- Does a part of an operation name one of n rows from r? An MMAG may name any row (R285). -/
def ArrayPart.names (p : ArrayPart) (m r n : Nat) : Bool :=
  p.opcode != 0xB1 && (p.gathered || (decide (r < p.row + m) && decide (p.row < r + n)))
/-- M of a part's descriptor: word 2 stands last in what must agree. -/
def ArrayPart.rows (p : ArrayPart) : Nat := bitsOf (p.desc.getD 5 0).toNat 15 0

/-- An issued operation of core c that has not yet written one of n rows from r (R287). -/
def State.rowsBusy (s : State) (c r n : Nat) : Bool :=
  let k := s.cluster (clusterOf c)
  let hit := fun (p : ArrayPart) => p.core == c && !p.done && p.names p.rows r n
  k.gangIssued.any hit || k.arrayOps.any (fun o => o.parts.any hit)

/-- The interlock of R287 on n rows from r. -/
def State.interlock (s : State) (r n : Nat) : Except Halt Unit :=
  if s.rowsBusy s.cur r n then .error (.stall (.array (some (r, n)))) else .ok ()

def State.accRow (s : State) (c r : Nat) : AccRow := Tab.get AccRow.zero (s.core c).acc r
def State.setAccRow (s : State) (c r : Nat) (x : AccRow) : State := s.modCore c (fun k => { k with acc := Tab.set k.acc r x })

/-! ### Planes -/

/-- The plane key of a core: 0 stationary, 1 shadow. -/
def planeKey (c shadow : Nat) : Nat := 2 * (c % 8) + shadow
def State.plane (s : State) (c shadow : Nat) : Option Tile := Tab.find (s.cluster (clusterOf c)).planes (planeKey c shadow)
/-- The tile that will be stationary when an operation issued now forms (R281, R283). -/
def State.stationarySoon (s : State) (c : Nat) : Option Tile :=
  s.plane c (((s.cluster (clusterOf c)).arrayOps.filter (fun o => o.swap)).length % 2)

/-- Put a tile, or nothing, in a plane. -/
def putPlane (t : Tab Tile) (key : Nat) (x : Option Tile) : Tab Tile :=
  match x with
  | some y => Tab.set t key y
  | none => Tab.erase t key
/-- Exchange the planes of all eight slices (R281). -/
def swapPlanes (t : Tab Tile) : Tab Tile :=
  (List.range 8).foldl (fun r i => putPlane (putPlane r (2 * i) (Tab.find t (2 * i + 1))) (2 * i + 1) (Tab.find t (2 * i))) t

/-- `MLDS` (R279, R280). -/
def execMlds (f : Fields) (s : State) : Out := s.issue 0xB0 f (fun s => do
  let c := f.fmt
  let sp := f.bit 0
  let kw := sliceDepth c
  let a ← s.checkPool (s.addr f.a 64) 64 64
  s.checkGangSett
  if s.scoreboarded a 64 then throw (.stall (.scoreboard []))
  s.sound a 64 (s.addr f.a 64)
  let w := fun i => s.wordAt (a + 8 * i)
  let ns := scaleBytes c sp
  if w 3 ≠ 0 ∨ w 4 ≠ 0 ∨ w 5 ≠ 0 ∨ w 6 ≠ 0 ∨ w 7 ≠ 0 ∨ (ns = 0 ∧ w 1 ≠ 0) ∨ (sp = false ∧ w 2 ≠ 0) then throw (.field 3)
  let at' ← s.checkPool (w 0) (tileBytes c) 8
  let as' ← if ns = 0 then pure 0 else s.checkPool (w 1) ns 1
  let am ← if sp then s.checkPool (w 2) (4 * kw) 1 else pure 0
  if s.scoreboarded at' (tileBytes c) || (decide (0 < ns) && s.scoreboarded as' ns) || (sp && s.scoreboarded am (4 * kw)) then
    throw (.stall (.scoreboard []))
  s.sound at' (tileBytes c) (w 0)
  s.sound as' ns (w 1)
  s.sound am (if sp then 4 * kw else 0) (w 2)
  if s.swapPending s.cur then throw (.stall (.array none))
  let t : Tile := ⟨c, sp, s.bytes at' (tileBytes c), s.bytes as' ns, if sp then s.bytes am (4 * kw) else 0⟩
  if sp && !risingEntries kw t.metadata then throw (.field 3)
  pure (.seq (s.modCluster (clusterOf s.cur) (fun k => { k with planes := Tab.set k.planes (planeKey s.cur 1) t }))))

/-- A member's part joins its gang's; the core's gang request is used (R255). -/
def State.joinArray (s : State) (p : ArrayPart) : State :=
  let cl := clusterOf s.cur
  (s.usedGang.modCluster cl (fun k => { k with
    gangIssued := k.gangIssued ++ [p]
    gangMembers := k.gangMembers.filter (· != s.cur) })).post (.arrayOperationForm cl)

/-- A part of this slot, before its operands. -/
def State.newPart (s : State) (op : Nat) : ArrayPart where
  core := s.cur
  row := 0
  acc := false
  n := 0
  accList := 0
  barrier := 0
  desc := []
  opcode := op
  gathered := false
  launch := s.me.launch
  fid := s.me.fid
  bytes := 0
  before := s.nextJob
  know := s.me.order.seen
  done := false

/-- `MSWAP` (R281). -/
def execMswap (f : Fields) (s : State) : Out := s.issue 0xB1 f (fun s => do
  s.checkGangSett
  s.checkMember
  pure (.seq (s.joinArray (s.newPart 0xB1))))

/-- The fields of a stream descriptor's word 2 (R282). -/
def streamFmt (w2 : Word) : Nat := bitsOf w2.toNat 36 32
def streamN (w2 : Word) : Nat := bitsOf w2.toNat 28 24
def streamK (w2 : Word) : Nat := bitsOf w2.toNat 23 16
def streamM (w2 : Word) : Nat := bitsOf w2.toNat 15 0

/-- The most elements of K that an operation may stream: the wider class's depth, doubled for a sparse tile (R276, R282). -/
def depthLimit (afmt : Nat) (t : Option Tile) : Nat :=
  match t with
  | none => sliceDepth afmt
  | some t => min (sliceDepth afmt) (sliceDepth t.fmt) * (1 + boolNat t.sparse)

/-- The limits of R282 on a stream descriptor of eight words. -/
def streamOk (gathered : Bool) (t : Option Tile) (w : List Word) : Bool :=
  let n := fun i => (w.getD i 0).toNat
  let p := fun i => pathOf (w.getD i 0)
  let c := streamFmt (w.getD 2 0)
  p 0 == 5 && n 0 % 8 == 0 && bitsOf (n 1) 63 32 == 0 && n 1 % 8 == 0 &&
  bitsOf (n 2) 63 37 == 0 && bitsOf (n 2) 31 29 == 0 && (decide (c ≤ 15) || isBlock c) &&
  decide (streamN (w.getD 2 0) ≤ 16) && decide (streamK (w.getD 2 0) ≤ depthLimit c t) && decide (streamM (w.getD 2 0) ≤ 1280) &&
  (if isBlock c then p 3 == 5 else n 3 == 0) && bitsOf (n 4) 63 32 == 0 &&
  (if gathered then p 5 == 5 && n 5 % 4 == 0 && p 6 == 4 && n 6 % 2 == 0 else n 5 == 0 && n 6 == 0) && n 7 == 0

/-- Bytes of one A row and of one row of its scales (R282). -/
def rowBytes (afmt k : Nat) : Nat := (k * fmtWidth (elemFmt afmt) + 7) / 8
def rowScales (afmt k : Nat) : Nat := if isBlock afmt then (k + groupOf afmt - 1) / groupOf afmt else 0

/-- The regions that an operation checks at issue (R283 step 3). -/
def streamReaches (gathered : Bool) (w : List Word) : List Reach :=
  let x := fun i => w.getD i 0
  let c := streamFmt (x 2)
  let m := streamM (x 2)
  let k := streamK (x 2)
  if gathered then [.span (x 5) [5] 4 (4 * m) false, .span (x 6) [4] 2 (2 * m) false]
  else if m = 0 ∨ k = 0 then []
  else ⟨x 0, [5], 1, m, bitsOf (x 1).toNat 31 0, rowBytes c k, false⟩ ::
    (if isBlock c then [⟨x 3, [5], 1, m, bitsOf (x 4).toNat 31 0, rowScales c k, false⟩] else [])

/-- The words of a stream descriptor that all members must agree in (R283): 0, 1, 3, 4, 5, and 2 without N. -/
def streamAgree (w : List Word) : List Word :=
  let x := fun i => w.getD i 0
  [x 0, x 1, x 3, x 4, x 5, word (withBits (x 2).toNat 28 24 0)]

/-- What `MMA` and `MMAG` do at issue (R283). -/
def streamBody (op : Nat) (gathered : Bool) (f : Fields) (s : State) : Res After := do
  let row := match f.d with | .row n => n.toNat | _ => 0
  let a ← s.checkPool (s.addr f.a 64) 64 64
  let bar ← s.checkLocal (s.addr f.b 16) 16 16
  s.checkGangSett
  s.checkMember
  if s.scoreboarded a 64 then throw (.stall (.scoreboard []))
  s.sound a 64 (s.addr f.a 64)
  let w := (List.range 8).map (fun i => s.wordAt (a + 8 * i))
  if !streamOk gathered (s.stationarySoon s.cur) w then throw (.field 3)
  let w2 := w.getD 2 0
  s.checkAccRows row (if gathered then 1 else streamM w2)
  s.checkReaches (streamReaches gathered w)
  -- the accumulator list is an own source that the operation reads later (R94)
  if gathered && s.scoreboarded (poolAt s.cur (bitsOf (w.getD 6 0).toNat 16 0)) (2 * streamM w2) then throw (.stall (.scoreboard []))
  pure (.seq (s.joinArray { s.newPart op with
    row := row
    acc := f.bit 0
    n := streamN w2
    accList := w.getD 6 0
    barrier := bar
    desc := streamAgree w
    gathered := gathered
    bytes := streamM w2 * streamN w2 * 4 }))

/-- `MMA` (R282, R283). -/
def execMma (f : Fields) (s : State) : Out := s.issue 0xB2 f (streamBody 0xB2 false f)
/-- `MMAG` (R282, R283). -/
def execMmag (f : Fields) (s : State) : Out := s.issue 0xB3 f (streamBody 0xB3 true f)

/-! ### What a formed operation computes for one member (R284 to R286) -/

/-- group_acc of R168 over terms of which some are absent: groups are taken by position. -/
def groupAccGaps (g acc : Nat) (terms : List (Option XVal)) : Nat :=
  (groups terms.length g terms).foldl (fun acc t => roundFloat 0 0 false 0 (XVal.add false (f32 acc) (groupSum (t.filterMap id)))) acc

/-- An exact integer value as an integer. -/
def XVal.int : XVal → Int
  | .fin neg n d => snum neg n / d
  | _ => 0

/-- One lane of one row (R284). -/
def laneResult (ints acc : Bool) (g old : Nat) (terms : List (Option XVal)) : Nat × Bool :=
  if ints then
    let r := s32Acc g (if acc then signed 32 old else 0) (terms.map (fun t => match t with | some v => XVal.int v | none => 0))
    (wrap 32 r.1, r.2)
  else (groupAccGaps g (if acc then old else 0x80000000) terms, false)

/-- Elements of an A row with their scales as exact values (R160, R282). -/
def rowValues (afmt k bytes scales : Nat) : List XVal :=
  let c := elemFmt afmt
  (List.range k).map (fun e => scaledValue afmt (elem (fmtWidth c) bytes e) (elem 8 scales (e / groupOf afmt)))

/-- One accumulator row after an operation's row a is applied to n columns of a tile (R284). -/
def AccRow.applied (r : AccRow) (t : Tile) (afmt n : Nat) (acc : Bool) (a : List XVal) : AccRow :=
  let ints := decide (8 ≤ afmt) && decide (afmt ≤ 15) && decide (8 ≤ t.fmt) && decide (t.fmt ≤ 15)
  let g := groupSize afmt t.fmt
  let terms := fun c => (List.range a.length).map (fun k => (t.weight c k).map (fun w => (a.getD k .nan).mul w))
  let res := (List.range n).map (fun c => laneResult ints acc g (elem 32 r.lanes.toNat c) (terms c))
  { lanes := BitVec.ofNat 512 (setElems 32 r.lanes.toNat 0 (res.map (·.1)))
    s32 := ints
    ovf := (acc && r.ovf) || res.any (·.2) }

/-- The row when K is 0 in overwrite mode (R286). -/
def AccRow.cleared (r : AccRow) (n : Nat) (ints : Bool) : AccRow :=
  { lanes := BitVec.ofNat 512 (setElems 32 r.lanes.toNat 0 (List.replicate n 0)), s32 := ints, ovf := false }

/-- n bytes of the own store that a gathering operation reads: none where they do not all lie in the store or meet a granule that the
launch may not read (R285). -/
def State.storeRead (s : State) (cl l : Nat) (addr : Word) (n : Nat) : Option Nat :=
  let off := bitsOf addr.toNat 18 0
  if pathOf addr ≠ 5 ∨ bitsOf addr.toNat 59 19 ≠ 0 ∨ off + n > 524288 then none
  else match checkGranules (s.cluster cl) cl l addr (granulesOf off n) with
    | .ok _ => some (s.bytes (storeAt cl off) n)
    | .error _ => none

/-- The A row with number j, with its scales (R282, R285). -/
def State.gatherRow (s : State) (o : ArrayOp) (cl l j : Nat) : Option (Option (Nat × Nat)) :=
  if j ≥ 2 ^ 31 then some none
  else match s.storeRead cl l (o.base + word (j * o.stride)) (rowBytes o.afmt o.k) with
    | none => none
    | some x =>
      if isBlock o.afmt then (s.storeRead cl l (o.ascales + word (j * o.sstride)) (rowScales o.afmt o.k)).map (fun y => some (x, y))
      else some (some (x, 0))

/-- Row m of A as every slice gets it (R284, R285). -/
def State.readRow (s : State) (o : ArrayOp) (cl l : Nat) (gathered : Bool) (m : Nat) : Option (Option (Nat × Nat)) :=
  if gathered then s.gatherRow o cl l (s.bytes (storeAt cl (bitsOf o.rowList.toNat 18 0 + 4 * m)) 4)
  else some (some (s.bytes (storeAt cl (bitsOf o.base.toNat 18 0 + m * o.stride)) (rowBytes o.afmt o.k),
    if isBlock o.afmt then s.bytes (storeAt cl (bitsOf o.ascales.toNat 18 0 + m * o.sstride)) (rowScales o.afmt o.k) else 0))

/-- The words of a part's stream descriptor. -/
def ArrayPart.words (p : ArrayPart) : List Word :=
  let d := fun i => p.desc.getD i 0
  [d 0, d 1, d 5, d 2, d 3, d 4, p.accList]

/-- Where the array reads for a part: its lists, and of each row of A, and of its scales, the bytes that hold it (R282, R284, R285, R442). -/
def State.streamRanges (s : State) (o : ArrayOp) (p : ArrayPart) : List (Nat × Nat) :=
  let cl := clusterOf p.core
  let at' := fun (addr : Word) (n : Nat) => if n = 0 ∨ (s.storeRead cl p.launch addr n).isNone = true then []
    else [(storeAt cl (bitsOf addr.toNat 18 0), storeAt cl (bitsOf addr.toNat 18 0) + n)]
  let row := fun (j : Nat) => at' (o.base + word (j * o.stride)) (rowBytes o.afmt o.k) ++ at' (o.ascales + word (j * o.sstride)) (rowScales o.afmt o.k)
  let lists := if p.gathered then (streamReaches true p.words).filterMap (fun r => (r.foot p.core).map (fun x => (x.lo, x.hi))) else []
  lists ++ (if o.k = 0 then [] else (List.range o.m).flatMap (fun m =>
    if !p.gathered then row m
    else
      let j := s.bytes (storeAt cl (bitsOf o.rowList.toNat 18 0 + 4 * m)) 4
      if j ≥ 2 ^ 31 then [] else row j))

/-- The rows are read once, for all eight slices (R284). -/
def State.readRows (s : State) (o : ArrayOp) (p : ArrayPart) : ArrayOp :=
  match o.rows with
  | some _ => o
  | none => { o with rows := some (if o.k = 0 then [] else (List.range o.m).map (s.readRow o (clusterOf p.core) p.launch p.gathered)) }

/-- The exact values of row m; none where it could not be read. -/
def ArrayOp.row (o : ArrayOp) (m : Nat) : Option (List XVal) :=
  ((o.rows.getD []).getD m none).map (fun r => match r with
    | none => List.replicate o.k (.fin false 0 1)
    | some (x, y) => rowValues o.afmt o.k x y)

/-- Row m of an operation for one member: the state, and whether the engine-fault flag is set (R284 to R286). -/
def State.streamStep (s : State) (o : ArrayOp) (p : ArrayPart) (m : Nat) : State × Bool :=
  let r := if p.gathered then p.row + s.bytes (poolAt p.core (bitsOf p.accList.toNat 16 0 + 2 * m)) 2 else p.row + m
  let tile := s.plane p.core 0
  if r ≥ (s.core p.core).rows then (s, true)
  else if o.k = 0 then
    if p.acc then (s, false)
    else
      let ints := match tile with
        | some t => decide (8 ≤ o.afmt) && decide (o.afmt ≤ 15) && decide (8 ≤ t.fmt) && decide (t.fmt ≤ 15)
        | none => false
      (s.setAccRow p.core r ((s.accRow p.core r).cleared p.n ints), false)
  else
    match o.row m, tile with
    | some a, some t => (s.setAccRow p.core r ((s.accRow p.core r).applied t o.afmt p.n p.acc a), false)
    | _, _ => (s, true)

/-- Every row for one member, in increasing m (R284 to R286). -/
def State.streamAll (s : State) (o : ArrayOp) (p : ArrayPart) : State × Bool :=
  if p.n = 0 then (s, false)
  else (List.range o.m).foldl (fun (x : State × Bool) m =>
    let y := x.1.streamStep o p m
    (y.1, x.2 || y.2)) (s, false)

/-! ### Accumulator rows (R288 to R291) -/

def rowOf : Operand → Nat
  | .row n => n.toNat
  | _ => 0

/-- `MACC` (R288, R289). -/
def execMacc (f : Fields) (s : State) : Out := s.issue 0xB4 f (fun s => do
  let (n, s) ← s.src f.a
  if n.toNat = 0 ∨ n.toNat > 1280 then throw (.field 3)
  s.checkAccRows (rowOf f.d) n.toNat
  s.interlock (rowOf f.d) n.toNat
  pure (.seq (s.setHere { s.here with
    acc := (List.range n.toNat).foldl (fun t i => Tab.set t (rowOf f.d + i) ⟨0, f.bit 0, false⟩) s.here.acc })))

/-- Bytes of 16 elements of a format (R290). -/
def cvtBytes (c : Nat) : Nat := 2 * fmtWidth c

/-- `MCVT` (R290). -/
def execMcvt (f : Fields) (s : State) : Out := s.issue 0xB5 f (fun s => do
  let n := cvtBytes f.fmt
  let r := rowOf f.b
  let a ← s.checkLocal (s.addr f.a n) n n
  s.checkAccRows r 1
  if s.scoreboarded a n then throw (.stall (.scoreboard []))
  s.sound a n (s.addr f.a n)
  s.interlock r 1
  let row := s.accRow s.cur r
  let scale := match f.d with | .g x => f32 (s.me.readG x).toNat | _ => .fin false 1 1
  let xs := (elems 32 16 row.lanes.toNat).map (fun x => (if row.s32 then ofInt (signed 32 x) else decodeFloat 0 x).mul scale)
  let o := s.rounded f.fmt f.rnd f.sat xs
  pure (.seq ((o.2.poke a n (pack (fmtWidth f.fmt) o.1)).storeOrder 0 a n)))

/-- `MRDA` (R288, R289). -/
def execMrda (f : Fields) (s : State) : Out := s.issue 0xB6 f (fun s => do
  s.checkAccRows (rowOf f.a) 1
  s.interlock (rowOf f.a) 1
  pure (.seq (s.dstV f.d (s.accRow s.cur (rowOf f.a)).lanes)))

/-- `MWRA` (R288, R289). -/
def execMwra (f : Fields) (s : State) : Out := s.issue 0xB7 f (fun s => do
  s.checkAccRows (rowOf f.d) 1
  s.interlock (rowOf f.d) 1
  pure (.seq (s.setAccRow s.cur (rowOf f.d) ⟨s.srcV f.a, f.bit 0, false⟩)))

/-- What the array form of `MSTAT` says of a plane (R291). -/
def planeStatus : Option Tile → Nat
  | none => 0
  | some t => 128 + boolNat t.sparse * 64 + t.fmt

/-- Operations that a core issued and that have not yet written their rows (R291). -/
def State.unwritten (s : State) (c : Nat) : Nat :=
  let k := s.cluster (clusterOf c)
  let mine := fun (p : ArrayPart) => p.core == c && !p.done && p.opcode != 0xB1
  (k.gangIssued.filter mine).length + (k.arrayOps.filter (fun o => o.parts.any mine)).length

/-- `MSTAT` (R291). -/
def execMstat (f : Fields) (s : State) : Out := s.issue 0xB8 f (fun s => do
  match f.a with
  | .row r =>
    s.checkAccRows r.toNat 1
    s.interlock r.toNat 1
    let x := s.accRow s.cur r.toNat
    seqOf (s.dst f.d (word (boolNat x.s32 * 2 + boolNat x.ovf)))
  | _ =>
    seqOf (s.dst f.d (word (s.unwritten s.cur % 65536 * 65536 + planeStatus (s.plane s.cur 1) * 256 + planeStatus (s.plane s.cur 0)))))

end Sys2Proof.Machine
end

