-- ==== Sys2Proof/Machine/Setts.lean ====
section
/-! DEFINITION. Acquisition of setts (R119 to R122, R126, R297, R381), and the release of their granules. -/

namespace Sys2Proof.Machine

/-! ### Writes of jobs -/

/-- Does a job write one of n granules of a cluster's store from g? Its command's ranges say so, whatever card covers it; a `QST` writes a
word of every store of its field (R236). -/
def State.writesGranules (s : State) (j : Job) (cl g n : Nat) : Bool :=
  let f : Foot := ⟨storeAt cl (8192 * g), storeAt cl (8192 * (g + n)), true⟩
  !j.unfilled && (((reaches j.opcode j.modf j.run).filterMap (·.foot j.core)).any (fun x => x.write && x.meets f) ||
    (j.opcode == 0x79 && (match s.launch? j.launch with
      | some l => l.inField cl && decide (l.base + j.next ≤ cl)
      | none => false) &&
      (let a := storeAt cl (bitsOf (rn j.run 0) 18 0)
       f.meets ⟨a, a + 8, true⟩)))

/-- Does an issued job of the launch still write a granule of the sett from its n-th on (R129, R298)? -/
def State.settWriters (s : State) (cl : Nat) (x : Sett) (n : Nat) : Bool :=
  !x.gang && s.jobs.any (fun j => j.launch == x.launch && !j.isDevice && s.writesGranules j cl (x.first + n) (x.size - n))

/-! ### Acquisition (R121) -/

/-- What a request finds. -/
inductive Acquire where
  /-- a free run -/
  | run (first : Nat)
  /-- nothing now: it waits for a release, or is busy -/
  | waits
  /-- a run that is free but for writes of its former holder that land (R122) -/
  | lands
  /-- a run that setts stand in: lent ones to strip, ones to recall, and ones that are about to end -/
  | asks (lent recalls ending : List Sett)

/-- May a request take the place of a sett (R121)? Levels are those of when the request was made. -/
def State.mayTake (s : State) (r : SettReq) (x : Sett) : Bool :=
  x.launch != r.launch &&
  (match x.cls with
   | .held => false
   | .lent => true
   | .negotiated => !r.excluded.contains x.gen && (match s.launch? x.launch with
      | some l => decide (Tab.get (s.launchLevel l) r.levels x.launch ≤ r.level)
      | none => true))

/-- The sett that owns a granule. -/
def Cluster.ownerSett (k : Cluster) (g : Nat) : Option Sett :=
  match Tab.get .free k.granules g with
  | .sett gen => k.setts.find? (fun x => x.gen == gen)
  | _ => none

def Cluster.granuleFree (k : Cluster) (g : Nat) : Bool :=
  match Tab.get .free k.granules g with
  | .free => true
  | .overflow => true
  | _ => false

/-- The lowest run of n granules of which all pass a test. -/
def lowestRun (n : Nat) (ok : Nat → Bool) : Option Nat :=
  (List.range (65 - n)).find? (fun g => (List.range n).all (fun i => ok (g + i)))

/-- The cluster's gang sett, if it is not displaced. -/
def Cluster.gangSett (k : Cluster) : Option Sett := k.setts.find? (fun x => x.gang && x.st != .displaced)

/-- Sort setts in the way by what a request does about each (R121). -/
def asksOf (xs : List Sett) : Acquire :=
  let ending := fun (x : Sett) => x.st == .stripping || x.st == .finishing
  .asks (xs.filter (fun x => !ending x && x.cls == .lent)) (xs.filter (fun x => !ending x && x.cls == .negotiated)) (xs.filter ending)

/-- One pass of R121's loop. A free run is taken once no job writes it any more (R122), and the array once no operation runs. -/
def State.acquire (s : State) (cl : Nat) (r : SettReq) : Acquire :=
  let k := s.cluster cl
  if r.gang then
    match k.gangSett with
    | none => if k.arrayOps.isEmpty && k.gangIssued.isEmpty then .run 0 else .lands
    | some x => if s.mayTake r x then asksOf [x] else .waits
  else match lowestRun r.n k.granuleFree with
    | some g => if s.jobs.any (fun j => s.writesGranules j cl g r.n) then .lands else .run g
    | none =>
      match lowestRun r.n (fun g => k.granuleFree g || (match k.ownerSett g with | some x => s.mayTake r x | none => false)) with
      | none => .waits
      | some g => asksOf (k.setts.filter (fun x => (List.range r.n).any (fun i => k.ownerSett (g + i) == some x)))

/-- Granules that the setts of a tenant hold in a cluster (R381). -/
def State.tenantGranules (s : State) (cl t : Nat) : Nat :=
  ((s.cluster cl).setts.filter (fun x => !x.gang && x.st != .displaced && (match s.launch? x.launch with | some l => l.tenant == t | none => false))).foldl
    (fun n x => n + x.size) 0

/-- Would the request bring its tenant above its quota (R381)? -/
def State.overQuota (s : State) (cl : Nat) (r : SettReq) : Bool :=
  !r.gang && (match s.launch? r.launch with
    | some l => decide (ctxQuota (s.ctx l.tenant) < s.tenantGranules cl l.tenant + r.n)
    | none => false)

/-- Granules of a sett-table entry (R350). -/
def entryGang (e : Word) : Bool := bitsOf e.toNat 1 0 == 1
def entryGranules (e : Word) : Nat := if entryGang e then 1 else bitsOf e.toNat 14 8

/-- A request of a slot for the sett of a table entry, as `SACQ` makes it (R121). -/
def State.newRequest (s : State) (who : Option (Nat × Nat × Nat)) (l : Launch) (entry : Word) (try' : Bool) : SettReq where
  who := who
  launch := l.number
  level := s.launchLevel l
  n := entryGranules entry
  gang := entryGang entry
  excluded := []
  waits := []
  levels := s.launches.map (fun e => (e.1, s.launchLevel e.2))
  try' := try'
  seen := none
  freed := 0

/-- What a request of a launch finds, its tenant's quota included. -/
def State.request (s : State) (cl : Nat) (r : SettReq) : Acquire := if s.overQuota cl r then .waits else s.acquire cl r

/-- May a waiting request go on: its outcomes have come, a release has come since it found no run, and it would find something to do? The
try form looks again as soon as its outcomes have come (R121, R297). -/
def State.requestDue (s : State) (cl : Nat) (r : SettReq) : Bool :=
  r.waits.isEmpty && (match r.seen with | some n => decide (n < (s.cluster cl).releases) | none => true) &&
    (match s.request cl r with
     | .lands => false
     | .waits => r.try'
     | _ => true)
/-- Of the requests of a cluster that may go on, the one of the lowest core, then slot, does first (R314; log 125). -/
def State.requestFirst (s : State) (cl : Nat) (r : SettReq) : Bool :=
  (s.cluster cl).requests.all (fun x => match x.who, r.who with
    | some a, some b => !(decide (a.1 < b.1) || (a.1 == b.1 && decide (a.2.1 < b.2.1))) || !s.requestDue cl x
    | _, _ => true)

/-- Has every holder core's queue room for the recalls of a try form (R126)? -/
def State.recallRoom (s : State) (xs : List Sett) : Bool :=
  xs.all (fun x => decide (((s.core x.holder).recalls.filter (fun y => !y.running)).length + (xs.filter (fun y => y.holder == x.holder)).length ≤ 4))

/-- Strip and recall what stands in the way; the request waits for each outcome (R121, R126). -/
def State.pursue (s : State) (cl : Nat) (r : SettReq) (lent recalls ending : List Sett) : State × SettReq :=
  let s := lent.foldl (fun s x => s.strip cl x.gen 0) s
  let o := recalls.foldl (fun (o : State × List (Nat × Nat)) x => (o.1.placeRecall cl x r.who, o.2 ++ [(x.gen, o.1.serial)])) (s, [])
  (o.1, { r with waits := (lent ++ ending).map (fun x => (x.gen, 0)) ++ o.2, seen := none })

/-- Replace a request of the same maker, or add it. -/
def State.putRequest (s : State) (cl : Nat) (r : SettReq) : State :=
  s.modCluster cl (fun k => { k with requests := k.requests.filter (fun x => x.who != r.who) ++ [r] })
def State.dropRequest (s : State) (cl : Nat) (who : Option (Nat × Nat × Nat)) : State :=
  s.modCluster cl (fun k => { k with requests := k.requests.filter (fun x => x.who != who) })

/-! ### Granting (R122) -/

/-- Overflow messages leave granules that a sett takes: the newest go to the heads of their launches' spill queues (R70, R121). -/
def State.clearOverflow (s : State) (cl first n : Nat) : State :=
  let k := s.cluster cl
  let lost := k.overflowGranules.filter (fun g => decide (first ≤ g) && decide (g < first + n))
  if lost.isEmpty then s
  else
    let left := k.overflowGranules.filter (fun g => !lost.contains g)
    let keep := 128 * left.length
    let moved := k.overflow.drop keep
    let s := s.modCluster cl (fun k => Cluster.trimOverflow { k with
      overflow := (k.overflow.take keep).mapIdx (fun i x => { x with granule := left.getD (i / 128) 0, line := i % 128 })
      granules := lost.foldl (fun t g => Tab.set t g .free) k.granules })
    s.launches.foldl (fun s e => if moved.any (fun w => w.msg.launch == e.1) then
        let s := s.modCluster cl (fun k => k.pushFront e.1 (moved.filter (fun w => w.msg.launch == e.1)))
        (if s.spillCount cl e.1 > spillCap then s.faultLaunch e.1 0x20 (8 * cl) (s.areaAddr e.2 (spillQueueOff (cl - e.2.base)))
         else s.writeSpill cl e.2)
      else s) s

/-- Zero n bytes of pool or store and empty their bits. -/
def State.wipe (s : State) (a n : Nat) : State :=
  let out := fun (w : Nat) => !(decide (a ≤ w) && decide (w < a + n))
  ({ s with
    mem := s.mem.zero a n
    full := s.full.filter (fun w => out (8 * w))
    syncs := s.syncs.filter (fun e => out e.1)
    barriers := s.barriers.filter (fun e => out e.1) } : State).renew a n

def settClass (c : Nat) : SettClass := if c = 0 then .held else if c = 1 then .lent else .negotiated

/-- Grant a sett of table index i to a launch, with core c as holder (R120, R122, R124, R277). -/
def State.grantSett (s : State) (c : Nat) (l : Launch) (i : Nat) (e : Word) (first : Nat) : State × Sett :=
  let cl := clusterOf c
  let n := entryGranules e
  let gang := entryGang e
  let s := if gang then s else (s.clearOverflow cl first n).wipe (storeAt cl (8192 * first)) (8192 * n)
  let gen := (s.cluster cl).acquisitions % 2 ^ 40
  let x : Sett := {
    gen := gen
    index := i
    gang := gang
    launch := l.number
    cls := settClass (bitsOf e.toNat 3 2)
    st := .current
    first := if gang then 0 else first
    size := n
    was := n
    holder := c
    routine := if bitOf e.toNat 21 then some (bitsOf e.toNat 20 16) else none
    refusals := 0
    windowEnd := none
    finishEnd := none
    reason := 0 }
  (s.modCluster cl (fun k => { k with
    acquisitions := k.acquisitions + 1
    setts := k.setts ++ [x]
    granules := if gang then k.granules else (List.range n).foldl (fun t j => Tab.set t (first + j) (.sett gen)) k.granules
    planes := if gang then [] else k.planes }), x)

/-! ### Handles (R296) -/

/-- The sett that a handle names for the issuing firing: of its launch, in its cluster (R131). -/
def State.handleSett (s : State) (h : Word) : Except Halt Sett :=
  match s.settOf (clusterOf s.cur) h with
  | some x => if x.launch = s.me.launch then .ok x else .error (.trap 0x08 h 0)
  | none => .error (.trap 0x08 h 0)

end Sys2Proof.Machine
end

