-- ==== Sys2Proof/Machine/System.lean ====
section
/-! DEFINITION. Setts, estimates, results and launches from the device, opcodes 0xD0 to 0xD9 (R294 to R305). -/

namespace Sys2Proof.Machine

/-- `SACQ` (R297): a request that must wait stands in the cluster while its slot stalls, and goes on when the instruction executes
again. -/
def execSacq (f : Fields) (s : State) : Out := s.issue 0xD0 f (fun s => do
  let (a, s1) ← s.src f.a
  let i := a.toNat
  let cl := clusterOf s.cur
  let x := s.me
  let entry := match s.image? s.cur with
    | some im => if i ≤ 15 then Tab.get 0 im.setts i else 0
    | none => 0
  if !entry.getLsbD 4 then throw (.field 3)
  match s.myLaunch with
  | none => throw (.field 3)
  | some l =>
    if (s.cluster cl).setts.any (fun y => y.launch == x.launch && y.index == i) then throw (.trap 0x08 0 0)
    if entryGang entry && ctxGangDenied (s.ctx l.tenant) then throw (.trap 0x08 0 0)
    let who := some (s.cur, s.curSlot, x.fid)
    let r := match (s.cluster cl).requests.find? (fun r => r.who == who) with
      | some r => r
      | none => s.newRequest who l entry (f.bit 0)
    let busy : Res After := seqOf ((s1.dropRequest cl who).dst f.d 0)
    if !r.waits.isEmpty then throw (.stall .request)
    -- a request of a lower core that may go on does first (R314)
    if !s.requestFirst cl r then return (.gone ((s.putRequest cl r).stallMe .request))
    match s.request cl r with
    | .run g =>
      let o := (s1.dropRequest cl who).grantSett s.cur l i entry g
      seqOf (o.1.dst f.d (o.2.handle cl))
    | .lands => pure (.gone ((s.putRequest cl { r with seen := none }).stallMe .request))
    | .waits =>
      let r := { r with seen := some (s.cluster cl).releases }
      if f.bit 0 then busy else pure (.gone ((s.putRequest cl r).stallMe .request))
    | .asks lent recalls ending =>
      if f.bit 0 && (!ending.isEmpty || !s.recallRoom recalls) then busy
      else
        let o := s.pursue cl r lent recalls ending
        pure (.gone ((o.1.putRequest cl o.2).stallMe .request)))

/-- `SREL` (R298, R130). One of a sett that is Surrendering ends it too (DESIGN CHOICE, log 153). -/
def execSrel (f : Fields) (s : State) : Out := s.issue 0xD1 f (fun s => do
  let (h, s) ← s.src f.a
  let x ← s.handleSett h
  let cl := clusterOf s.cur
  if x.st = .stripping then throw (.stall (.release x.gen 0))
  if x.st ≠ .displaced ∧ s.settWriters cl x 0 = true then throw (.stall (.release x.gen 0))
  pure (.seq (s.settGone cl x.gen)))

/-- `SSHRINK` (R298). -/
def execSshrink (f : Fields) (s : State) : Out := s.issue 0xD2 f (fun s => do
  let (h, s) ← s.src f.a
  let (b, s) ← s.src f.b
  let x ← s.handleSett h
  let cl := clusterOf s.cur
  let n := b.toNat
  if x.isDisplaced ∨ n = 0 ∨ n > x.size then throw (.trap 0x08 h 0)
  if s.settWriters cl x n then throw (.stall (.release x.gen n))
  let s := s.settShrink cl x.gen n
  if x.st = .finishing then
    pure (.seq ((s.modSett cl x.gen (fun y => { y with st := .current, finishEnd := none })).settOutcome cl x.gen (some 0) false))
  else pure (.seq s))

/-- `SURR` (R299); a displaced or stripping sett is no longer held (R131; DEDUCED, log 119). -/
def execSurr (f : Fields) (s : State) : Out := s.issue 0xD3 f (fun s => do
  let (h, s) ← s.src f.a
  let (b, s) ← s.src f.b
  let x ← s.handleSett h
  if b.toNat > 31 ∨ (s.here.handler b.toNat).kindBits ≠ 4 then throw (.field 4)
  if x.cls ≠ .negotiated ∨ x.holder ≠ s.cur ∨ x.isDisplaced then throw (.trap 0x08 h 0)
  pure (.seq (s.modSett (clusterOf s.cur) x.gen (fun y => { y with routine := some b.toNat }))))

/-- A verdict on a sett that is Surrendering: 0 finish, 1 summarise n, 2 refuse (R127, R132). -/
def State.verdict (s : State) (x : Sett) (v n : Nat) : State :=
  let cl := clusterOf s.cur
  let id := s.runningRecall s.cur
  let s := s.countRecall x.launch
  if v = 0 then
    let t := s.now + 1000 * s.here.finlimit.toNat
    ((s.modSett cl x.gen (fun y => { y with st := .finishing, finishEnd := some t })).modCluster cl
      (fun k => { k with requests := k.requests.map (fun r => r.finishing x.gen id) })).timerNs t (.finishLimitPassed cl x.gen)
  else if v = 1 ∧ n < x.size then
    if n = 0 then s.settGone cl x.gen
    else ((s.settShrink cl x.gen n).modSett cl x.gen (fun y => { y with st := .current })).settOutcome cl x.gen id false
  else s.settRefuse cl x.gen id

/-- `SVERD` (R127, R300): a verdict, then the end of the firing; none of a sett that its own `SREL` has ended (DESIGN CHOICE, log 153). -/
def execSverd (f : Fields) (s : State) : Out := s.issue 0xD4 f (fun s => do
  let v := f.bits 1 0
  let (n, s) ← if v = 1 then s.src f.a else pure (0, s)
  if n.toNat > 64 then throw (.field 3)
  let h := s.me.surrSett
  if s.me.verdict then throw (.trap 0x08 h 0)
  let x : Option Sett := (s.settOf (clusterOf s.cur) h).filter (fun x => x.launch == s.me.launch)
  if v = 1 ∧ x.any (·.gang) = true then throw (.trap 0x08 h 0)
  let s := s.retire.modMe (fun y => { y with verdict := true })
  let s := match x with
    | some x => if x.st = SettSt.surrendering then s.verdict x v n.toNat else s
    | none => s
  pure (.gone (s.endFiring s.cur s.curSlot)))

/-- The state code of the status word (R301). -/
def SettSt.code : SettSt → Nat
  | .current => 0
  | .surrendering => 1
  | .finishing => 2
  | .stripping => 3
  | .displaced => 4
  | .saved => 0
def SettClass.code : SettClass → Nat
  | .held => 0
  | .lent => 1
  | .negotiated => 2

/-- The sett status word (R301). A window that has ended counts no refusals (R128). -/
def State.settStatus (s : State) (x : Sett) (h : Word) : Word :=
  let refusals := match x.windowEnd with | some e => if s.now < e then x.refusals else 0 | none => 0
  let queued := ((s.core x.holder).recalls.filter (fun r => r.handle == h && !r.running)).length
  let size := if x.isDisplaced then 0 else x.size
  word (refusals % 16 * 2 ^ 32 + x.cls.code * 2 ^ 30 + boolNat x.gang * 2 ^ 28 + x.first * 2 ^ 20 + size * 2 ^ 12 + queued * 16 + x.st.code)

/-- `SQRY` (R130, R301). -/
def execSqry (f : Fields) (s : State) : Out := s.issue 0xD5 f (fun s => do
  let (h, s) ← s.src f.a
  let x ← s.handleSett h
  let v := if f.bit 0 = false then s.settStatus x h
    else if x.isDisplaced then
      match s.myLaunch with
      | some l => s.areaAddr l (settSlotOff (clusterOf s.cur - l.base) x.index)
      | none => 0
    else if x.gang then 0
    else word (5 * 2 ^ 60 + 8192 * x.first)
  seqOf (s.dst f.d v))

/-- `ESTSET` (R139, R302). -/
def execEstset (f : Fields) (s : State) : Out := s.issue 0xD6 f (fun s => do
  let (a, s) ← s.src f.a
  if a.toNat ≥ 2 ^ 32 ∨ immOutside f.a 0 65535 = true then throw (.field 3)
  if s.here.expired.contains s.me.launch then pure (.seq s)
  else
    pure (.seq ((s.modLaunch s.me.launch (fun l => { l with estMsgs := l.estMsgs ++ [(s.cur, a.toNat)] })).post (.estimateArrival s.me.launch))))

/-- Have the operations that a firing issued landed (R147, R303)? A posted buffer that nothing has begun to fill does not count (R274). -/
def State.ownLanded (s : State) (c fid : Nat) : Bool :=
  let k := s.cluster (clusterOf c)
  let mine := fun (p : ArrayPart) => p.core == c && p.fid == fid && !p.done
  !s.jobs.any (fun j => j.core == c && j.fid == fid && !j.isDevice && !j.unfilled) &&
    !k.gangIssued.any mine && !k.arrayOps.any (fun o => o.parts.any mine)

/-- `COMMIT` (R147, R303); once the launch's ending has begun it sets no bit (DEDUCED, log 128). -/
def execCommit (f : Fields) (s : State) : Out := s.issue 0xD7 f (fun s => do
  let (a, s1) ← s.src f.a
  let (b, s2) ← if f.bit 0 then pure (0, s1) else s1.src f.b
  if f.bit 0 = true ∧ a.toNat > 127 then throw (.field 3)
  let v : BitVec 128 := if f.bit 0 then BitVec.ofNat 128 (2 ^ a.toNat) else b ++ a
  if !s.ownLanded s.cur s.me.fid then throw (.stall .commit)
  -- a surrender routine that runs on after the ending began sets no bit
  if s.myLaunch.any (fun l => l.phase == .ending) then return (.seq (s2.demote true))
  pure (.seq ((s2.modLaunch s.me.launch (fun l => { l with map := l.map ||| v })).demote true)))

/-- `WUEND` (R147, R304). -/
def execWuend (f : Fields) (s : State) : Out := s.issue 0xD8 f (fun s =>
  let l := s.me.launch
  .ok (.gone ((s.retire.endFiring s.cur s.curSlot).endWrapup l false)))

/-- A mailbox's key: function and number (R358). -/
def mailboxKey (fn m : Nat) : Nat := 64 * fn + m
def State.mailbox (s : State) (fn m : Nat) : Mailbox := Tab.get Mailbox.initial s.mailboxes (mailboxKey fn m)
/-- Where byte i of a mailbox's ring stands (R360). -/
def State.mailboxPlace (s : State) (fn : Nat) (b : Mailbox) (i : Nat) : Option Nat := s.devicePlace fn (b.base + word i) 1

/-- The message with its class lowered to the issuing launch's and its sequence sealed for a reservation (R305, R360). -/
def sealedMessage (m : List Word) (prio r : Nat) : List Word :=
  let w0 := msgWord m 0
  word ((r + 1) % 2 ^ 32 * 2 ^ 32 + bitsOf w0 31 16 * 2 ^ 16 + min prio (bitsOf w0 15 8) * 2 ^ 8 + bitsOf w0 7 0) :: m.drop 1

/-- Words landed one after another in a ring. -/
def State.landWords (s : State) (place : Nat → Option Nat) : Nat → List Word → State
  | _, [] => s
  | i, x :: xs => (match place i with | some p => s.land p 8 x.toNat | none => s).landWords place (i + 8) xs

/-- TAIL ← max(TAIL, v), and the engine looks again (R361, R363). -/
def State.raiseTail (s : State) (fn m : Nat) (v : Word) : State :=
  let b := s.mailbox fn m
  ({ s with mailboxes := Tab.set s.mailboxes (mailboxKey fn m) { b with tail := umax b.tail v } }).post (.mailboxSlotConsume fn m)

/-- What a writer of launches to a mailbox has released goes to the launches that it lets the device read (R106). -/
def State.giveLaunch (s : State) (fn m : Nat) (l : Seen) : State :=
  let b := s.mailbox fn m
  if l = [] then s else { s with mailboxes := Tab.set s.mailboxes (mailboxKey fn m) { b with seen := seenJoin b.seen l } }

/-- Reservation, fill, seal and tail of one launch (R362): none where the ring is full, or does not translate. -/
def State.publish (s : State) (fn m : Nat) (msg : List Word) (prio : Nat) : Option State :=
  let b := s.mailbox fn m
  let place := s.mailboxPlace fn b
  match place 0, place 8 with
  | some pw, some pc =>
    let w := (s.wordAt pw).toNat
    let c := (s.wordAt pc).toNat
    if w - c ≥ 2 ^ b.log2 then none
    else
      let ws := sealedMessage msg prio w
      let s := s.land pw 8 (w + 1)
      let at' := 128 * (w % 2 ^ b.log2 + 1)
      let s := s.landWords place (at' + 8) (ws.drop 1)
      some ((s.landWords place at' (ws.take 1)).raiseTail fn m (word (w + 1)))
  | _, _ => none

/-- A word of a mailbox's ring with an error that cannot be corrected, among those that a submission reads or writes, and its address (R185,
R362, R442). -/
def State.mailboxBad (s : State) (fn m : Nat) : Option (Nat × Word) :=
  let b := s.mailbox fn m
  let at' := fun (i : Nat) => (s.mailboxPlace fn b i).map (fun p => (s.wordAt p).toNat)
  let slot := match at' 0, at' 8 with
    | some w, some c => if w - c ≥ 2 ^ b.log2 then [] else (List.range 16).map (fun i => 128 * (w % 2 ^ b.log2 + 1) + 8 * i)
    | _, _ => []
  ([0, 8] ++ slot).findSome? (fun i => (s.mailboxPlace fn b i).bind (fun p => (s.badWord p 8).map (fun w => (w, b.base + word i))))

/-- `LAUNCH` (R305): a release at device scope (R106). -/
def execLaunch (f : Fields) (s : State) : Out := s.issue 0xD9 f (fun s => do
  let a ← s.reachAfter (s.addr f.a 64) 128 128 (s.srcReady f.b)
  let (b, s1) ← s.src f.b
  match s.myLaunch with
  | none => throw (.field 4)
  | some l =>
    let box := s.mailbox l.tenant b.toNat
    if b.toNat > 63 ∨ box.enable = false then throw (.field 4)
    if pathOf box.base = 3 then throw (.trap 0x04 3 box.base)
    if let some (w, at') := s.mailboxBad l.tenant b.toNat then throw (.uncorrectable w at')
    match s1.publish l.tenant b.toNat ((List.range 16).map (fun i => s.wordAt (a + 8 * i))) l.prio with
    | some s' => pure (.seq ((s'.giveLaunch l.tenant b.toNat s1.given).dstP f.d true))
    | none => pure (.seq (s1.dstP f.d false)))

end Sys2Proof.Machine
end

