-- ==== Sys2Proof/Machine/Privileged.lean ====
section
/-! DEFINITION. Traps' return and privileged operations, journal, events and counters, opcodes 0xE0 to 0xEA (R306 to R313). -/

namespace Sys2Proof.Machine

/-- A privileged register (R179). -/
def State.privRead (s : State) (n : Nat) : Word :=
  let k := s.here
  match n with
  | 0x800 => k.intcause
  | 0x801 => k.ctxbase
  | 0x802 => k.spillbase
  | 0x803 => k.permbase
  | 0x804 => k.featallow
  | 0x805 => k.tenant
  | 0x806 => k.reflimit
  | 0x807 => k.finlimit
  | 0x808 => k.holdlimit
  | n => Tab.get 0 k.perfsel (n - 0x810)

/-- Is a value outside a register's range, or a reserved event code (R179, R307, R342)? -/
def privOutside (n x : Nat) : Bool :=
  match n with
  | 0x805 => decide (x > 64)
  | 0x806 => x == 0 || decide (x > 4)
  | 0x807 => x == 0 || decide (x > 1000)
  | 0x808 => x == 0 || decide (x > 1000)
  | n => decide (0x810 ≤ n) && decide (n ≤ 0x813) && decide (x > 0x13)

/-- Write a privileged register; FEATALLOW keeps [3:0] (R179, R307). -/
def Core.privWrite (k : Core) (n : Nat) (x : Word) : Core :=
  match n with
  | 0x801 => { k with ctxbase := x }
  | 0x802 => { k with spillbase := x }
  | 0x803 => { k with permbase := x }
  | 0x804 => { k with featallow := x &&& 0xF }
  | 0x805 => { k with tenant := x }
  | 0x806 => { k with reflimit := x }
  | 0x807 => { k with finlimit := x }
  | 0x808 => { k with holdlimit := x }
  | n => { k with perfsel := Tab.set k.perfsel (n - 0x810) x }

/-- `MOVSW` (R307): a value outside its range faults with the number of operand A. -/
def execMovsw (f : Fields) (s : State) : Out := s.issue 0xE0 f (fun s =>
  match f.d, f.a with
  | .sys n, _ => do
    let (x, s) ← s.src f.a
    if privOutside n.toNat x.toNat then throw (.field 3)
    pure (.seq (s.setHere (s.here.privWrite n.toNat x)))
  | _, .sys n => seqOf (s.dst f.d (s.privRead n.toNat))
  | _, _ => .ok (.seq s))

/-- `RFT` (R306). -/
def execRft (f : Fields) (s : State) : Out := s.issue 0xE1 f (fun s =>
  if s.me.inTrap then .ok (.goto s.leaveTrap (s.me.resumeAt (f.bit 0)))
  else .ok (.gone (s.retire.endFiring s.cur s.curSlot)))

/-- A frame command (R308): the slot's state is checked last. -/
def frameBody (op : Nat) (want : SlotSt) (f : Fields) (s : State) : Res After := do
  let run := s.run f.b 2
  let bar := s.addr f.a 16
  let (b, rs) ← s.checkCommand op 0 run bar
  if s.here.frames ≤ rn run 0 ∨ (s.slot s.cur (rn run 0)).st ≠ want ∨ rn run 0 = s.curSlot then throw (.field 4)
  seqOf (s.issueCommand op 0 run bar b rs none [])

/-- `CSAVE` (R308). -/
def execCsave (f : Fields) (s : State) : Out := s.issue 0xE2 f (frameBody 0xE2 .frozen f)
/-- `CREST` (R308). -/
def execCrest (f : Fields) (s : State) : Out := s.issue 0xE3 f (frameBody 0xE3 .free f)

/-- `NIINV` (R309): the invalidation stands among those that the core sent until every NI has acknowledged it. -/
def execNiinv (f : Fields) (s : State) : Out := s.issue 0xE4 f (fun s => do
  let (a, s1) ← s.src f.a
  let (b, s2) ← s1.src f.b
  let kind := f.bits 1 0
  if kind ≠ 2 ∧ b.toNat > 64 then throw (.field 4)
  if s.here.niinvs.length ≥ 16 then throw (.stall (.outQueue 3))
  pure (.seq (s2.setHere { s2.here with niinvs := s2.here.niinvs ++ [(kind, boolNat (f.bit 2), b.toNat, a)] })))

/-- `NISYNC` (R309). -/
def execNisync (f : Fields) (s : State) : Out := s.issue 0xE5 f (fun s =>
  if s.here.niinvs.isEmpty then .ok (.seq s) else .error (.stall .nisync))

/-- `JRNL` (R311): an entry of another launch reads as free. -/
def execJrnl (f : Fields) (s : State) : Out := s.issue 0xE6 f (fun s => do
  let (a, s) ← s.src f.a
  if a.toNat > 31 then throw (.field 3)
  let e := Tab.get JournalEntry.free s.here.journal a.toNat
  let e := if e.inUse ∧ e.launch = s.me.launch then e else JournalEntry.free
  match f.bits 1 0 with
  | 2 => pure (.seq (s.dstV f.d (BitVec.ofNat 512 (e.data.toNat % 2 ^ (8 * e.len)))))
  | 1 => seqOf (s.dst f.d e.addr)
  | _ => seqOf (s.dst f.d (word e.status)))

/-- The function and ring that `EVPOST` posts to (R312): the launch's; in a privileged firing, which has none, ring 0 of the tenant
that TENANT names (DESIGN CHOICE, log 45). -/
def State.myRing (s : State) : Nat × Nat :=
  match s.myLaunch with
  | some l => (l.tenant, l.ring)
  | none => (s.here.tenant.toNat, 0)

/-- `EVPOST` (R312). -/
def execEvpost (f : Fields) (s : State) : Out := s.issue 0xE7 f (fun s => do
  let (a, s) ← s.src f.a
  if s.privileged = false ∧ (a.toNat < 0x8000 ∨ a.toNat > 0xFFFF) then throw (.field 3)
  let b := s.srcV f.b
  let (fn, ring) := s.myRing
  let r := s.eventRing fn ring
  -- a full ring counts the record as lost, and the sequence advances (R368)
  pure (.seq ((s.postEvent fn ring (a.toNat % 65536) (0x4000 + s.cur) (b.extractLsb' 0 64) (b.extractLsb' 64 64)).dstP f.d
    (r.enable && s.ringRoom (s.ringPlace fn r) (2 ^ r.log2)))))

/-- `PERF` (R313). -/
def execPerf (f : Fields) (s : State) : Out := s.issue 0xE8 f (fun s => do
  let (a, s) ← s.src f.a
  if f.bit 0 then
    if a.toNat > 4 then throw (.field 3)
    pure (.seq (s.setHere { s.here with perf := Tab.set s.here.perf a.toNat 0 }))
  else
    if a.toNat > 6 then throw (.field 3)
    seqOf (s.dst f.d (if a.toNat = 6 then word s.me.count else s.perfOf s.here a.toNat)))

/-- `IDLE` (R310): the interrupt that ends it lets the slot go on. -/
def execIdle (f : Fields) (s : State) : Out := s.issue 0xE9 f (fun _ => .error (.stall .idle))

/-- Does every page of n bytes from an address translate for a tenant's write? -/
def State.pagesPresent (s : State) (t : Nat) (a : Word) (n : Nat) : Bool :=
  (List.range (n / 65536 + 2)).all (fun i => decide (n ≤ 65536 * i) || (s.devicePlace t (a + word (65536 * i)) 1).isSome)
    && (n == 0 || (s.devicePlace t (a + word (n - 1)) 1).isSome)

/-- Bytes of a buffer written word by word through a tenant's translations. -/
def State.putBytes (s : State) (t : Nat) (a : Word) (m : Mem) (n : Nat) : State :=
  s.putWords t a ((List.range ((n + 7) / 8)).map (fun i => m.word (8 * i)))

/-- Has another slot of the cluster a `SPILLNI` under way (R310)? -/
def State.spilling (s : State) : Bool :=
  (coresOf (clusterOf s.cur)).any (fun c => ((s.core c).slots).any (fun x =>
    !(c == s.cur && x.1 == s.curSlot) && x.2.live && x.2.spilling))

/-- `SPILLNI` (R310, R404): one waits until its pages are there, and a second until the first completes. -/
def execSpillni (f : Fields) (s : State) : Out := s.issue 0xEA f (fun s => do
  let (a, s) ← s.src f.a
  if pathOf a ≠ 0 ∨ a.toNat % 64 ≠ 0 then throw (.trap 0x06 64 a)
  let t := s.here.tenant.toNat
  let (m, n) := s.niBytes (clusterOf s.cur) 0 []
  if s.spilling then throw (.stall (.spill a 0))
  if !s.pagesPresent t a n then throw (.stall (.spill a n))
  seqOf ((s.putBytes t a m n).dst f.d (word n)))

end Sys2Proof.Machine
end

