-- ==== Sys2Proof/Machine/Firings.lean ====
section
/-! DEFINITION. Selection and start of firings (R35 to R43), estimates and buckets, the end of stalls, grants of full/empty accesses
(R88), delivery of asynchronous traps (R186), and the illegal instruction. -/

namespace Sys2Proof.Machine

/-- Did the slot only stall: the instruction stands where it stood, and another slot may issue in its place (R35)? -/
def State.onlyStalled (before s : State) (c n : Nat) : Bool :=
  (s.slot c n).st == .stalled && (s.slot c n).pc == (before.slot c n).pc

/-- What a slot's instruction does in an event: a slot that an event lets go on is the one that issued last (R336). -/
def State.within (s : State) (c n : Nat) (f : State → State) : State :=
  let t := f { s with cur := c, curSlot := n }
  { (if s.onlyStalled t c n then t else t.modCore c (fun k => { k with lastSlot := n })) with cur := s.cur, curSlot := s.curSlot }

/-- An event that leaves a next state. -/
abbrev done (s : State) : Out := .next s

/-! ### Selection (R41 to R43) -/

/-- A candidate: a pending firing of the core, or a pending warren entry of its cluster that it owns. -/
inductive Cand where
  | firing (p : Pending)
  | walker (e : WarrenEntry)
  deriving DecidableEq, Repr

def Cand.handler : Cand → Nat
  | .firing p => p.handler
  | .walker e => e.msg.handler
def Cand.launch : Cand → Nat
  | .firing p => p.launch
  | .walker e => e.msg.launch
def Cand.since : Cand → Nat
  | .firing p => p.since
  | .walker e => e.since
def Cand.serial : Cand → Nat
  | .firing p => p.serial
  | .walker e => e.serial
def Cand.promos : Cand → Nat
  | .firing p => p.promos
  | .walker e => e.promos
/-- The band of R41: 3 is selected first. -/
def Cand.band : Cand → Nat
  | .firing p => match p.source with
    | .trap _ _ _ _ => 3
    | .recall _ => 2
    | .expiry => 1
    | _ => 0
  | .walker _ => 0

/-- A launch's bucket as the core last computed it (R43). -/
def State.bucketOn (s : State) (c : Nat) (l : Launch) : Nat :=
  match Tab.find (s.core c).buckets l.number with
  | some b => b
  | none => s.bucket l (Tab.get l.estimate (s.core c).estimates l.number)

/-- The level of R42, which only ordinary firings have. -/
def State.levelOf (s : State) (c : Nat) (x : Cand) : Nat :=
  if x.band ≠ 0 then 0
  else match s.launch? x.launch with
  | some l => min 15 (4 * min ((s.core c).handler x.handler).cls l.prio + s.bucketOn c l + x.promos)
  | none => 0

/-- Every candidate that is not masked. No wrap-up firing starts while a surrender firing runs (R41). -/
def State.candidates (s : State) (c : Nat) : List Cand :=
  let k := s.core c
  let surrenders := k.slots.any (fun x => x.2.live && x.2.kind == .surrender)
  -- a launch that is past its deadline here starts nothing but its wrap-up (R141, R142)
  let ends := fun (x : Cand) => x.band != 1 && s.overdue c x.launch
  let ps := (k.pending.map Cand.firing) ++
    (((s.cluster (clusterOf c)).warren.filter (fun e => e.pending && e.owner == c)).map Cand.walker)
  ps.filter (fun x => !(k.handler x.handler).mask && !(x.band == 1 && surrenders) && !ends x)

/-- Is a candidate's key greater (R43)? Within a band: level, age, then the lower handler, then the lower serial. Trap firings come in the
order in which their traps were raised (R186), which is that of their serials. -/
def State.before (s : State) (c : Nat) (x y : Cand) : Bool :=
  if x.band = 3 ∧ y.band = 3 then decide (x.serial < y.serial) else
  let lx := s.levelOf c x
  let ly := s.levelOf c y
  if lx ≠ ly then decide (ly < lx)
  else if x.since ≠ y.since then decide (x.since < y.since)
  else if x.handler ≠ y.handler then decide (x.handler < y.handler)
  else decide (x.serial < y.serial)

/-- The firing that selection takes (R43). -/
def State.selected (s : State) (c : Nat) : Option Cand :=
  let xs := s.candidates c
  let top := xs.foldl (fun b x => max b x.band) 0
  (xs.filter (fun x => x.band == top)).foldl (fun (b : Option Cand) x => match b with
    | none => some x
    | some y => if s.before c x y then some x else b) none

/-- One pass-over (R43): every 4,096th promotes. -/
def Pending.pass (p : Pending) : Pending := { p with passed := p.passed + 1, promos := if (p.passed + 1) % 4096 = 0 then p.promos + 1 else p.promos }
def WarrenEntry.pass (e : WarrenEntry) : WarrenEntry :=
  { e with passed := e.passed + 1, promos := if (e.passed + 1) % 4096 = 0 then e.promos + 1 else e.promos }

/-- Pass-overs against the ordinary candidates that were not taken (R43). -/
def State.passOver (s : State) (c serial : Nat) : State :=
  let k := s.core c
  let open' := fun (h : Nat) => !(k.handler h).mask
  let s := s.modCore c (fun k => { k with pending := k.pending.map (fun p =>
    if p.serial != serial && open' p.handler && (Cand.firing p).band == 0 then p.pass else p) })
  s.modCluster (clusterOf c) (fun k => { k with warren := k.warren.map (fun e =>
    if e.serial != serial && e.pending && e.owner == c && open' e.msg.handler then e.pass else e) })

/-! ### Start (R37, R38) -/

/-- The free slot among the core's frames that takes a firing: the lowest, as no rule says which (DESIGN CHOICE, log 131). -/
def Core.freeSlot (k : Core) : Option Nat := (List.range k.frames).find? (fun n => (k.slot n).st == .free)

/-- A slot at the start of a firing (R37). -/
def State.startSlot (s : State) (c l h : Nat) : Slot :=
  let e := (s.core c).handler h
  { Slot.empty with
    st := .running
    p := Slot.empty.p.set 0 true
    w := Slot.empty.w.set 0 (BitVec.allOnes 64)
    pc := word e.entry
    launch := l
    handler := h
    kind := e.kind
    fid := s.nextFiring }

/-- Reserve n words of a launch on an input channel for a slot (R38). -/
def reserveWords (h l ch slot : Nat) : Nat → List ChanWord → List ChanWord
  | _, [] => []
  | 0, ws => ws
  | n + 1, w :: ws =>
    if w.handler == h && w.chan == ch && w.launch == l && w.resv == none then { w with resv := some slot } :: reserveWords h l ch slot n ws
    else w :: reserveWords h l ch slot (n + 1) ws

/-- The reservations of a channel-fired handler (R38). -/
def State.reserve (s : State) (c n h : Nat) (l : Launch) : State :=
  let e := (s.core c).handler h
  let s := s.modCore c (fun k => { k with channels := (List.range e.inputs).foldl (fun ws j =>
    reserveWords h l.number j n (inRate (e.input j)) ws) k.channels })
  let take := fun (s : State) (j : Nat) => match s.outDest c l h j with
    | some d => s.takeMirror c (destKey d.1 d.2.1 d.2.2.1) (outRate (e.output j))
    | none => s
  let rate := fun j => if outPresent (e.output j) then outRate (e.output j) else 0
  (take (take s 4) 5).modSlot c n (fun x => { x with out4 := rate 4, out5 := rate 5 })

/-- Registers from a list, g1 first. -/
def Slot.args (x : Slot) (ws : List Word) : Slot :=
  (List.range ws.length).foldl (fun x i => x.writeG (BitVec.ofNat 5 (i + 1)) (ws.getD i 0)) x

/-- Put a firing in slot n; the core has held state for its launch (R142), and the counters of starts count (R342). -/
def State.place' (s : State) (c n : Nat) (x : Slot) : State :=
  let s := s.modCore c (fun k =>
    let k := k.bump 0x10 1
    { (if x.kind = .walker then k.bump 0x11 1 else k).setSlot n x with held := if k.held.contains x.launch then k.held else k.held ++ [x.launch] })
  { s with nextFiring := s.nextFiring + 1 }

/-- What the word or launch that caused a firing released, which its start acquires, and before a wrap-up firing what stopped on its core
(R106, R117). -/
def State.startSeen (s : State) (c : Nat) (p : Pending) : Seen :=
  let launch := seenAcquired 3 (((s.launch? p.launch).map (·.seen)).getD [])
  match p.source with
  | .field _ _ => launch
  | .message _ _ => launch
  | .spawn _ => seenAcquired 3 (((s.core c).tasks.head?.map (·.seen)).getD [])
  | .expiry => Tab.get [] (s.core c).past p.launch
  | _ => []
/-- What the words that a firing has reserved carry (R38, R106). -/
def State.reservedSeen (s : State) (c n : Nat) : Seen :=
  seenAcquired 3 (((s.core c).channels.filter (fun w => w.resv == some n)).foldl (fun l w => seenJoin l w.seen) [])

/-- Start a pending firing in slot n (R36 to R38); a channel firing only where it finds what it reserves. -/
def State.startPending (s : State) (c n : Nat) (p : Pending) : State :=
  let s := s.modCore c (fun k => { k with pending := k.pending.filter (fun q => q.serial != p.serial) })
  let x := (s.startSlot c p.launch p.handler).learn (s.startSeen c p)
  match p.source with
  | .field lo hi => s.place' c n { x.args [lo, hi] with grain := true }
  | .channel =>
    match s.launch? p.launch with
    | some l =>
      if s.fits c [] (s.needs c p.handler l) then
        let s := (s.place' c n x).reserve c n p.handler l
        (s.modSlot c n (fun y => y.learn (s.reservedSeen c n))).evalRules c
      else s.evalRules c
    | none => s
  | .message a ws => s.place' c n (x.args (a :: ws))
  | .spawn w => ((s.modCore c (fun k => { k with tasks := k.tasks.drop 1 })).place' c n { x with task := some w }).taskHead c
  | .trap cause pc val addr =>
    s.place' c n { x with
      trapCause := word cause
      trapPc := pc
      trapVal := val
      trapAddr := addr
      journal := if cause = 0x10 then some val.toNat else none }
  | .recall h =>
    let s := s.modCore c (fun k => { k with recalls := k.recalls.map (fun r => if r.handle == h && !r.running &&
      ((k.recalls.filter (fun y => y.handle == h)).head?.map (·.id)) == some r.id then { r with running := true } else r) })
    let s := match s.settOf (clusterOf c) h with
      | some y => s.modSett (clusterOf c) y.gen (fun y => { y with st := .surrendering })
      | none => s
    (s.place' c n { x with surrSett := h }).post (.recallPlace c)
  | .expiry => s.place' c n x

/-- Start a walker firing from its warren entry (R37, R68). It takes the entry as it stood before the messages of this fabric clock,
which make a new entry (R69); the entry is free, and the cluster's oldest spilled message arrives (R70). -/
def State.startWalker (s : State) (c n : Nat) (y : WarrenEntry) : State :=
  let e := y.asOf s.fabric
  let x := s.startSlot c e.msg.launch e.msg.handler
  let x := x.args [word e.msg.key, word e.msg.depth, e.msg.carry6, e.msg.carry7]
  let x := x.learn (seenAcquired 3 (seenJoin e.msg.seen (((s.launch? e.msg.launch).map (·.seen)).getD [])))
  let s := s.modCluster (clusterOf c) (fun k => { k with warren := k.warren.filter (fun z => z.serial != e.serial) })
  let s := s.place' c n { x.writeM 0 e.msg.members with meets := e.meets, qblock := e.msg.block, depth := e.msg.depth }
  let s := s.modCore c (fun k => k.bump 0x12 (2 ^ 64 - (y.late s.fabric).length))
  ((y.late s.fabric).foldl (fun s w => s.walkerArrives (clusterOf c) w) s).overflowReturn (clusterOf c)

/-- FIRING_START (R43): a free slot takes the selected firing. -/
def execFiringStart (c : Nat) (s : State) : Out :=
  let k := s.core c
  match k.halted, k.freeSlot, s.selected c with
  | false, some n, some x =>
    let s := if x.band = 0 then s.passOver c x.serial else s
    let s := match x with
      | .firing p => s.startPending c n p
      | .walker e => s.startWalker c n e
    done (if (s.candidates c).isEmpty then s else s.post (.firingStart c))
  | _, _, _ => done s

/-- BUCKET_RECOMPUTE (R43): again within 1 µs while a launch with a deadline lives on the core. -/
def execBucketRecompute (c : Nat) (s : State) : Out :=
  let ls := s.launches.filter (fun e => e.2.inField (clusterOf c))
  let s := s.modCore c (fun k => { k with
    buckets := ls.map (fun e => (e.1, s.bucket e.2 (Tab.get e.2.estimate k.estimates e.1))) })
  done (if ls.any (fun e => e.2.deadline != 0) then s.timerNs (s.now + 1000) (.bucketRecompute c) else s)

/-- ESTIMATE_ARRIVAL (R139, R302): the last to arrive stands, and of those that arrive in one fabric clock the higher core's; every core has
it, and its bucket applies from its next selection. -/
def execEstimateArrival (l : Nat) (s : State) : Out :=
  match s.launch? l with
  | some x =>
    match x.estMsgs with
    | (c, v) :: r =>
      if x.estLast.1 = s.fabric ∧ c < x.estLast.2 then done ((s.setLaunch l { x with estMsgs := r }).post (.estimateArrival l))
      else
        let s := s.setLaunch l { x with estimate := v, estMsgs := r, estLast := (s.fabric, c) }
        let s := x.cores.foldl (fun s c => if (Tab.find s.cores c).isSome then
          s.modCore c (fun k => { k with estimates := Tab.set k.estimates l v, buckets := Tab.set k.buckets l (s.bucket x v) }) else s) s
        done (if r.isEmpty then s else s.post (.estimateArrival l))
    | [] => done s
  | none => done s

/-! ### The end of a stall (R40) -/

/-- Does an access of a launch to a store granule fault now (R130)? -/
def State.granuleLost (s : State) (l a : Nat) : Bool :=
  storeSide a && (match checkGranule (s.cluster (clusterOfAddr a)) (clusterOfAddr a) l (offOfAddr a / 8192) 0 with
    | .ok _ => false
    | .error _ => true)

/-- Has the condition that the issuing slot stalls on cleared? -/
def State.stallOver (s : State) : Bool :=
  let x := s.me
  let k := s.here
  match x.stall with
  | none => true
  | some (.portEmpty p) => (s.peekPort p).isSome
  | some (.portFull p) => s.portRoom p
  | some (.words p n) => decide (n ≤ s.portCount p) || x.met.isSome
  | some (.feBit a _) => s.granuleLost x.launch a
  | some (.barrier a ph) => (s.wordAt a).getLsbD 48 == ph || x.met.isSome || s.granuleLost x.launch a
  | some .gang => k.gang.isNone
  | some (.scoreboard js) => js.isEmpty || js.any (fun j => !k.scoreboard.any (fun r => r.job == j))
  | some (.entries js) => js.isEmpty || js.any (fun j => !k.scoreboard.any (fun r => r.job == j))
  | some (.footprint js) => js.any (fun j => (s.job? j).isNone)
  | some .journal => (List.range 32).any (fun i => !(Tab.get JournalEntry.free k.journal i).inUse)
  | some .completion => decide (k.complUsed < 16)
  | some (.outQueue n) =>
    if n = 0 then decide (k.outReq.length < 16) else if n = 1 then decide (k.outRep.length < 16)
    else if n = 2 then decide (k.outWalk.length < 16) else true
  | some (.credit j) => decide (0 < x.reserved j) || decide (0 < s.outFree j)
  | some (.sleep t) => decide (t ≤ s.now)
  | some .commit => s.ownLanded s.cur x.fid
  | some .request =>
    (match (s.cluster (clusterOf s.cur)).requests.find? (fun r => r.who == some (s.cur, s.curSlot, x.fid)) with
     | none => true
     | some r => s.requestDue (clusterOf s.cur) r && s.requestFirst (clusterOf s.cur) r)
  | some (.release g n) =>
    (match s.sett? (clusterOf s.cur) g with
     | none => true
     | some y => y.st != .stripping && !s.settWriters (clusterOf s.cur) y n)
  | some .nisync => true
  | some (.spill a n) => if n = 0 then !s.spilling else s.pagesPresent k.tenant.toNat a n
  | some .idle => false
  | some (.array none) => !s.swapPending s.cur
  | some (.array (some (r, n))) => !s.rowsBusy s.cur r n

/-- Do two addresses lie in one leaf of a level? -/
def sameLeaf (lvl a b : Nat) : Bool := a / 2 ^ levelBits lvl == b / 2 ^ levelBits lvl

/-- Does an invalidation of a stage and kind cover a cached leaf (R309)? One of the second stage covers every first-stage leaf read
through a table that it covers (R390). -/
def Cached.covered (x : Cached) (kind stage t a : Nat) : Bool :=
  (kind == 2 || x.key / 2 == t) &&
    (if x.key % 2 = stage - 1 then kind != 0 || sameLeaf x.lvl (x.page * 65536) a
     else stage == 2 && (if kind = 0 then x.tables.any (fun y => sameLeaf y.2 y.1 a) else !x.tables.isEmpty))

/-- Drop cached translations (R309, R389): kind 0 page, 1 tenant, 2 all; at stage 1 or 2. -/
def State.invalidate (s : State) (kind stage t : Nat) (a : Word) : State :=
  { s with tlb := s.tlb.filter (fun x => !x.covered kind stage t (bitsOf a.toNat 47 0)) }

/-- Every NI has acknowledged what a core sent (R309). -/
def State.acknowledge (s : State) (c : Nat) : State :=
  let s := (s.core c).niinvs.foldl (fun s x => s.invalidate x.1 (x.2.1 + 1) x.2.2.1 x.2.2.2) s
  s.modCore c (fun k => { k with niinvs := [] })

/-- STALL_RESUME (R40): the condition has cleared, and issue resumes at the stalled instruction. -/
def execStallResume (c n : Nat) (s : State) : Out :=
  let x := s.slot c n
  if x.st = .stalled ∧ ({ s with cur := c, curSlot := n } : State).stallOver = true then
    let s := if x.stall = some .nisync ∨ x.stall = some (.outQueue 3) then s.acknowledge c else s
    done (s.modSlot c n (fun x => { x with st := .running, stall := none }))
  else done s

/-- The instruction at a slot's pc. -/
def State.instrAt (s : State) (c n : Nat) : Option Instr :=
  match ({ s with cur := c, curSlot := n } : State).code with
  | some (m, len) => some (fetchAt m len (s.slot c n).pc.toNat)
  | none => none

/-- The state of an outcome that is always a next state. -/
def nextOr (s : State) (o : Out) : State :=
  match o with
  | .next s' => s'
  | _ => s

/-- A stalled slot's instruction runs now, as its own act, by one of the meanings that wait for memory. -/
def State.runWaiting (s : State) (c n : Nat) : State :=
  if s.overdue c (s.slot c n).launch then s
  else
  let s := s.modSlot c n (fun x => { x with st := .running, stall := none })
  match s.instrAt c n with
  | some (.ldfe f) => s.within c n (fun s => nextOr s (execLdfe f s))
  | some (.ldff f) => s.within c n (fun s => nextOr s (execLdff f s))
  | some (.stef f) => s.within c n (fun s => nextOr s (execStef f s))
  | some (.waitb f) => s.within c n (fun s => nextOr s (execWaitb f s))
  | _ => s

/-- The oldest waiting access that a word's bit lets proceed (R88). -/
def State.grantee (s : State) (cl a : Nat) : Option Waiter :=
  (s.cluster cl).waiters.find? (fun w => w.addr == a && w.wantFull == s.isFull a && (s.slot w.core w.slot).st == .stalled && s.feWaits w)

/-- FULL_EMPTY_GRANT (R88): the oldest access that the bit allows proceeds. -/
def execFullEmptyGrant (cl a : Nat) (s : State) : Out :=
  match s.grantee cl a with
  | some w =>
    let s := s.runWaiting w.core w.slot
    done (if (s.grantee cl a).isSome then s.post (.fullEmptyGrant cl a) else s)
  | none => done s

/-! ### Asynchronous traps (R59, R186) -/

/-- ASYNC_TRAP_DELIVERY (R186): one trap becomes a trap firing, but on a frozen core it is kept (R398); without a trap handler it ends the
launch (R59). Past the launch's deadline it is discarded (R141). -/
def execAsyncTrapDelivery (c : Nat) (s : State) : Out :=
  if (s.core c).halted then done s
  else match (s.core c).asyncTraps with
  | t :: r =>
    let s := s.modCore c (fun k => { k with asyncTraps := r })
    let s := if r.isEmpty then s else s.post (.asyncTrapDelivery c)
    if s.overdue c t.launch then done s else
    match s.trapHandler c with
    | some h => done (s.addPending c (.trap t.cause t.pc t.val t.addr) h t.launch)
    | none => done (s.faultLaunch t.launch t.cause c (faultValue t.cause t.val t.addr))
  | [] => done s

/-- ILLEGAL_INSTRUCTION (R172, R183): a reserved opcode, or a fetch at or past the end of the code, which names no opcode byte: its
TRAPVAL is free (log 17). -/
def execIllegalInstruction (x : IllegalFetch) (s : State) : Out :=
  match x with
  | .reserved op f => s.issue op.toNat f (fun _ => .error (.illegal op.toNat))
  | .pastEnd => done (s.drew.takeExact 0x01 s.free s.me.pc)

end Sys2Proof.Machine
end

