-- ==== Sys2Proof/Machine/Arrays.lean ====
section
/-! DEFINITION. Gangs, rotations and array operations as they form and run (R57, R93, R255, R268, R281 to R287), and the order of
jobs and operations whose footprints meet (R111). -/

namespace Sys2Proof.Machine
open Sys2Proof.Num

/-! ### The order of R111 -/

/-- A part's footprint, which writes nothing (R287): rows, scales and lists; for MMAG from each base to the end of the store. -/
def ArrayPart.feet (p : ArrayPart) : List Foot :=
  if p.opcode = 0xB1 then []
  else
    let w := p.words
    let rest := fun (a : Word) => (⟨footAddr p.core a, storeAt (clusterOf p.core) 524288, false⟩ : Foot)
    (streamReaches p.gathered w).filterMap (·.foot p.core) ++
      (if p.gathered then rest (w.getD 0 0) :: (if isBlock (streamFmt (w.getD 2 0)) then [rest (w.getD 3 0)] else []) else [])

/-- Jobs of a core below this number were accepted before an operation: those that its member issued before its part (R111). -/
def acceptedBefore (parts : List ArrayPart) (c : Nat) : Nat :=
  match parts.find? (fun p => p.core == c), parts with
  | some p, _ => p.before
  | none, p :: ps => ps.foldl (fun m q => min m q.before) p.before
  | none, [] => 0

/-- Must a job wait for one that its cluster accepted before it, for a formed array operation, or for one that its own core has issued and
whose gang has not formed (R111)? The whole job waits (DEDUCED, log 46). A posted buffer has its footprint from its issue on, filled or not
(R260; DEDUCED, log 135). -/
def State.blocked (s : State) (j : Job) : Bool :=
  let mine := j.feet
  s.jobs.any (fun x => decide (x.id < j.id) && x.home == j.home && !x.isDevice && feetConflict x.feet mine) ||
    (s.cluster j.home).arrayOps.any (fun o => decide (acceptedBefore o.parts j.core ≤ j.id) &&
      o.parts.any (fun p => !p.done && feetConflict p.feet mine)) ||
    (s.cluster j.home).gangIssued.any (fun p => p.core == j.core && decide (p.before ≤ j.id) && feetConflict p.feet mine)

/-- Must an array operation wait for jobs accepted before it (R111)? -/
def State.opBlocked (s : State) (cl : Nat) (o : ArrayOp) : Bool :=
  s.jobs.any (fun x => decide (x.id < acceptedBefore o.parts x.core) && x.home == cl && !x.isDevice &&
    o.parts.any (fun p => feetConflict x.feet p.feet))

/-! ### Gangs (R57, R255) -/

/-- Equal requests of all eight cores, none formed, of a launch whose time is not up (R141). -/
def State.gangReady (s : State) (cl : Nat) : Bool :=
  match (s.core (8 * cl)).gang with
  | some g => (coresOf cl).all (fun c => match (s.core c).gang with
      | some x => !x.formed && x.launch == g.launch && x.token == g.token
      | none => false) && (s.cluster cl).gangIssued.isEmpty && (s.cluster cl).rotIssued.isEmpty &&
      !(coresOf cl).any (fun c => s.overdue c g.launch)
  | none => false

/-- A member's `GANG` has completed: its token's word is popped where it came from a port, and the slot goes on after it. -/
def State.joinGang (s : State) (c : Nat) : State :=
  match (s.core c).gang with
  | some g =>
    let s := s.modCore c (fun k => { k with gang := some { g with formed := true } })
    s.within c g.slot (fun s =>
      let s := match g.port with
        | some (p, w) => if s.peekPort p = some w then s.afterPop p else s
        | none => s
      (s.modMe (fun x => { x with st := .running, stall := none })).retire)
  | none => s

/-- GANG_FORMATION (R57, R255). -/
def execGangFormation (cl : Nat) (s : State) : Out :=
  if s.gangReady cl then
    let s := (coresOf cl).foldl (fun s c => s.joinGang c) s
    done (s.modCluster cl (fun k => { k with gangMembers := coresOf cl }))
  else done s

/-! ### What a gang's instructions come to when every member has issued (R93, R255, R283) -/

/-- No operation of the gang runs: every command with a barrier arrives with its declared count and the engine-fault flag. -/
def State.failGang (s : State) (ps : List ArrayPart) (rs : List RotPart) : State :=
  let s := ps.foldl (fun s p => if p.opcode = 0xB1 then s else (s.arrivePart p flagEngine).post (.launchComplete p.launch)) s
  rs.foldl (fun s r => match s.job? r.job with
    | some j => s.endJob j true false
    | none => s) s

/-- Does a member that needs its stationary tile hold none when the operation forms (R283)? -/
def State.tileMissing (s : State) (p : ArrayPart) : Bool :=
  let w2 := p.words.getD 2 0
  p.opcode != 0xB1 && streamM w2 != 0 && streamK w2 != 0 && p.n != 0 && (s.stationarySoon p.core).isNone

/-- The operation that eight agreeing parts form. -/
def arrayOpOf (ps : List ArrayPart) (p : ArrayPart) : ArrayOp :=
  let w := p.words
  let x := fun i => w.getD i 0
  { swap := p.opcode == 0xB1
    parts := ps
    m := streamM (x 2)
    k := streamK (x 2)
    afmt := streamFmt (x 2)
    base := x 0
    stride := bitsOf (x 1).toNat 31 0
    ascales := x 3
    sstride := bitsOf (x 4).toNat 31 0
    rowList := x 5
    rows := none }

/-- What can happen next in a cluster's array. -/
def State.postArray (s : State) (cl : Nat) : State :=
  match (s.cluster cl).arrayOps with
  | o :: _ => if o.swap then s.post (.mswapApply cl) else
      (List.range 8).foldl (fun s k => s.post (.arrayOperationComplete cl k)) s
  | [] => s

/-- The gang's operation forms, or fails on disagreement. -/
def State.formGang (s : State) (cl : Nat) : State :=
  let k := s.cluster cl
  if !k.gangIssuedAll then s
  else
    let ps := k.gangIssued
    let rs := k.rotIssued
    let s := s.modCluster cl (fun k => { k with gangIssued := [], rotIssued := [], gangMembers := [] })
    match ps, rs with
    | [], r :: _ =>
      if rs.all (fun x => x.len == r.len) then
        (s.modCluster cl (fun k => { k with rotations := k.rotations ++ [rs] })).post (.rotationRun cl)
      else s.failGang [] rs
    | p :: _, [] =>
      if ps.all (fun x => x.opcode == p.opcode && x.desc == p.desc) && !ps.any s.tileMissing then
        (s.modCluster cl (fun k => { k with arrayOps := k.arrayOps ++ [arrayOpOf ps p] })).postArray cl
      else s.failGang ps []
    | _, _ => s.failGang ps rs

/-- ARRAY_OPERATION_FORM (R255, R283). -/
def execArrayOperationForm (cl : Nat) (s : State) : Out := done (s.formGang cl)

/-- What a gang's operation read held an error that cannot be corrected: the launch of the member ends (R185). -/
def State.meetRanges (s : State) (l c : Nat) (rs : List (Nat × Nat)) : State :=
  match rs.findSome? (fun r => s.badWord r.1 (r.2 - r.1)), s.launch? l with
  | some a, some x => if x.phase = .ending then s else
      (s.faultLaunch l 0x21 c (word ((if storeSide a then 5 else 4) * 2 ^ 60 + offOfAddr a))).tellBad a 1
  | _, _ => s

/-! ### Rotations (R93, R268) -/

/-- Does a rotation wait for jobs accepted before it? -/
def State.rotationBlocked (s : State) (rs : List RotPart) : Bool :=
  rs.any (fun r => match s.job? r.job with
    | some j => s.jobs.any (fun x => decide (x.id < j.id) && x.home == j.home && !x.isDevice &&
        !rs.any (fun y => y.job == x.id) && feetConflict x.feet j.feet)
    | none => false)

/-- Every source is read before any destination is written; each destination takes its predecessor's source. A member whose covered command
lies outside its card writes nothing and arrives with the engine-fault flag (R111; log 114). -/
def State.rotate (s : State) (rs : List RotPart) : State :=
  let reads := rs.map (fun r => (succOf r.core, s.bytes (poolAt r.core r.src) r.len))
  let outside := fun (r : RotPart) => match s.job? r.job with | some j => j.engineFault | none => false
  let s := (rs.filter (fun r => !outside r)).foldl (fun s r => match reads.find? (fun x => x.1 == r.core) with
    | some x => s.land (poolAt r.core r.dst) r.len x.2
    | none => s) s
  rs.foldl (fun s r => match s.job? r.job with
    | some j => (s.endJob j j.engineFault false).meetRanges j.launch r.core ((poolAt r.core r.src, poolAt r.core (r.src + r.len)) ::
        (if j.engineFault then [] else [(poolAt r.core r.dst, poolAt r.core (r.dst + r.len))]))
    | none => s) s

/-- ROTATION_RUN (R93). -/
def execRotationRun (cl : Nat) (s : State) : Out :=
  let s := s.formGang cl
  match (s.cluster cl).rotations with
  | rs :: rest => if s.rotationBlocked rs then done s else done ((s.modCluster cl (fun k => { k with rotations := rest })).rotate rs)
  | [] => done s

/-! ### Array operations in the order in which they formed (R281, R284 to R287) -/

/-- MSWAP_APPLY (R281): every operation that formed earlier has finished, and an MLDS completes at its issue. -/
def execMswapApply (cl : Nat) (s : State) : Out :=
  match (s.cluster cl).arrayOps with
  | o :: rest =>
    if o.swap then
      done ((s.modCluster cl (fun k => { k with planes := swapPlanes k.planes, arrayOps := rest })).postArray cl)
    else done s
  | [] => done s

/-- A member's part of the oldest operation, if it has not written its rows. -/
def State.partDue (s : State) (cl n : Nat) : Option (ArrayOp × ArrayPart) :=
  match (s.cluster cl).arrayOps with
  | o :: _ => if o.swap then none else (o.parts.find? (fun p => p.core == 8 * cl + n && !p.done)).map (fun p => (o, p))
  | [] => none

/-- The part has written its last row. -/
def ArrayOp.finish (o : ArrayOp) (c : Nat) : ArrayOp :=
  { o with parts := o.parts.map (fun p => if p.core == c then { p with done := true } else p) }

/-- ARRAY_OPERATION_COMPLETE (R284 to R286): all rows of one member, then its one arrival. -/
def execArrayOperationComplete (cl n : Nat) (s : State) : Out :=
  match s.partDue cl n with
  | some (o, p) =>
    if s.opBlocked cl o then done s
    else
      let o := s.readRows o p
      let met := s.streamRanges o p
      let r := s.streamAll o p
      let s := r.1.arrivePart p (if r.2 then flagEngine else 0)
      let o := o.finish p.core
      let ended := o.parts.all (·.done)
      let s := s.modCluster cl (fun k => { k with arrayOps := if ended then k.arrayOps.drop 1 else o :: k.arrayOps.drop 1 })
      let s := (s.post (.launchComplete p.launch)).meetRanges p.launch p.core met
      done (if ended then s.postArray cl else s)
  | none => done s

/-! ### Quiet points of wrap-up (R146) -/

/-- Every operation that the launch has issued so far has landed. -/
def State.quiet (s : State) (l : Nat) : Bool := (s.outstanding l).isEmpty && !s.arrayBusy l

/-- The wrap-up slots of a launch that wait at a barrier. -/
def State.quietWaiters (s : State) (l : Nat) : List (Nat × Nat) :=
  s.cores.flatMap (fun e => (e.2.slots.filter (fun x => x.2.ofLaunch l && x.2.kind == .wrapup && x.2.st == .stalled &&
    (match x.2.stall with | some (.barrier _ _) => true | _ => false))).map (fun x => (e.1, x.1)))

/-- A quiet point ends a wait: the cancelled flag is set, and the wait has met it (R146). -/
def State.quietWait (s : State) (c n : Nat) : State :=
  let x := s.slot c n
  match x.stall, x.met with
  | some (.barrier a ph), none =>
    if (s.wordAt a).getLsbD 48 = ph then s else
    let w := s.wordAt a ||| word flagCancelled
    ((s.pokeWord a w).acquireShort c n a).modSlot c n (fun x => { x with met := some w })
  | _, _ => s

/-- WRAPUP_QUIET_POINT (R146): a wrap-up firing's barrier wait ends with the cancelled flag, at a quiet point now or met before. -/
def execWrapupQuietPoint (l : Nat) (s : State) : Out :=
  match s.launch? l, (s.quietWaiters l).find? (fun y => s.quiet l || (s.slot y.1 y.2).met != none) with
  | some x, some y =>
    if x.phase = .wrapping then done ((s.runWaiting y.1 y.2).post (.wrapupQuietPoint l)) else done s
  | _, _ => done s

end Sys2Proof.Machine
end

