-- ==== Sys2Proof/Machine/Channels.lean ====
section
/-! DEFINITION. Channel words, ring words, credits and walker messages as they travel and arrive (R45 to R47, R64 to R71, R90, R251,
R406). -/

namespace Sys2Proof.Machine

/-! ### Token buckets (R425) -/

/-- The rate of the transport configuration that a tenant runs under (R422); 0 is no limit. -/
def State.rate (s : State) (t : Nat) : Nat := bitsOf (msgWord (((Tab.find s.tenants t).map (·.transport)).getD []) 3) 31 0
def State.burst (s : State) (t : Nat) : Nat := bitsOf (msgWord (((Tab.find s.tenants t).map (·.transport)).getD []) 3) 63 32

/-- Charge flits to the bucket of a cluster (R425). -/
def State.charge (s : State) (t cl flits : Nat) : State :=
  if s.rate t = 0 then s else s.modCluster cl (fun k => { k with bucket := k.bucket - (64 * flits : Nat) })

/-! ### Channel words (R45 to R47, R251) -/

def OutWord.core (w : OutWord) : Nat := 8 * bitsOf w.dest.toNat 47 37 + bitsOf w.dest.toNat 36 34
def OutWord.handler (w : OutWord) : Nat := bitsOf w.dest.toNat 33 29
def OutWord.chan (w : OutWord) : Nat := bitsOf w.dest.toNat 28 27
def OutWord.arrived (w : OutWord) : ChanWord := ⟨w.handler, w.chan, w.launch, w.word, w.tag, none, w.credited, w.seen⟩

/-- Has the destination channel a free slot on a core? -/
def Core.roomFor (k : Core) (w : OutWord) : Bool :=
  decide ((k.channels.filter (fun x => x.handler == w.handler && x.chan == w.chan)).length < inSlots ((k.handler w.handler).input w.chan))

/-- The destination NI is offered a word: the state after it accepted the word, or none where it turned the word back. Words of a launch
that has stopped at the destination are discarded and counted (R141). One sent under a mirror's credit is accepted even where words sent
through the engine space hold every declared slot, and then stands beyond them (R251; DESIGN CHOICE, log 142). -/
def State.accept (s : State) (w : OutWord) : Option State :=
  match s.launch? w.launch with
  | none => some s
  | some l =>
    let d := w.core
    match s.away l (clusterOf d) with
    | some (e, x) =>
      if w.credited || (Tab.get Core.initial x.cores d).roomFor w then
        let k := Tab.get Core.initial x.cores d
        let k := { k with channels := k.channels ++ [w.arrived] }
        some ((s.modSavedCore e x d (fun _ => k)).writeChannel l.tenant e d w.handler w.chan k)
      else none
    | none =>
      if s.stopped d w.launch then some ((s.countWords w.launch 1).freedWord d w.arrived)
      else if w.credited || (s.core d).roomFor w then
        some ((s.modCore d (fun k => { k with channels := k.channels ++ [w.arrived] })).evalRules d)
      else none

def Core.outQueue (k : Core) (net : Nat) : List OutWord := if net = 0 then k.outReq else k.outRep
def Core.setOutQueue (k : Core) (net : Nat) (q : List OutWord) : Core := if net = 0 then { k with outReq := q } else { k with outRep := q }

/-- The first word of a queue that may be offered: no word for the same channel stands turned back before it (R251), and none that the
core sent earlier stands in its other queue (R45). -/
def nextOffer (other : List OutWord) (turned : List Word) : List OutWord → Option OutWord
  | [] => none
  | w :: ws =>
    if w.turned then nextOffer other (w.dest :: turned) ws
    else if turned.contains w.dest || other.any (fun x => x.dest == w.dest && decide (x.seq < w.seq)) then nextOffer other turned ws
    else some w
/-- The word that a core offers next on a network. -/
def Core.offer (k : Core) (net : Nat) : Option OutWord := nextOffer (k.outQueue (1 - net)) [] (k.outQueue net)

/-- Does an empty bucket hold the words of the request network that leave a cluster (R425)? -/
def State.wordHeld (s : State) (c net : Nat) (w : OutWord) : Bool :=
  let t := ((s.launch? w.launch).map (·.tenant)).getD 0
  net == 0 && s.rate t != 0 && clusterOf w.core != clusterOf c && decide ((s.cluster (clusterOf c)).bucket ≤ 0)

/-- A word leaves the cluster: its flit is charged. -/
def State.chargeWord (s : State) (c net : Nat) (w : OutWord) : State :=
  if net = 0 ∧ clusterOf w.core ≠ clusterOf c then s.charge (((s.launch? w.launch).map (·.tenant)).getD 0) (clusterOf c) 1 else s

/-- The receiving NI refuses a word of a tenant that may not reach its cluster (R377): the word leaves its queue and its credit returns,
and the sending core takes a trap of cause 0x12 that names the sending instruction; a word has no barrier, so TRAPADDR is free
(log 17). -/
def State.refuseWord (s : State) (c : Nat) (w : OutWord) : State :=
  let s := if w.credited then (s.giveMirror c (destKey w.core w.handler w.chan) 1).evalRules c else s
  s.drew.raise c ⟨0x12, w.pc, word w.op, s.free, w.launch⟩

/-- The word is one that R377 refuses. -/
def State.wordRefused (s : State) (w : OutWord) : Bool :=
  match s.launch? w.launch with
  | some l => !s.permits l.tenant (clusterOf w.core)
  | none => false

/-- CHANNEL_WORD_ARRIVAL (R45, R46, R251): the oldest word that may leave the queue is offered to its destination. -/
def execChannelWordArrival (c net : Nat) (s : State) : Out :=
  let q := (s.core c).outQueue net
  match (s.core c).offer net with
  | some w =>
    if s.wordHeld c net w then done s
    else
    let s := s.chargeWord c net w
    let s := if s.wordRefused w then (s.modCore c (fun k => k.setOutQueue net (removeFirst w q))).refuseWord c w else match (s.modCore c (fun k => k.setOutQueue net (removeFirst w q))).accept w with
      | some s' => s'
      | none => s.modCore c (fun k => k.setOutQueue net (q.map (fun x => if x == w then { x with turned := true } else x)))
    done (if ((s.core c).offer net).isSome then s.post (.channelWordArrival c net) else s)
  | none => done s

/-- WORD_REOFFER (R251): each turned-back word is offered again, the oldest first; the first that is accepted, or refused (R377), leaves
its place. -/
def execWordReoffer (c net : Nat) (s : State) : Out :=
  let q := (s.core c).outQueue net
  let try' := fun (w : OutWord) =>
    let s := s.modCore c (fun k => k.setOutQueue net (removeFirst w q))
    if s.wordRefused w then some (s.refuseWord c w) else s.accept w
  match (q.filter (fun w => w.turned)).findSome? try' with
  | some s' => done ((s'.post (.wordReoffer c net)).post (.channelWordArrival c net))
  | none => done s

/-- FREE_SLOT_RETURN (R47): a free slot raises the sender's mirror, and its firing rules are evaluated. -/
def execFreeSlotReturn (c ch : Nat) (s : State) : Out :=
  if (s.core c).returns.contains ch then
    done (((s.modCore c (fun k => { k with returns := removeFirst ch k.returns })).giveMirror c ch 1).evalRules c)
  else done s

/-- A ring word arrives in a neighbour's queue, or is discarded there and counted (R90, R141). -/
def State.ringArrives (s : State) (d : Nat) (w : QWord) (at4 : Bool) : State :=
  if s.stopped d w.launch then s.countWords w.launch 1
  else s.modCore d (fun k => if at4 then { k with ring4 := k.ring4 ++ [w] } else { k with ring5 := k.ring5 ++ [w] })

/-- RING_WORD_ARRIVAL (R90): the oldest word pushed at k4 reaches the successor's k5, and the oldest pushed at k5 the predecessor's
k4. -/
def execRingWordArrival (c : Nat) (s : State) : Out :=
  let k := s.core c
  let s := s.modCore c (fun k => { k with ringOut4 := k.ringOut4.drop 1, ringOut5 := k.ringOut5.drop 1 })
  let s := match k.ringOut4 with
    | w :: _ => s.ringArrives (succOf c) w false
    | [] => s
  let s := match k.ringOut5 with
    | w :: _ => s.ringArrives (predOf c) w true
    | [] => s
  done (if (s.core c).ringOut4.isEmpty && (s.core c).ringOut5.isEmpty then s else s.post (.ringWordArrival c))

/-! ### Walker messages (R63 to R68) -/

/-- A walker message at its owner's cluster, or in its launch's spill queue there while the context is saved (R406). -/
def State.sendWalker (s : State) (w : Walker) : State :=
  match s.launch? w.launch with
  | none => s
  | some l =>
    let owner := ownerCore (word w.key) l.hashSeed l.base l.size
    let cl := clusterOf owner
    match s.away l cl with
    | none => s.walkerArrives cl w
    | some (e, x) =>
      let k := Tab.get Cluster.initial x.clusters cl
      let n := Tab.get 0 k.spillNext w.launch
      let k := k.enqueue w s.serial
      let s := { s.modSavedCluster e x cl (fun _ => k) with serial := s.serial + 1 }
      if (k.spillOf w.launch).length > spillCap then s.faultLaunch w.launch 0x20 (8 * cl) (s.queueAddr cl l)
      else s.spillJob cl l [(spillLine n, w.words), (0, k.spillHeader w.launch)]

/-- Which of n messages arrives next: walker messages of one sender keep no order (R64), so a free value chooses (log 83). -/
def State.walkerPick (s : State) (n : Nat) : Nat := if n ≤ 1 then 0 else s.free.toNat % n

/-- WALKER_MESSAGE_ARRIVAL (R64, R65, R68): a message of a core's walker queue reaches its owner. -/
def execWalkerMessageArrival (c : Nat) (s : State) : Out :=
  let q := (s.core c).outWalk
  let i := s.walkerPick q.length
  match q[i]? with
  | some w =>
    let s := if q.length ≤ 1 then s else s.drew
    let s := (s.modCore c (fun k => { k with outWalk := q.eraseIdx i })).sendWalker w
    done (if q.length ≤ 1 then s else s.post (.walkerMessageArrival c))
  | none => done s

/-- HOLD_REACHED (R67): the entry, named by its number, becomes pending; its age counts from now. -/
def execHoldReached (cl e : Nat) (s : State) : Out :=
  match (s.cluster cl).warren.find? (fun x => x.serial == e && !x.pending) with
  | some x =>
    if x.holdEnd ≤ s.fabric then
      done ((s.modCluster cl (fun k => { k with warren := k.warren.map (fun y =>
        if y.serial == e then { y with pending := true, since := s.now } else y) })).post (.firingStart x.owner))
    else done s
  | none => done s

end Sys2Proof.Machine
end

