-- ==== Sys2Proof/Machine/Records.lean ====
section
/-! DEFINITION. Completion records and events, the end of a launch's course, queues, cancellation, and the mailbox registers (R49, R50,
R52, R149, R150, R361, R363, R364, R367). -/

namespace Sys2Proof.Machine

/-! ### Record jobs -/

/-- What the write of a record is for. -/
inductive RecordOf where
  /-- status 0 at placement -/
  | pending
  /-- the final record of a live launch -/
  | final
  /-- the record of a launch that was never placed -/
  | unplaced
  deriving DecidableEq, Repr

def RecordOf.code : RecordOf → Nat
  | .pending => 0
  | .final => 1
  | .unplaced => 2
def recordOfCode (n : Nat) : RecordOf := if n = 0 then .pending else if n = 1 then .final else .unplaced

/-- What a record's write and its completion event need, kept in the job's run. -/
structure RecInfo where
  addr : Word
  what : RecordOf
  launch : Nat
  /-- word 0 -/
  head : Word
  seq : Nat
  fn : Nat
  mailbox : Nat
  ring : Nat
  /-- the queue that advances, if one waits on it -/
  queue : Option Nat
  /-- all 64 bytes, or word 0 alone -/
  full : Bool
  deriving DecidableEq, Repr

def RecInfo.run (r : RecInfo) : List Word :=
  [r.addr, word r.what.code, word r.launch, r.head, word r.seq, word r.fn, word r.mailbox, word r.ring,
   word (match r.queue with | some q => q | none => 65536), word (boolNat r.full)]
def recInfoOf (run : List Word) : RecInfo where
  addr := rw run 0
  what := recordOfCode (rn run 1)
  launch := rn run 2
  head := rw run 3
  seq := rn run 4
  fn := rn run 5
  mailbox := rn run 6
  ring := rn run 7
  queue := if rn run 8 < 65536 then some (rn run 8) else none
  full := rn run 9 == 1

/-- A record is written as a job of the device (R52, R54). -/
def State.addRecord (s : State) (r : RecInfo) (tenant core : Nat) : State :=
  s.addJob { Job.blank with
    opcode := jobRecord
    run := r.run
    core := core
    launch := r.launch
    tenant := tenant
    declared := if r.full then 64 else 8
    total := 1 }

/-- Word 0 of a record (R150): the faulting core and cluster, class, status. -/
def recordHead (status cls place : Nat) : Word :=
  word (if status = 4 then place % 8 * 2 ^ 32 + place / 8 % 65536 * 2 ^ 16 + cls % 256 * 2 ^ 8 + status else cls % 256 * 2 ^ 8 + status)

/-- Words 1 to 7 of a launch's final record (R134, R150). -/
def State.recordTail (s : State) (l : Launch) : List Word :=
  [word s.now, if l.status = 4 then l.value else 0, word (l.walkWords * 2 ^ 32 + l.chanWords),
   l.map.extractLsb' 0 64, l.map.extractLsb' 64 64,
   word (l.demotions * 2 ^ 48 + l.recalls * 2 ^ 32 + l.strips * 2 ^ 16 + l.refusals), word (l.wrapCount % 2 ^ 32)]

/-- The eight words that a record job writes now. -/
def State.recordWords (s : State) (r : RecInfo) : List Word :=
  match r.what with
  | .pending => List.replicate 8 0
  | .final => match s.launch? r.launch with
    | some l => r.head :: s.recordTail l
    | none => [r.head]
  | .unplaced => if r.full then r.head :: word s.now :: List.replicate 6 0 else [r.head]

/-- The completion event (R367): `lost` when no record was written. -/
def State.completionEvent (s : State) (r : RecInfo) (lost : Bool) : State :=
  s.postEvent r.fn r.ring 0x0010 (0x1000 + r.mailbox) r.addr
    (word (r.seq % 2 ^ 32 * 2 ^ 32 + boolNat lost * 2 ^ 16 + bitsOf r.head.toNat 15 0))

/-! ### Queues (R49) -/

def State.queue (s : State) (q : Nat) : List Queued := Tab.get [] s.queues q
def State.setQueue (s : State) (q : Nat) (l : List Queued) : State := { s with queues := Tab.set s.queues q l }

def Queued.seq (m : Queued) : Nat := bitsOf (msgWord m.msg 0) 63 32
def Queued.deadline (m : Queued) : Nat := msgWord m.msg 3
def Queued.ring (m : Queued) : Nat := bitsOf (msgWord m.msg 7) 47 32
def Queued.crec (m : Queued) : Word := m.msg.getD 5 0

/-- Is a queue's predecessor's record still to be written: of a live launch, or of one that was never placed? -/
def State.queueBusy (s : State) (q : Nat) : Bool :=
  s.launches.any (fun e => e.2.queue == q) ||
    s.jobs.any (fun j => j.opcode == jobRecord && (recInfoOf j.run).what == RecordOf.unplaced && (recInfoOf j.run).queue == some q)

/-- The queue advances: its next launch no longer waits behind another, or has expired while it did (R49, R149). -/
def State.queueAdvance (s : State) (q : Nat) : State :=
  match s.queue q with
  | m :: rest =>
    if s.queueBusy q then s
    else if m.behind ∧ m.deadline ≠ 0 ∧ m.deadline ≤ s.now then
      (s.setQueue q ({ m with late := true } :: rest)).post (.expiredInQueue q)
    else
      let s := (s.setQueue q ({ m with behind := false } :: rest)).post (.placement q)
      if m.deadline ≠ 0 then s.timerNs m.deadline (.deadlineBeforePlacement q) else s
  | [] => s

/-- A launch is submitted to its queue (R363). -/
def State.submit (s : State) (fn m : Nat) (msg : List Word) : State :=
  let q := bitsOf (msgWord msg 0) 31 16
  let waits := !(s.queue q).isEmpty || s.queueBusy q
  let s := s.setQueue q (s.queue q ++ [⟨msg, fn, m, waits, false, false, (s.mailbox fn m).seen⟩])
  if waits then s else s.queueAdvance q

/-- Every queue whose head waits at placement tries again. -/
def State.retryPlacements (s : State) : State := s.queues.foldl (fun s e => if e.2.isEmpty then s else s.post (.placement e.1)) s

/-! ### Launches that are never placed (R49, R52, R363, R364) -/

/-- R51's reason 0x0A: the record's address allows no write. -/
def State.recordBad (s : State) (t : Nat) (a : Word) : Bool :=
  a.toNat % 64 != 0 || (pathOf a != 0 && pathOf a != 3) ||
    (match s.place 0 noLaunch t a 8 1 with
     | .refused => true
     | .mbox _ _ => true
     | _ => false)

/-- A launch ends without having been placed: its record, or its event alone where no record can be written. -/
def State.endUnplaced (s : State) (m : Queued) (status cls : Nat) (q : Option Nat) : State :=
  let r : RecInfo := {
    addr := m.crec
    what := .unplaced
    launch := noLaunch
    head := recordHead status cls 0
    seq := m.seq
    fn := m.fn
    mailbox := m.mailbox
    ring := m.ring
    queue := q
    full := status != 5 }
  if s.recordBad m.fn m.crec then
    let s := s.completionEvent r true
    match q with | some q => s.queueAdvance q | none => s
  else s.addRecord r m.fn 0

/-! ### Context entries (R396) -/

/-- The device's fields of a context entry: features and the earliest deadline of its launches. -/
def State.entrySync (s : State) (e : Nat) : State :=
  let ls := (s.launches.map (·.2)).filter (fun l => l.context == some e)
  let features := ls.foldl (fun n l => n ||| bitsOf (l.w 7) 63 48 % 16) 0
  let ds := (ls.map Launch.deadline).filter (· != 0)
  let first := ds.foldl (fun m d => if m = 0 then d else min m d) 0
  (s.poke (entryAt e) 8 (withBits (s.entryWord e 0) 51 48 features)).poke (entryAt e + 32) 8 first
def State.entrySync? (s : State) (e : Option Nat) : State :=
  match e with
  | some e => s.entrySync e
  | none => s

/-! ### The end of a launch's course (R50, R132, R149, R271, R274, R407) -/

/-- Words and entries of a launch that go with it on one core. -/
def Core.forget (k : Core) (l : Nat) : Core :=
  let mine := (k.completions.filter (fun w => w.launch == l)).length
  { k with
    completions := k.completions.filter (fun w => w.launch != l)
    complUsed := k.complUsed - mine
    journal := k.journal.map (fun e => if e.2.launch == l then (e.1, JournalEntry.free) else e)
    held := k.held.filter (· != l)
    expired := k.expired.filter (· != l)
    estimates := Tab.erase k.estimates l
    buckets := Tab.erase k.buckets l
    past := Tab.erase k.past l }

/-- Withdraw a posted buffer that no message has begun to fill (R274): no arrival, and what it held on its core is free. -/
def State.withdraw (s : State) (j : Job) : State :=
  let s := s.modCoreOf j.launch j.core (fun k => { k with
    scoreboard := k.scoreboard.filter (fun r => r.job != j.id)
    complUsed := if j.modf % 2 = 1 then k.complUsed - 1 else k.complUsed })
  { s.dropJob j.id with posted := s.posted.filter (· != j.id) }

/-- The record of a live launch is written, or cannot be (`lost`): the launch is over. -/
def State.finishLaunch (s : State) (r : RecInfo) (lost : Bool) : State :=
  match s.launch? r.launch with
  | none => s
  | some l =>
    let n := l.number
    let s := (s.jobs.filter (fun j => j.launch == n && j.unfilled)).foldl (fun s j => s.withdraw j) s
    let s := s.onContext l (fun s =>
      let s := l.clusters.foldl (fun s cl => (s.cluster cl).setts.foldl (fun s x => if x.launch == n then s.settGone cl x.gen else s) s) s
      l.cores.foldl (fun s c => if (Tab.find s.cores c).isSome then s.modCore c (fun k => k.forget n) else s) s)
    let s := { s with launches := Tab.erase s.launches n, retired := s.retired ++ [n] }
    let s := if l.status = 4 ∨ l.status = 6 then
        { s.timerNs (s.now + 10 ^ 10) .launchAreaRelease with heldAreas := s.heldAreas ++ [(l.context.getD (960 + l.tenant), l.area, s.now + 10 ^ 10)] }
      else s
    let s := s.entrySync? l.context
    let s := (s.completionEvent r lost).queueAdvance l.queue
    s.retryPlacements.post .launchNumberRelease

/-- A record's write has landed, or was refused (R52). -/
def State.recordDone (s : State) (j : Job) (lost : Bool) : State :=
  let r := recInfoOf j.run
  let s := s.dropJob j.id
  match r.what with
  | .pending => (s.post (.completionRecordWrite r.launch)).post (.launchComplete r.launch)
  | .final => s.finishLaunch r lost
  | .unplaced =>
    let s := s.completionEvent r lost
    match r.queue with
    | some q => s.queueAdvance q
    | none => s

/-! ### Cancellation (R149, R364) -/

/-- A live launch is cancelled: as R58, without wrap-up. Where the launch has already ended under R58 only its status changes. -/
def State.cancelLive (s : State) (l : Launch) : State :=
  let s := { s with jobs := s.jobs.filter (fun j => !(j.opcode == jobRecord && j.launch == l.number && (recInfoOf j.run).what == RecordOf.final)) }
  if l.phase = .ending ∧ l.status = 4 then
    (s.modLaunch l.number (fun z => { z with status := 6, cls := 0, value := 0, place := 0 })).post (.completionRecordWrite l.number)
  else
    (s.modLaunch l.number (fun z => if z.phase = Phase.ending then { z with phase := .running } else z)).endLaunch l.number 6 0 0 0

/-- The record of a launch that was never placed, while its write still waits. -/
def Job.unplacedRecord (j : Job) (fn m seq : Nat) : Bool :=
  let r := recInfoOf j.run
  j.opcode == jobRecord && r.what == RecordOf.unplaced && r.fn == fn && r.mailbox == m && r.seq == seq

/-- A write of a sequence to CANCEL of mailbox m of function fn (R364): a live launch of it, one that waits in a queue, whichever the
mailbox fed then, or one whose record was decided without a placement and is not yet written. -/
def State.cancel (s : State) (fn m seq : Nat) : State :=
  let result := fun (s : State) (n : Nat) => { s with mailboxes := Tab.set s.mailboxes (mailboxKey fn m) { s.mailbox fn m with cancelResult := n } }
  let mine := fun (x : Queued) => x.fn == fn && x.mailbox == m && x.seq == seq
  match (s.launches.map (·.2)).find? (fun l => l.fn == fn && l.mailbox == m && l.seq == seq) with
  | some l => if l.status = 6 then result s 2 else result (s.cancelLive l) 1
  | none =>
    match s.queues.find? (fun e => e.2.any mine) with
    | some e =>
      let s1 := s.setQueue e.1 (e.2.filter (fun y => !mine y))
      (match e.2.find? mine with
       | some x => result (s1.endUnplaced x 6 0 (if x.behind then none else some e.1)) 1
       | none => result s 2)
    | none =>
      match s.jobs.find? (fun j => j.unplacedRecord fn m seq) with
      | some j =>
        let r := recInfoOf j.run
        if bitsOf r.head.toNat 7 0 = 6 then result s 2
        else result (s.setJob { j with run := { r with head := recordHead 6 0 0, full := true : RecInfo }.run, declared := 64 }) 1
      | none => result s 2

/-! ### Mailbox registers (R361, R363) -/

/-- C of a mailbox. -/
def State.consumed (s : State) (fn m : Nat) : Nat :=
  match s.mailboxPlace fn (s.mailbox fn m) 8 with
  | some p => (s.wordAt p).toNat
  | none => 0

/-- Word 0 of the slot that C names. -/
def State.nextSlotWord (s : State) (fn m : Nat) : Nat :=
  let b := s.mailbox fn m
  match s.mailboxPlace fn b (128 * (s.consumed fn m % 2 ^ b.log2 + 1)) with
  | some p => (s.wordAt p).toNat
  | none => 0

/-- Is that slot sealed (R360)? -/
def State.slotSealed (s : State) (fn m : Nat) : Bool := bitsOf (s.nextSlotWord fn m) 63 32 == (s.consumed fn m + 1) % 2 ^ 32

/-- A register of a mailbox block at an offset of the page. -/
def State.mailboxRead (s : State) (fn off : Nat) : Word :=
  let m := (off - 0x1000) / 64
  let b := s.mailbox fn m
  match off % 64 / 8 with
  | 0 => b.tail
  | 1 => word (s.consumed fn m)
  | 3 => word (b.cancelResult * 2 ^ 8 + boolNat (decide (s.consumed fn m < b.tail.toNat) && !s.slotSealed fn m))
  | _ => 0

/-- A write of a register of a mailbox block. -/
def State.mailboxWrite (s : State) (fn off : Nat) (x : Word) : State :=
  let m := (off - 0x1000) / 64
  match off % 64 / 8 with
  | 0 => s.raiseTail fn m x
  | 2 => s.cancel fn m (bitsOf x.toNat 31 0)
  | _ => s

end Sys2Proof.Machine
end

