-- ==== Sys2Proof/Machine/Jobs.lean ====
section
/-! DEFINITION. The course of engine jobs (R78, R163, R236, R261 to R274, R308): how a piece or element is performed, what makes it wait
or refuses it, and what the last one brings; and the device's own jobs (R58, R129, R150). -/

namespace Sys2Proof.Machine
open Sys2Proof.Num

/-- Why a piece is not performed now. -/
inductive Stop where
  /-- an absent page: the stage, the record's address, the access kind (R384, R386) -/
  | absent (stage rec kind : Nat)
  /-- a host-owned page (R369) -/
  | host (addr : Word)
  /-- a refusal (R261) -/
  | refused
  /-- an engine fault (R163) -/
  | engine
  /-- an error that cannot be corrected (R185) -/
  | bad (a : Nat) (addr : Word)
  deriving DecidableEq, Repr

abbrev Piecewise (α : Type) := Except Stop α

/-! ### Bytes that a job reaches -/

/-- May the command reach a mailbox register through word i of its run (R361)? -/
def Job.mboxOk (j : Job) (i off : Nat) : Bool :=
  ((j.opcode == 0xA3 && i == 0) || (j.opcode == 0xA2 && i == 1)) && rn j.run 2 == 8 && rn j.run i % 8 == 0 &&
    decide (0x1000 ≤ off) && decide (off < 0x2000)

/-- The saved context of a tenant on a cluster where none is resident, which a peer's packet reaches (R423; DESIGN CHOICE, log 106). -/
def State.awayFrom (s : State) (t cl : Nat) : Option (Nat × SavedCtx) :=
  if (s.cluster cl).context.isSome then none
  else s.saved.find? (fun e => e.2.tenant == t && (Tab.find e.2.clusters cl).isSome)

/-- Where n bytes that a transport packet names lie: pools and stores through path 0x6, as another launch's access (R84, R377), global bytes
under the tenant's translation (R423). -/
def State.transportPlace (s : State) (t : Nat) (addr : Word) (n kind : Nat) : Place :=
  let p := pathOf addr
  if p = 4 ∨ p = 5 then .refused
  else if p = 6 then s.remotePlace (s.awayFrom t (bitsOf addr.toNat 47 37)) noLaunch t addr.toNat n
  else s.place 0 noLaunch t addr n kind

/-- The place of a job's access: a packet that fills no buffer of a launch reaches this module as a peer's (R423). A job that uses the
translations of a page which the host is taking lands there still (R369). -/
def State.placeFor (s : State) (j : Job) (addr : Word) (n kind : Nat) : Place :=
  let p := if (j.opcode = jobLand ∨ j.opcode = jobFetch) ∧ rn j.run 2 = 0 then s.transportPlace j.tenant addr n kind
    else s.place j.core j.launch j.tenant addr n kind
  match p with
  | .hostOwned k =>
    if ((Tab.get Page.initial s.pages k).taking.getD []).contains j.id then
      (match s.devicePlace j.tenant addr kind with
       | some a => .mem a
       | none => p)
    else p
  | _ => p

/-- Does an access of n bytes at a place meet an error that cannot be corrected (R185)? -/
def State.soundAt (s : State) (p : Place) (n : Nat) (addr : Word) : Piecewise Unit :=
  let at' := match p with
    | .mem a => s.badWord a n
    | .saved a _ _ => s.badWord a n
    | _ => none
  match at' with
  | some b => .error (.bad b addr)
  | none => .ok ()

/-- The stop that a place is, for an access at an address. -/
def stopOf (addr : Word) : Place → Stop
  | .absent stage rec kind => .absent stage (if stage = 1 then addr.toNat else pathOf addr * 2 ^ 60 + rec % 2 ^ 60) kind
  | .hostOwned _ => .host addr
  | _ => .refused

/-- n bytes within a global word as a path 0x1 read finds them: the word as it stands, or as it stood before a write such that neither it nor
a later one to the word happens before the read through a release and an acquire of device or system scope (R112); a free value of the
instant and the word decides. -/
def State.oldBytes (s : State) (j : Job) (a n : Nat) : Nat :=
  let w := a / 8 * 8
  let all := s.older.filter (fun x => x.at' == w)
  let olds := all.filter (fun x => !all.any (fun y => decide (x.n ≤ y.n) && Tab.get 0 j.know y.n == 2))
  match (Config.freeAt s.freeTick (a / 8)).toNat % (olds.length + 1) with
  | 0 => s.bytes a n
  | i + 1 => ((olds.map (fun (x : OldWord) => x.word)).getD i 0).toNat / 2 ^ (8 * (a % 8)) % 2 ^ (8 * n)

/-- A job is about to write n bytes at a place: older values are kept, and the words there hold what the write releases (R105, R106). -/
def State.beforeWrite (s : State) (j : Job) (addr : Word) (a n : Nat) : State :=
  let rs := s.jobReleases j (s.numberFor addr)
  let s := s.keepOld (some j.id) j.launch addr a
  if rs = [] ∧ s.syncs = [] ∧ s.barriers = [] then s else s.setSyncs a n rs

/-- What the words among n bytes that a job has read hold. -/
def State.heldFor (s : State) (j : Job) (addr : Word) (n : Nat) : List Release :=
  if s.syncs = [] then []
  else (List.range ((addr.toNat % 8 + n + 7) / 8)).foldl (fun l i =>
    match s.placeFor j (word (addr.toNat / 8 * 8 + 8 * i)) 8 0 with
    | .mem a => addReleases l (s.syncAt a)
    | .saved a _ _ => addReleases l (s.syncAt a)
    | _ => l) []
/-- A job has read n bytes at an address: it acquires what was released to them, or leaves it to a `FENCE` (R105, R106). -/
def State.gotFrom (s : State) (j : Job) (addr : Word) (n : Nat) : State :=
  let rs := s.heldFor j addr n
  if rs = [] then s
  else match s.job? j.id with
    | some x => s.setJob (s.jobRead x rs)
    | none => s
/-- A job has used a host-window page: it has acquired what the page's giver released, and its accesses happen before the next owner's
(R113). -/
def State.usedPage (s : State) (j : Job) (addr : Word) : State :=
  let k := pageKey j.tenant addr
  let p := Tab.get Page.initial s.pages k
  let l := seenJoin (seenJoin j.know j.got) (s.writesBy j.id)
  let s := match s.job? j.id with
    | some x => if p.seen = [] then s else s.setJob { x with got := seenJoin x.got (seenAcquired 4 p.seen) }
    | none => s
  if l = [] then s else { s with pages := Tab.set s.pages k { p with used := seenJoin p.used l } }

/-- n bytes within one word. -/
def State.pullWord (s : State) (j : Job) (i : Nat) (addr : Word) (n : Nat) : Piecewise Nat := do
  s.soundAt (s.placeFor j addr n 0) n addr
  match s.placeFor j addr n 0 with
  | .mem a => .ok (if pathOf addr = 1 then s.oldBytes j a n else s.bytes a n)
  | .saved a _ _ => .ok (s.bytes a n)
  | .mbox fn off =>
    if j.mboxOk i off then .ok ((s.mailboxRead fn (off / 8 * 8)).toNat / 2 ^ (8 * (off % 8)) % 2 ^ (8 * n)) else .error .refused
  | p => .error (stopOf addr p)

/-- n bytes from an address, word by word (R102). -/
def State.pull (s : State) (j : Job) (i : Nat) : Nat → Word → Nat → Piecewise Nat
  | 0, _, _ => .ok 0
  | k + 1, addr, n =>
    if n = 0 then .ok 0
    else
      let m := min n (8 - addr.toNat % 8)
      do
        let x ← s.pullWord j i addr m
        let y ← s.pull j i k (addr + word m) (n - m)
        pure (x + y * 2 ^ (8 * m))
/-- At most n / 8 + 2 words hold n bytes. -/
def State.read (s : State) (j : Job) (i : Nat) (addr : Word) (n : Nat) : Piecewise Nat := s.pull j i (n / 8 + 2) addr n

/-- The state once the translations of an address were used. -/
def State.used (s : State) (j : Job) (addr : Word) : State :=
  let s := if [0, 1, 2, 3, 7, 9].contains (pathOf addr) then s.cached j.tenant addr else s
  let s := if pathOf addr = 3 then s.usedPage j addr else s
  if pathOf addr = 1 then s.drew else s

/-- The translations of every page of n bytes were used. -/
def State.usedOver (s : State) (j : Job) (addr : Word) (n : Nat) : State := if n = 0 then s else (pagesOf addr n).foldl (fun s a => s.used j a) s
/-- A job has read n bytes at an address. -/
def State.didRead (s : State) (j : Job) (addr : Word) (n : Nat) : State := (s.gotFrom j addr n).usedOver j addr n

/-- Write n bytes within one word. -/
def State.putWord (s : State) (j : Job) (i : Nat) (addr : Word) (n x : Nat) : Piecewise State := do
  s.soundAt (s.placeFor j addr n 1) n addr
  match s.placeFor j addr n 1 with
  | .mem a => .ok (((s.beforeWrite j addr a n).land a n x).used j addr)
  | .saved a b c => .ok (((s.beforeWrite j addr a n).landAt (.saved a b c) n x).used j addr)
  | .mbox fn off =>
    let given := (s.jobReleases j []).foldl (fun l r => seenJoin l r.seen) []
    if j.mboxOk i off then .ok ((s.giveLaunch fn ((off - 0x1000) / 64) given).mailboxWrite fn off (word x)) else .error .refused
  | p => .error (stopOf addr p)

/-- Write n bytes at an address, word by word. -/
def State.put (s : State) (j : Job) (i : Nat) : Nat → Word → Nat → Nat → Piecewise State
  | 0, _, _, _ => .ok s
  | k + 1, addr, n, x =>
    if n = 0 then .ok s
    else
      let m := min n (8 - addr.toNat % 8)
      do
        let s ← s.putWord j i addr m (x % 2 ^ (8 * m))
        s.put j i k (addr + word m) (n - m) (x / 2 ^ (8 * m))
def State.write (s : State) (j : Job) (i : Nat) (addr : Word) (n x : Nat) : Piecewise State := s.put j i (n / 8 + 2) addr n x

/-! ### Plane views (R161, R163) -/

/-- Is a nested-plane header rejected? -/
def headerBad (w : List Nat) : Bool :=
  let d := w.getD 0 0
  let e := w.getD 1 0
  decide (d < 2) || decide (8 < d) || e % 32 != 0 || e == 0 || decide (2 ^ 40 ≤ e) || (w.drop 2).any (· != 0)

/-- Byte i of a view of depth k whose header words are w. -/
def State.viewByte (s : State) (j : Job) (base : Word) (k : Nat) (w : List Nat) (i : Nat) : Piecewise Nat :=
  let d := min k (w.getD 0 0)
  let e := w.getD 1 0
  if i < 64 then .ok ((if i / 8 = 0 then d else w.getD (i / 8) 0) / 2 ^ (8 * (i % 8)) % 256)
  else if i < 64 + 64 * ((e + 2047) / 2048) + d * (64 * ((e + 511) / 512)) then s.pullWord j 1 (base + word i) 1
  else .ok 0

/-- n bytes of a view from its byte i. -/
def State.viewBytes (s : State) (j : Job) (base : Word) (k : Nat) (w : List Nat) (i : Nat) : Nat → Piecewise Nat
  | 0 => .ok 0
  | n + 1 => do
    let x ← s.viewByte j base k w i
    let y ← s.viewBytes j base k w (i + 1) n
    pure (x + 256 * y)

/-- A stop at a byte of a view, for the address as it was issued: the depth with the byte (R386). -/
def viewStop (addr : Word) : Stop → Stop
  | .absent 1 rec kind => .absent 1 (rec % 2 ^ 57 + bitsOf addr.toNat 63 57 * 2 ^ 57) kind
  | x => x

/-- The base of what a path 0x9 address names, and its header: as the job accepted it, or read now (R163). -/
def viewBase (addr : Word) : Word := word (9 * 2 ^ 60 + bitsOf addr.toNat 56 0)
def State.viewHeader (s : State) (j : Job) (addr : Word) : Piecewise (List Nat) :=
  match j.header with
  | some w => .ok w
  | none => do
    let h ← (s.read j 1 (viewBase addr) 64).mapError (viewStop addr)
    let w := (List.range 8).map (elem 64 h)
    if headerBad w then throw .engine
    pure w

/-- n bytes from byte i of what a path 0x9 address names. -/
def State.readView (s : State) (j : Job) (addr : Word) (i n : Nat) : Piecewise Nat := do
  let w ← s.viewHeader j addr
  (s.viewBytes j (viewBase addr) (bitsOf addr.toNat 59 57 + 1) w i n).mapError (viewStop addr)

/-- The job has accepted the header of the view that it reads: it is read and checked once (R163). -/
def State.acceptView (s : State) (j : Job) (addr : Word) : State :=
  if pathOf addr ≠ 9 then s
  else match s.viewHeader j addr, s.job? j.id with
    | .ok w, some x => s.setJob { x with header := some w }
    | _, _ => s

/-- n bytes from byte i of a transfer's source. -/
def State.readSource (s : State) (j : Job) (addr : Word) (i n : Nat) : Piecewise Nat :=
  if pathOf addr = 9 then s.readView j addr i n else s.read j 1 (addr + word i) n
/-- The state once those bytes were read. -/
def State.sourceRead (s : State) (j : Job) (addr : Word) (i n : Nat) : State :=
  if pathOf addr = 9 then ((s.acceptView j addr).used j (viewBase addr)).usedOver j (viewBase addr + word i) n
  else s.didRead j (addr + word i) n

/-! ### One piece or element -/

/-- What a piece did: the state, the bytes that arrive for it, and whether it lay outside its card (R269). -/
structure Done where
  s : State
  n : Nat
  outside : Bool

/-- Piece i of a transfer of n bytes (R262, R263). -/
def State.transferPiece (s : State) (j : Job) (i : Nat) : Piecewise Done := do
  let (lo, n) := pieceOf (rn j.run 0) (rn j.run 2) i
  let x ← if j.journal.isSome then pure (Mem.readN j.data lo n) else s.readSource j (rw j.run 1) lo n
  let s := if j.journal.isSome then s else s.sourceRead j (rw j.run 1) lo n
  let s ← s.write j 0 (rw j.run 0 + word lo) n x
  pure ⟨s, n, false⟩

/-- Piece i of `COPY2` (R262). -/
def State.rowPiece (s : State) (j : Job) (i : Nat) : Piecewise Done := do
  let wd := bitsOf (rn j.run 2) 31 0
  let per := (wd + 14) / 8
  let h := i / per
  let d := rw j.run 0 + word h * rw j.run 3
  let (lo, n) := pieceOf d.toNat wd (i % per)
  let src := rw j.run 1 + word h * rw j.run 4 + word lo
  let x ← s.read j 1 src n
  let s ← (s.didRead j src n).write j 0 (d + word lo) n x
  pure ⟨s, n, false⟩

/-- Does an element lie in the job's card? -/
def Job.allows (j : Job) (addr : Word) (paths : List Nat) (n : Nat) (write : Bool) : Bool :=
  match j.card with
  | some c => inCard j.core c (.span addr paths 1 n write)
  | none => true

/-- Is an address homed in another slice than the n-th? -/
def State.homedElsewhere (s : State) (j : Job) (n : Nat) (addr : Word) : Bool :=
  pathOf addr != 0 || (match s.xlate j.tenant addr 2 with
    | .ok pa => Config.homeSlice pa != n
    | .absent _ _ _ => false
    | .refused => true)
/-- Does the memory port or home slice that `EMSG` names hold an address (R270)? -/
def State.engineHolds (s : State) (j : Job) (addr : Word) : Bool :=
  match j.engine with
  | some (2, n) => if pathOf addr = 6 then bitsOf addr.toNat 47 37 == n else (pathOf addr == 4 || pathOf addr == 5) && clusterOf j.core == n
  | some (3, n) => !s.homedElsewhere j n addr
  | _ => true

/-- Element i of `GETX` or `PUTX` (R264). -/
def State.listPiece (s : State) (j : Job) (i : Nat) : Piecewise Done := do
  let sz := 2 ^ bitsOf (rn j.run 3) 34 32
  let get := j.opcode == 0xA4
  let idx ← s.read j 2 (rw j.run 2 + word (4 * i)) 4
  let table := rw j.run (if get then 1 else 0) + word (idx * sz)
  let s := s.didRead j (rw j.run 2 + word (4 * i)) 4
  if rn j.run 4 ≤ idx then pure ⟨s, sz, false⟩
  else if !j.allows table [] sz (!get) then pure ⟨s, 0, true⟩
  else if !s.engineHolds j table then throw .refused
  else
    let own := rw j.run (if get then 0 else 1) + word (i * sz)
    let x ← s.read j 1 (if get then table else own) sz
    let s := s.didRead j (if get then table else own) sz
    let s ← s.write j 0 (if get then own else table) sz x
    pure ⟨s, sz, false⟩

/-- An atomic on one word, or on two for the 16-byte form: the state and what stood there (R244, R265). -/
def State.atomic (s : State) (j : Job) (addr : Word) (wide : Bool) (op : Nat) (b b2 c c2 : Word) : Piecewise (State × Nat) := do
  let p := s.place j.core j.launch j.tenant addr (if wide then 16 else 8) 2
  let n := if wide then 16 else 8
  let chain := fun (a : Nat) =>
    (List.range (n / 8)).foldl (fun (s : State) i =>
      let rs := s.jobReleases j (s.numberFor addr)
      (s.keepOld (some j.id) j.launch addr (a + 8 * i)).addSync (a + 8 * i) rs) (s.gotFrom j addr n)
  let before := match p with
    | .mem a => chain a
    | .saved a _ _ => chain a
    | _ => s
  let go := fun (_ : Unit) =>
    let old := s.readAt p n
    let new := if !wide then (latomWord op (word old) b c).toNat
      else if old = c.toNat + c2.toNat * 2 ^ 64 then b.toNat + b2.toNat * 2 ^ 64 else old
    ((before.landAt p n new).used j addr, old)
  s.soundAt p n addr
  match p with
  | .mem _ => .ok (go ())
  | .saved _ _ _ => .ok (go ())
  | .mbox _ _ => .error .refused
  | p => .error (stopOf addr p)

/-- `AMO` or `AMOF` (R265). -/
def State.amoPiece (s : State) (j : Job) : Piecewise Done := do
  let wide := bitOf (rn j.run 1) 4
  let n := if wide then 16 else 8
  if !s.engineHolds j (rw j.run 0) then throw .refused
  let (s, old) ← s.atomic j (rw j.run 0) wide (bitsOf (rn j.run 1) 3 0) (rw j.run 2) (rw j.run 3) (rw j.run 4) (rw j.run 5)
  if j.opcode = 0xA8 then
    let s ← s.write j 6 (rw j.run 6) n old
    pure ⟨s, n, false⟩
  else pure ⟨s, n, false⟩

/-- Element i of `AMOX` (R266); a memory port or home slice refuses one that it does not hold (R270). -/
def State.amoxPiece (s : State) (j : Job) (i : Nat) : Piecewise Done := do
  let w3 := rn j.run 3
  let idx ← s.read j 2 (rw j.run 2 + word (4 * i)) 4
  let addr := rw j.run 0 + word (8 * idx)
  let s := s.didRead j (rw j.run 2 + word (4 * i)) 4
  if rn j.run 4 ≤ idx then pure ⟨s, 8, false⟩
  else if !j.allows addr pathsAtomic 8 true then pure ⟨s, 0, true⟩
  else if !s.engineHolds j addr then throw .refused
  else
    let b ← if bitOf w3 36 then s.read j 1 (rw j.run 1 + word (8 * i)) 8 else pure (rn j.run 1)
    let s := if bitOf w3 36 then s.didRead j (rw j.run 1 + word (8 * i)) 8 else s
    let r ← s.atomic j addr false (bitsOf w3 35 32) (word b) 0 0 0
    pure ⟨r.1, 8, false⟩

/-- The operation of `QST`, which the third word of its run holds, as one of R244's. -/
def qstOp (m : Nat) : Nat := 4 + m % 4

/-- `QST` in the i-th cluster of the field (R236): that cluster's protection decides, in place or in its saved image (R84, R406).
The clusters come in ascending order (DESIGN CHOICE, log 156). -/
def State.qstPiece (s : State) (j : Job) (i : Nat) : Piecewise Done :=
  match s.launch? j.launch with
  | none => .error .refused
  | some l => do
    let cl := l.base + i
    let off := bitsOf (rn j.run 0) 18 0
    let x := s.awayOf j.launch cl
    let p := s.placeIn x j.tenant cl (8 * cl) true off
    if !s.remoteAllows x j.tenant j.launch cl (8 * cl) true off 8 then throw .refused
    s.soundAt p 8 (rw j.run 0)
    pure ⟨s.landAt p 8 (latomWord (qstOp (rn j.run 2)) (word (s.readAt p 8)) (rw j.run 1) 0).toNat, 8, false⟩

/-- Word i of a frame that `CSAVE` writes (R308). -/
def State.csavePiece (s : State) (j : Job) (i : Nat) : Piecewise Done := do
  let x := ((s.slot j.core (rn j.run 0)).frameBytes [] 0)
  let s ← s.write j 1 (rw j.run 1 + word (8 * i)) 8 (Mem.readN x (8 * i) 8)
  pure ⟨s, 8, false⟩

/-- Word i of a frame that `CREST` reads, kept until the frame is whole. -/
def State.crestPiece (s : State) (j : Job) (i : Nat) : Piecewise Done := do
  let x ← s.read j 1 (rw j.run 1 + word (8 * i)) 8
  pure ⟨(s.usedOver j (rw j.run 1 + word (8 * i)) 8).setJob { j with data := Mem.writeN j.data (8 * i) 8 x }, 8, false⟩

/-- Has a slot state word a reserved bit or code (R399)? -/
def stateWordBad (w : Nat) : Bool := bitsOf w 63 57 != 0 || decide (3 < bitsOf w 2 0) || decide (5 < bitsOf w 5 3)

/-- Is an image of a frame refused: for its slot state, or for a byte of the frame that is reserved (R5, R85, R308; DEDUCED, log 126)? -/
def frameBad (m : Mem) : Bool := stateWordBad (Mem.readN m 0x9D0 8) || m.any (fun c => decide (0x9D8 ≤ c.1))

/-! ### Waiting, refusals and the end (R261, R263, R384) -/

/-- A job's place in its cluster's scheduler (R386). -/
def State.jobPlace (s : State) (j : Job) : Nat := (s.jobs.filter (fun x => x.home == j.home && decide (x.id < j.id))).length

/-- The job waits on an absent page and its NI posts a fault record (R384, R386). -/
def State.waitAbsent (s : State) (j : Job) (stage rec kind : Nat) : State :=
  let lseq := ((s.launch? j.launch).map Launch.seq).getD 0
  let s := if j.opcode = jobLand ∨ j.opcode = jobFetch then s.postFault rec (s.jobPlace j) 0xFFF 4 stage j.tenant lseq
    else s.postFault rec (s.jobPlace j) (clusterOf j.core) kind stage j.tenant lseq
  s.setJob { j with waiting := some (stage, word rec), retry := false }

/-- The job waits on a page that the host owns, and the device asks for it (R369). -/
def State.waitHost (s : State) (j : Job) (addr : Word) : State :=
  let page := word (addr.toNat / 65536 * 65536)
  (s.setJob { j with waiting := some (3, page), retry := false }).postEvent j.tenant 0 0x0040 0x0C00 page 0

/-- A job is over. A refusal leaves an asynchronous trap, and a refused posted store its journal entry, unless no trap is delivered any
more (R141, R261, R263, R311). -/
def State.finishJob (s : State) (j : Job) : State :=
  let said := !(s.stopped j.core j.launch)
  let s := match j.journal with
    | some e => s.modCore j.core (fun k =>
      let x := Tab.get JournalEntry.free k.journal e
      { k with journal := Tab.set k.journal e (if j.refused && said then { x with refused := true } else JournalEntry.free) })
    | none => s
  let s := if j.refused then
      s.raise j.core (match j.journal with
        | some e => ⟨0x10, j.pc, word e, rw j.run 0, j.launch⟩
        | none => ⟨0x12, j.pc, word j.opcode, j.barAddr, j.launch⟩)
    else s
  s.endJob j j.engineFault j.refused

/-- `CREST` takes effect when its frame is whole (R308). -/
def State.restoreFrame (s : State) (j : Job) : State :=
  let n := rn j.run 0
  if j.refused then s.finishJob j
  else if frameBad j.data then s.finishJob { j with engineFault := true }
  else
    let s := if (s.slot j.core n).st = .free then s.setSlot j.core n { Slot.ofFrame j.data 0 with
        fid := s.nextFiring
        wake := if bitOf (Mem.readN j.data 0x9D0 8) 13 then some (Tab.get 0 (s.core j.core).wakes n) else none } else s
    { s with nextFiring := s.nextFiring + 1 }.finishJob j

/-- The flits of 64 bytes that a job sends on the request network, with a header for each remote write and one for each remote read, or that
its replies bring (R425; DEDUCED from its example, log 47). Of the table of an index list only its elements travel. -/
def Job.flits (j : Job) (replies : Bool) : Nat :=
  let blocks := fun (n : Nat) => (n + 63) / 64
  let own := fun (a : Word) => pathOf a == 4 || pathOf a == 5
  let bytes := fun (r : Reach) => if j.opcode = 0xA4 ∨ j.opcode = 0xA5 ∨ j.opcode = 0xA7 then j.declared else r.rows * r.len
  if j.opcode = 0xAE then
    if j.declared = 0 then 0 else if !replies then 1 else if own (rw j.run 2) then blocks j.declared else 0
  else if j.opcode = 0xC0 ∨ j.opcode = 0xC1 then (if replies then 64 * blocks (8 * srchK j.run) else 1)
  else if j.opcode = 0x79 then (if replies then 0 else 2 * (j.declared / 8 - 1))
  else
    (reaches j.opcode j.modf j.run).foldl (fun n r =>
      if r.empty || own r.addr then n
      else n + (if replies then (if r.write then boolNat (j.opcode == 0xA8) else blocks (bytes r)) else if r.write then 1 + blocks (bytes r) else 1))
      (if j.opcode = 0xAC ∧ !replies ∧ j.declared ≠ 0 then 1 + blocks j.declared else 0)

/-- Of a job's m parts, those from the n-th to below the k-th have come back: their share of the replies is charged as it arrives (R425). -/
def State.chargeReply (s : State) (j : Job) (n k m : Nat) : State :=
  let f := j.flits true
  if f = 0 ∨ m = 0 then s else s.charge j.tenant (clusterOf j.core) (f * k / m - f * n / m)

/-- The place of piece i of a transport command, in its message. -/
def Job.messagePiece (j : Job) (i : Nat) : Nat × Nat :=
  if j.opcode = 0xAC then pieceOf (rn j.run 1) (rn j.run 2) i else pieceOf (rn j.run 2) (rn j.run 3) i
/-- Has every piece of an `XSEND` or `XGET` that has started come through, or been refused? -/
def State.messageMoved (s : State) (j : Job) : Bool :=
  (List.range j.next).all (fun i => j.landed.contains (j.messagePiece i).1) &&
    !s.jobs.any (fun x => x.opcode == jobLand && rn x.run 2 == j.id + 1)

/-- Everything performed: the job's end by its kind. -/
def State.jobDone (s : State) (j : Job) : State :=
  if j.opcode = 0xE3 then s.restoreFrame j
  else if j.opcode = 0xAC ∨ j.opcode = 0xAE then
    (if j.engineFault ∨ (j.refused ∧ j.next = 0) ∨ s.messageMoved j = true then s.finishJob j else s.setJob j)
  else if j.opcode = 0xAD then (if j.engineFault then s.finishJob j else s.setJob j)
  else s.finishJob j

/-- The next piece or element has been performed, or passed over: its bytes arrive, or the job ends. A posted store's bytes arrive
together, when its entry frees (R263). -/
def State.advance (s : State) (j : Job) (n : Nat) : State :=
  -- the data of an `XGET` come back later, as its packets land
  let s := if j.opcode = 0xAE then s else s.chargeReply j j.next (j.next + 1) j.total
  let n := if j.journal.isSome then 0 else n
  if j.next + 1 < j.total then
    let s := if n = 0 then s else s.arriveFor j n 0
    (s.setJob { j with next := j.next + 1, arrived := j.arrived + n }).post (.jobPieceLand j.id)
  else s.jobDone { j with next := j.total }

/-- A cluster refused a `QST`: its 8 bytes arrive with the refused flag, and the issuing core takes a trap for it (R236). -/
def State.qstRefused (s : State) (j : Job) : State :=
  let s := s.raise j.core ⟨0x12, j.pc, word j.opcode, j.barAddr, j.launch⟩
  if j.next + 1 < j.total then
    ((s.arriveFor j 8 flagRefused).setJob { j with next := j.next + 1, arrived := j.arrived + 8 }).post (.jobPieceLand j.id)
  else s.endJob { j with next := j.total } false true

/-- A job met an error that cannot be corrected: its launch ends with class 0x21 (R185); a job of no launch ends. -/
def State.jobBad (s : State) (j : Job) (a : Nat) (addr : Word) : State :=
  match s.launch? j.launch with
  | some l =>
    let s := if l.phase = .ending then s.finishJob { j with refused := true }
      else
        let s := (s.setJob { j with refused := true, next := j.total }).faultLaunch j.launch 0x21 j.core addr
        -- a transport command waits for no answer any more
        if j.opcode = 0xAC ∨ j.opcode = 0xAD ∨ j.opcode = 0xAE then (match s.job? j.id with
          | some x => s.finishJob x
          | none => s) else s
    s.tellBad a (boolNat (l.phase != .ending))
  | none => (s.finishJob { j with refused := true }).tellBad a 0

/-- The job after a piece that stopped. -/
def State.afterStop (s : State) (j : Job) (x : Stop) : State :=
  match x with
  | .absent stage rec kind => s.waitAbsent j stage rec kind
  | .host addr => s.waitHost j addr
  | .refused =>
    if j.opcode = 0x79 then s.qstRefused j
    else if j.opcode = 0xAC ∨ j.opcode = 0xAE then
      s.advance { j with refused := true, landed := j.landed ++ [(j.messagePiece j.next).1] } 0
    else s.advance { j with refused := true } 0
  | .engine => s.jobDone { j with engineFault := true, next := j.total }
  | .bad a addr => s.jobBad j a addr

/-! ### Transport commands on their way out (R274, R422) -/

/-- The ports that may carry a packet: those that are up, and of a known peer those of its mask (R421, R422). -/
def State.upPorts (s : State) (peer : List Word) : List Nat :=
  (List.range 16).filter (fun p => Tab.get false s.uePorts p && (peer.isEmpty || (peer.getD 0 0).getLsbD (40 + p)))
/-- A packet leaves the module: the spray gives it a port and an entropy value, both free (R421; log 139). One that no port may carry waits
for a port. -/
def State.sendPacket (s : State) (x : Sent) : State :=
  match s.upPorts x.entry with
  | [] => { s with unsent := s.unsent ++ [x] }
  | ps => { s.drew with sent := s.sent ++ [{ x with port := ps[s.free.toNat % 16 % ps.length]?, entropy := s.free >>> 8 }] }
/-- Packets that waited for a port leave. -/
def State.sendWaiting (s : State) : State := s.unsent.foldl (fun (s : State) x => s.sendPacket x) { s with unsent := [] }

/-- The bytes of a tenant's messages to a peer that are on their way. -/
def State.onTheWay (s : State) (t peer : Nat) : Nat :=
  (s.jobs.filter (fun j => j.opcode == 0xAC && j.tenant == t && rn j.run 0 == peer && j.started)).foldl (fun n j =>
    (List.range j.next).foldl (fun n i => if j.landed.contains (j.messagePiece i).1 then n else n + (j.messagePiece i).2) n) 0
/-- The congestion window, round trip and marked fraction that an engine has for a peer; a window of 0 is none yet (log 139). -/
def State.congestionOf (s : State) (t peer : Nat) : Nat × Nat × Nat := Tab.get (0, 0, 0) s.congestion (65536 * t + peer)
/-- Does a piece of n bytes wait: for a port, for the peer's congestion window, or for the receiver's credit (R421)? -/
def State.pieceWaits (s : State) (j : Job) (n : Nat) : Bool :=
  let way := s.onTheWay j.tenant (rn j.run 0)
  let window := (s.congestionOf j.tenant (rn j.run 0)).2.1
  (s.upPorts (j.peer.getD [])).isEmpty || (j.opcode == 0xAC && ((window != 0 && way != 0 && decide (window < way + n)) ||
    (match j.credit with | some c => decide (c < n) | none => false)))

/-- Piece i of `XSEND` leaves for the peer; it arrives here when the peer acknowledges it. -/
def State.xsendPiece (s : State) (j : Job) (i : Nat) : Piecewise Done := do
  let (lo, n) := j.messagePiece i
  let x ← s.read j 1 (rw j.run 1 + word lo) n
  let tagged := rn j.run 3 == 1
  let s := s.didRead j (rw j.run 1 + word lo) n
  let s := s.setJob { (s.job? j.id).getD j with credit := j.credit.map (· - n) }
  pure ⟨s.sendPacket {
    job := j.id
    peer := rn j.run 0
    kind := if tagged then .tagged else .write (rw j.run 5)
    addr := if tagged then rw j.run 4 else rw j.run 4 + word lo
    len := rn j.run 2
    off := lo
    n := n
    data := x
    entry := j.peer.getD []
    port := none
    entropy := 0 }, 0, false⟩

/-- Piece i of `XGET` is asked for, once its place here is there: the data land without waiting on a page (R400; DEDUCED, log 140). -/
def State.xgetPiece (s : State) (j : Job) (i : Nat) : Piecewise Done :=
  let (lo, n) := j.messagePiece i
  let dst := rw j.run 2 + word lo
  if j.landed.contains lo then .ok ⟨s, 0, false⟩
  else match s.placeFor j dst n 1 with
    | .mem _ | .saved _ _ _ => .ok ⟨s.sendPacket {
        job := j.id
        peer := rn j.run 0
        kind := .read
        addr := rw j.run 1 + word lo
        len := rn j.run 3
        off := lo
        n := n
        data := 0
        entry := j.peer.getD []
        port := none
        entropy := 0 }, 0, false⟩
    | p => .error (stopOf dst p)

/-- One piece or element of a job that is performed here. -/
def State.piece (s : State) (j : Job) : Piecewise Done :=
  let i := j.next
  match j.opcode with
  | 0xA0 => s.transferPiece j i
  | 0xA1 => s.rowPiece j i
  | 0xA2 => s.transferPiece j i
  | 0xA3 => s.transferPiece j i
  | 0xA4 => s.listPiece j i
  | 0xA5 => s.listPiece j i
  | 0xA6 => s.amoPiece j
  | 0xA7 => s.amoxPiece j i
  | 0xA8 => s.amoPiece j
  | 0xAC => s.xsendPiece j i
  | 0xAE => s.xgetPiece j i
  | 0x79 => s.qstPiece j i
  | 0xE2 => s.csavePiece j i
  | 0xE3 => s.crestPiece j i
  | _ => .ok ⟨s, 0, false⟩

/-! ### The start of a job -/

/-- An engine that `EMSG` names refuses the command: a cluster outside the permission table, or an address that it does not hold
(R270, R377). A home slice decides on each element of an index list by itself. -/
def State.engineRefuses (s : State) (j : Job) : Bool :=
  let target := if j.opcode = 0xA4 then rw j.run 1 else rw j.run 0
  match j.engine with
  | some (1, n) => !s.permits j.tenant n
  | some (2, n) => !s.permits j.tenant n || !s.engineHolds j target
  | some (3, _) => if j.opcode = 0xA7 then pathOf target != 0 else !s.engineHolds j target
  | _ => false

/-- Does an empty bucket hold what the job would send? -/
def State.bucketHolds (s : State) (j : Job) : Bool :=
  s.rate j.tenant != 0 && j.flits false != 0 && decide ((s.cluster (clusterOf j.core)).bucket ≤ 0)

/-- The lists of a search that have not landed may land (R78). -/
def State.postLists (s : State) (j : Job) : State :=
  ((List.range 64).filter (fun ch => !j.landed.contains ch)).foldl (fun s ch => s.post (.searchListLand j.id ch)) s

/-- The job begins: what refuses it as a whole is decided now. -/
def State.startJobAt (s : State) (j : Job) : State :=
  if s.bucketHolds j then s
  else
    let s := s.charge j.tenant (clusterOf j.core) (j.flits false)
    let peerless := (j.opcode == 0xAC || j.opcode == 0xAE) && j.peer.isNone
    let j := { j with started := true }
    if j.engineFault then s.jobDone { j with next := j.total }
    else if s.engineRefuses j || peerless then s.finishJob { j with refused := true, next := j.total }
    else if j.total = 0 then s.jobDone j
    else if j.opcode = 0xC0 ∨ j.opcode = 0xC1 then (s.setJob j).postLists j
    else (s.setJob j).post (.jobPieceLand j.id)

/-! ### The device's own jobs -/

/-- Land a block of a map of bytes, from its byte off. -/
def State.landBlock (s : State) (a n : Nat) (m : Mem) (off : Nat) : State :=
  { s with mem := Mem.overlay (s.mem.zero a n) (m.moved off n (fun o => a + o)) }

/-- One 64 KiB block of a device job at its address. -/
def State.blockPiece (s : State) (j : Job) (n : Nat) (m : Mem) (off : Nat) : Piecewise State :=
  let addr := rw j.run 0 + word (65536 * j.next)
  match s.place j.core j.launch j.tenant addr 8 1 with
  | .mem a => .ok ((s.landBlock a n m off).used j addr)
  | p => .error (stopOf addr p)

/-- The eviction is complete (R129, R132): the granules are free, the sett is displaced, and the event is posted; at the end of the
launch the sett is gone. -/
def State.evictDone (s : State) (j : Job) : State :=
  let cl := rn j.run 1
  let gen := rn j.run 2
  let s := s.dropJob j.id
  let s := match s.sett? cl gen with
    | none => s
    | some x =>
      let s := if x.gang then s.modCluster cl (fun k => { k with planes := [] }) else s
      if j.modf = 9 then s.settGone cl gen
      else
        let s := ((s.modCluster cl (fun k => { k with granules := releaseFrom x 0 k.granules })).released cl).modSett cl gen (fun y => { y with st := .displaced })
        let s := (s.settOutcome cl gen none false).dropRecalls cl (x.handle cl)
        match s.launch? x.launch with
        | some l => s.postEvent l.fn l.ring (if j.modf = 0 then 0x0020 else 0x0021) (clusterOf x.holder) (x.handle cl) (word j.modf)
        | none => s
  s.post (.completionRecordWrite j.launch)

/-- Do writes issued before, or operations of the array, still keep an eviction waiting (R129)? -/
def State.evictWaits (s : State) (cl gen : Nat) : Bool :=
  match s.sett? cl gen with
  | none => false
  | some x => if x.gang then !(s.cluster cl).arrayOps.isEmpty || (s.cluster cl).gangIssuedAll else s.settWriters cl x 0

/-- One step of an eviction where the sett stands in place. -/
def State.evictStepHere (s : State) (j : Job) : State :=
  let cl := rn j.run 1
  let gen := rn j.run 2
  if s.evictWaits cl gen then s
  else if j.total ≤ j.next then s.evictDone j
  else match s.sett? cl gen with
    | none => s.evictDone j
    | some x =>
      let n := if x.gang then 16384 else min 65536 (8192 * x.size - 65536 * j.next)
      let r := if x.gang then s.blockPiece j n (s.cluster cl).planeBytes 0
        else s.blockPiece j n s.mem (storeAt cl (8192 * x.first + 65536 * j.next))
      match r with
      | .ok s => (s.setJob { j with next := j.next + 1 }).post (.jobPieceLand j.id)
      | .error .refused => (s.setJob { j with next := j.next + 1 }).post (.jobPieceLand j.id)
      | .error (.absent stage rec kind) => s.waitAbsent j stage rec kind
      | .error (.host addr) => s.waitHost j addr
      | .error _ => s

/-- One step of an eviction, of a sett in place or in its launch's saved context (R58, R133). -/
def State.evictStep (s : State) (j : Job) : State :=
  match s.launch? j.launch with
  | some l => s.onContext l (fun s => s.evictStepHere j)
  | none => s.evictStepHere j

def State.imageStep (s : State) (j : Job) : State :=
  if j.total ≤ j.next then (s.dropJob j.id).post (.completionRecordWrite j.launch)
  else match s.blockPiece j 65536 j.data (65536 * j.next) with
    | .ok s => (s.setJob { j with next := j.next + 1 }).post (.jobPieceLand j.id)
    | .error (.absent stage rec kind) => s.waitAbsent j stage rec kind
    | .error (.host addr) => s.waitHost j addr
    | .error _ => (s.setJob { j with next := j.next + 1 }).post (.jobPieceLand j.id)

/-- A record's word is a release, at system scope, of every write of its launch and of what happens before its firings' ends (R106, R115). -/
def State.recordRelease (s : State) (j : Job) : Release :=
  let mine := seenOf ((s.older.filter (fun x => x.launch == j.launch)).map (·.n))
  let l := match s.launch? j.launch with
    | some l => seenJoin (seenJoin mine l.told) l.seen
    | none => []
  ⟨4, some j.core, seenReleased 4 l, false⟩

/-- A record's line is written, word 0 last (R150). -/
def State.recordStep (s : State) (j : Job) : State :=
  let addr := rw j.run 0
  match s.place j.core j.launch j.tenant addr 8 1 with
  | .mem a =>
    let ws := s.recordWords (recInfoOf j.run)
    let s := (List.range ws.length).foldl (fun (s : State) i => s.keepOld (some j.id) j.launch addr (a + 8 * i)) s
    let s := (List.range (ws.length - 1)).foldl (fun s i => s.land (a + 8 * (i + 1)) 8 (ws.getD (i + 1) 0).toNat) s
    ((((s.land a 8 (ws.getD 0 0).toNat).setSyncs a (8 * ws.length) []).setSync a [s.recordRelease j]).used j addr).recordDone j false
  | .absent stage rec kind => (match stopOf addr (.absent stage rec kind) with
      | .absent st r k => s.waitAbsent j st r k
      | _ => s)
  | .hostOwned _ => s.waitHost j addr
  | _ => s.recordDone j true

/-- One line of a walker spill queue is written, after the lines before it (R407); one whose translation is refused is not (DESIGN CHOICE,
log 149). -/
def State.spillStep (s : State) (j : Job) : State :=
  if s.jobs.any (fun x => x.opcode == jobSpill && decide (x.id < j.id) && rw x.run 0 == rw j.run 0) then s
  else if j.total ≤ j.next then s.dropJob j.id
  else
    let off := rn j.run (1 + j.next)
    let addr := rw j.run 0 + word off
    match s.place j.core j.launch j.tenant addr 8 1 with
    | .mem a => (((s.landBlock a (if off = 0 then 16 else 64) j.data off).setJob { j with next := j.next + 1 }).used j addr).post (.jobPieceLand j.id)
    | .hostOwned _ => s.waitHost j addr
    | p => match stopOf addr p with
      | .absent stage rec kind => s.waitAbsent j stage rec kind
      | _ => (s.setJob { j with next := j.next + 1 }).post (.jobPieceLand j.id)

/-- A message's line may be read now, with the returns that waited behind it, or its page is absent (R70, R407). -/
def State.returnStep (s : State) (j : Job) : State :=
  let addr := rw j.run 0
  match stopOf addr (s.place j.core j.launch j.tenant addr 8 0), s.place j.core j.launch j.tenant addr 8 0 with
  | .absent stage rec kind, .absent _ _ _ => s.waitAbsent j stage rec kind
  | _, _ =>
    if s.jobs.any (fun x => x.opcode == jobSpill && x.core == j.core && (rw x.run 0 == addr || (x.run.drop (1 + x.next)).any (fun o => rw x.run 0 + o == addr))) then s
    else State.returnsDue (clusterOf j.core) j.total ((s.dropJob j.id).used j addr)

/-! ### Transport packets that reach this module (R274, R423) -/

/-- The bytes of a packet that fills a buffer, or answers an `XGET`, of this module have landed or were refused: they arrive, or the job ends
with its last (R261, R274). -/
def State.messageLanded (s : State) (b : Job) (n : Nat) (refused : Bool) : State :=
  let s := if b.opcode = 0xAE ∧ refused = false then s.chargeReply b b.arrived (b.arrived + n) b.declared else s
  let b := { b with refused := b.refused || refused, next := if b.opcode = 0xAD then b.next + n else b.next }
  let last := if b.opcode = 0xAD then decide (b.declared ≤ b.next) else decide (b.total ≤ b.next) && s.messageMoved b
  let s := if last then { s with posted := s.posted.filter (· != b.id) } else s
  if last then s.finishJob b
  else if refused then s.setJob b
  else (s.arriveFor b n 0).setJob { b with arrived := b.arrived + n }

/-- A packet's bytes have landed here, or were refused: what this module answers, by the peer's number of the packet. Data for an `XGET` are
not acknowledged. A packet that landed is noted, so that it lands once (R426). -/
def State.answerPacket (s : State) (j : Job) (refused : Bool) : State :=
  if rn j.run 4 = 0 then s
  else State.sendPacket (if refused then s else { s with gotPackets := s.gotPackets ++ [(rn j.run 3, rn j.run 5)] }) {
    job := rn j.run 3
    peer := 0
    kind := if refused then .refusal else .ack
    addr := 0
    len := 0
    off := rn j.run 5
    n := j.declared
    data := 0
    entry := []
    port := none
    entropy := 0 }

/-- The places of the words of a barrier that a peer's packet names: of a pool or store, wherever else the address leads, aligned or not
(R95, R423; DEDUCED, log 133). -/
def State.remoteBarrier (s : State) (t : Nat) (bar : Word) (i : Nat) : Place := s.transportPlace t (bar + word i) 8 1
/-- The arrival there, which carries the bytes that were placed (R110, R274); at one that is refused nothing arrives. -/
def State.arriveRemote (s : State) (t : Nat) (bar : Word) (n : Nat) (l : Seen) : State :=
  let at' := fun (i : Nat) => match s.remoteBarrier t bar i with
    | .mem a => some a
    | .saved a _ _ => some a
    | _ => none
  match at' 0, at' 8 with
  | some a, some b =>
    if bar = 0 then s
    else
      let s := (s.meets noLaunch 0 a 8).meets noLaunch 0 b 8
      s.arrive t (8 * bitsOf bar.toNat 47 37) a b n 0 l []
  | _, _ => s

/-- The bytes of a packet are placed: at its address, with an arrival at the barrier it names, whose pages are waited for first; or in a
buffer (run word 2 is the buffer's number plus 1), after the earlier jobs that its footprint meets (R111). Run word 3 is the peer's job, word
4 says whether it is told, and word 5 is its number of the packet. -/
def State.placeStep (s : State) (j : Job) : State :=
  let buffer := if rn j.run 2 = 0 then none else s.job? (rn j.run 2 - 1)
  let landed := fun (s : State) (refused : Bool) =>
    let placed := s.writesBy j.id
    let s := (s.dropJob j.id).answerPacket j refused
    match buffer.bind (fun b => s.job? b.id) with
    | some b => s.messageLanded { b with got := seenJoin b.got placed } j.declared refused
    | none => if refused || rn j.run 2 != 0 then s else s.arriveRemote j.tenant (rw j.run 1) j.declared placed
  let bar := rw j.run 1
  let waits : Option Stop := if rn j.run 2 ≠ 0 ∨ bar = 0 then none
    else [0, 8].findSome? (fun i => match s.remoteBarrier j.tenant bar i with
      | .absent st r k => some (stopOf (bar + word i) (.absent st r k))
      | .hostOwned k => some (stopOf (bar + word i) (.hostOwned k))
      | _ => none)
  if buffer.any (fun b => b.opcode == 0xAD && s.blocked b) then s
  else match waits, s.write j 0 (rw j.run 0) j.declared (Mem.readN j.data 0 j.declared) with
  | some (.absent stage rec kind), _ => s.waitAbsent j stage rec kind
  | some (.host a), _ => s.waitHost j a
  | _, .ok s => landed s false
  | _, .error (.absent stage rec kind) => s.waitAbsent j stage rec kind
  | _, .error (.host a) => s.waitHost j a
  | _, .error (.bad a addr) =>
    (match buffer with
     | some b => ((s.dropJob j.id).answerPacket j true).jobBad b a addr
     | none => (landed s true).tellBad a 0)
  | _, .error _ => landed s true

/-- A peer's read is served. -/
def State.fetchStep (s : State) (j : Job) : State :=
  let answer := fun (kind : SentKind) (n x : Nat) => ({
    job := rn j.run 3
    peer := 0
    kind := kind
    addr := 0
    len := 0
    off := 0
    n := n
    data := x
    entry := []
    port := none
    entropy := 0 } : Sent)
  match s.read j 0 (rw j.run 0) (rn j.run 1) with
  | .ok x => ((s.dropJob j.id).usedOver j (rw j.run 0) (rn j.run 1)).sendPacket (answer .data (rn j.run 1) x)
  | .error (.absent stage rec kind) => s.waitAbsent j stage rec kind
  | .error (.host a) => s.waitHost j a
  | .error (.bad a _) => ((s.dropJob j.id).sendPacket (answer .refusal 0 0)).tellBad a 0
  | .error _ => (s.dropJob j.id).sendPacket (answer .refusal 0 0)

/-- JOB_PIECE_LAND for one job. -/
def State.jobStep (s : State) (j : Job) : State :=
  if j.waiting.isSome then s
  else if j.opcode = jobEvict then s.evictStep j
  else if j.opcode = jobImage then s.imageStep j
  else if j.opcode = jobRecord then s.recordStep j
  else if j.opcode = jobSeed then s.post (.seedSend j.launch)
  else if j.opcode = jobSpill then s.spillStep j
  else if j.opcode = jobReturn then s.returnStep j
  else if j.opcode = jobLand then s.placeStep j
  else if j.opcode = jobFetch then s.fetchStep j
  else if j.opcode = 0xA9 ∨ j.unfilled ∨ j.paused ∨ j.resendAt.isSome ∨ s.blocked j = true then s
  else if !j.started then s.startJobAt j
  else if j.opcode = 0xC0 ∨ j.opcode = 0xC1 then s.postLists j
  else if j.opcode = 0xAD then s
  else if j.total ≤ j.next then s.jobDone j
  else if (j.opcode = 0xAC ∨ j.opcode = 0xAE) ∧ s.pieceWaits j (j.messagePiece j.next).2 = true then s
  else match s.piece j with
    | .ok r =>
      let j := ((r.s.job? j.id).getD j)
      r.s.advance { j with engineFault := j.engineFault || r.outside } r.n
    | .error x => s.afterStop j x

/-- JOB_PIECE_LAND (R261). -/
def execJobPieceLand (j : Nat) (s : State) : Out :=
  match s.job? j with
  | some x => done (s.jobStep x)
  | none => done s

/-! ### The channel search engines (R77, R78, R272) -/

/-- Candidate ids, in list order. -/
def State.candidateIds (s : State) (j : Job) : Nat → Word → Piecewise (List Nat)
  | 0, _ => .ok []
  | n + 1, a => do
    let x ← s.read j 1 a 4
    let xs ← s.candidateIds j n (a + 4)
    pure (x :: xs)

/-- The distance of a vector from the query (R78): groups of exact terms, each rounded into f32. -/
def searchDistance (fmt dm : Nat) (dot : Bool) (q v : Nat) : Nat :=
  let w := fmtWidth fmt
  let terms := (List.range dm).map (fun i => distTerm dot fmt (elem w q i) (elem w v i))
  (distChain 0 false 0 0 (groups dm (groupSize fmt fmt) terms)).1

/-- Where vector i of a search's table lies (R272). -/
def searchVector (run : List Word) (v i : Nat) : Word := rw run 4 + word (i % 64 * 2 ^ 39 + i / 64 * (64 * ((v + 63) / 64)))

/-- The vectors of a channel's candidates, with their ids. -/
def State.candidateVectors (s : State) (j : Job) (v : Nat) : List Nat → Piecewise (List (Nat × Nat))
  | [] => .ok []
  | i :: is => do
    let x ← s.read j 4 (searchVector j.run v i) v
    let xs ← s.candidateVectors j v is
    pure ((i, x) :: xs)

/-- Is a distance kept: not a NaN, and below `SRCHF`'s bound? -/
def searchKeeps (op : Nat) (bound d : Nat) : Bool :=
  !isNanEnc 0 d && (op != 0xC1 || (!isNanEnc 0 bound && (f32 d).le (f32 bound) && !(f32 bound).le (f32 d)))

/-- The candidates of channel ch, and those of them whose vectors lie in the job's card; the others are skipped (R269; DEDUCED, log 137). -/
def State.channelIds (s : State) (j : Job) (ch : Nat) : Piecewise (List Nat × List Nat) := do
  let ids ← s.candidateIds j (srchC j.run) (rw j.run 1)
  let v := srchV (Modf.fmt j.modf) j.run
  let mine := ids.filter (fun i => i % 64 == ch && decide (i < rn j.run 5))
  pure (mine, mine.filter (fun i => j.allows (searchVector j.run v i) [] v false))

/-- The list that the engine of channel ch lands. -/
def State.searchList (s : State) (j : Job) (ch : Nat) : Piecewise State := do
  let fmt := Modf.fmt j.modf
  let v := srchV fmt j.run
  let k := srchK j.run
  let (_, mine) ← s.channelIds j ch
  let q ← s.read j 0 (rw j.run 0) v
  let xs ← s.candidateVectors j v mine
  let pairs := (xs.map (fun x => (searchDistance fmt (srchDm j.run) (srchDot j.run) q x.2, x.1))).filter
    (fun x => searchKeeps j.opcode (rn j.run 6 % 2 ^ 32) x.1)
  let best := (sortBy pairLe (pairs.map (fun x => x.1 * 2 ^ 32 + x.2)) ++ List.replicate k emptyPair).take k
  let s := (s.didRead j (rw j.run 1) (4 * srchC j.run)).didRead j (rw j.run 0) v
  (mine.foldl (fun s i => s.didRead j (searchVector j.run v i) v) s).write j 3 (rw j.run 3 + word (8 * k * ch)) (8 * k) (pack 64 best)

/-- The lists that a search has landed, ch the newest: its bytes arrive, or the job ends. -/
def State.listLanded (s : State) (j : Job) (ch : Nat) (refused : Bool) : State :=
  let s := s.chargeReply j j.landed.length (j.landed.length + 1) 64
  let j := { j with landed := j.landed ++ [ch], next := j.next + 1, refused := j.refused || refused }
  if j.landed.length ≥ 64 then s.jobDone j
  else if refused then s.setJob j
  else
    let n := 8 * srchK j.run
    (s.arriveFor j n 0).setJob { j with arrived := j.arrived + n }

/-- Has a list been started: it, or one after it, has landed (R400)? -/
def Job.listStarted (j : Job) (ch : Nat) : Bool := j.landed.any (fun c => decide (ch ≤ c))
/-- What a list of a search waits on: lists start in their order, so an earlier one that meets an absent or host-owned page holds it back
(R384, R400). -/
def State.listWaits (s : State) (j : Job) (ch : Nat) : Option Stop :=
  ((List.range (ch + 1)).filter (fun c => !j.landed.contains c)).findSome? (fun c => match s.searchList j c with
    | .error (.absent st r k) => some (.absent st r k)
    | .error (.host a) => some (.host a)
    | _ => none)

/-- SEARCH_LIST_LAND (R78). A read that is refused refuses that channel's list alone (DESIGN CHOICE, log 150). -/
def execSearchListLand (j ch : Nat) (s : State) : Out :=
  match s.job? j with
  | some x =>
    if (x.opcode ≠ 0xC0 ∧ x.opcode ≠ 0xC1) ∨ !x.started ∨ (x.paused ∧ !x.listStarted ch) ∨ x.resendAt.isSome ∨ x.waiting.isSome ∨ x.landed.contains ch ∨ ch ≥ 64 then
      done s
    else match s.listWaits x ch, s.searchList x ch with
      | some e, _ => done (s.afterStop x e)
      | none, .ok s' =>
      let outside := match s.channelIds x ch with | .ok (a, b) => a != b | .error _ => false
      done (s'.listLanded { (s'.job? j).getD x with engineFault := x.engineFault || outside } ch false)
      | none, .error .refused => done (s.listLanded x ch true)
      | none, .error e => done (s.afterStop x e)
  | none => done s

/-- JOB_RETRY (R384, R369): a request that covers the page that a job waits on has completed, or the page has changed hands. -/
def execJobRetry (j : Nat) (s : State) : Out :=
  match s.job? j with
  | some x => if x.waiting.isSome && x.retry then done ((s.setJob { x with waiting := none, retry := false }).post (.jobPieceLand j)) else done s
  | none => done s

/-- A job that waits may try again. -/
def State.mayRetry (s : State) (j : Job) : State := (s.setJob { j with retry := true }).post (.jobRetry j.id)

/-! ### Pre-emption (R400, R401) -/

/-- Have started pieces of a job still to land: packets sent and not acknowledged, data asked for and not come (unless its placement waits
on a page), a packet's bytes on their way into a buffer, lists started and not landed? -/
def State.inFlight (s : State) (j : Job) : Bool :=
  let placing := s.jobs.filter (fun x => x.opcode == jobLand && rn x.run 2 == j.id + 1)
  if j.opcode = 0xAC ∨ j.opcode = 0xAE then
    j.started && ((List.range j.next).any (fun i => !j.landed.contains (j.messagePiece i).1) || placing.any (fun x => x.waiting.isNone))
  else if j.opcode = 0xAD then placing.any (fun x => x.waiting.isNone)
  else (j.opcode == 0xC0 || j.opcode == 0xC1) && (List.range 64).any (fun ch => j.listStarted ch && !j.landed.contains ch)

/-- A job as it is recorded for replay: of an `XGET`, what waits of its data is asked for again, from the first piece that has not landed. -/
def State.recorded (s : State) (j : Job) : Job :=
  let held := s.jobs.filter (fun x => x.opcode == jobLand && rn x.run 2 == j.id + 1)
  let landed := if j.opcode = 0xAE then j.landed.filter (fun o => !held.any (fun x => rw x.run 0 == rw j.run 2 + word o)) else j.landed
  { j with
    waiting := none
    retry := false
    resendAt := none
    landed := landed
    next := if j.opcode = 0xAE then ((List.range j.next).find? (fun i => !landed.contains (j.messagePiece i).1)).getD j.next else j.next }

end Sys2Proof.Machine
end

