-- ==== Sys2Proof/Machine/Placement.lean ====
section
/-! DEFINITION. Images as placement reads and checks them (R33, R346 to R352), refusal and placement of launches (R34, R48 to R56, R348,
R407), seed lists (R62), and completion (R54, R149, R150). -/

namespace Sys2Proof.Machine
open Sys2Proof.Num

/-! ### Reading an image -/

/-- n bytes of a tenant's memory as the device reads them now, page by page: none where a page does not translate. -/
def State.readVa (s : State) (t : Nat) : Nat → Word → Nat → Option Nat
  | 0, _, _ => some 0
  | k + 1, a, n =>
    if n = 0 then some 0
    else
      let m := min n (65536 - a.toNat % 65536)
      match s.devicePlace t a 0, s.readVa t k (a + word m) (n - m) with
      | some p, some rest => some (s.bytes p m + 2 ^ (8 * m) * rest)
      | _, _ => none
def State.vaBytes (s : State) (t : Nat) (a : Word) (n : Nat) : Option Nat := s.readVa t (n / 65536 + 2) a n

/-- Is the page of an address present and pinned (R23, R383)? A stage that is off moves nothing. -/
def State.pinnedAt (s : State) (t : Nat) (a : Word) : Bool :=
  let c := s.ctx t
  let stages := boolNat (ctxStage1 c).isSome + boolNat (ctxStage2 c).isSome
  let leaves := s.leavesFor t a
  [0, 1, 7].contains (pathOf a) && (s.devicePlace t a 0).isSome && leaves.length == stages && leaves.all (fun x => bitOf x.entry 5)

/-- Are all pages of n bytes present and pinned? -/
def State.pinned (s : State) (t : Nat) (a : Word) (n : Nat) : Bool :=
  (List.range ((a.toNat % 65536 + n + 65535) / 65536)).all (fun i => s.pinnedAt t (word (a.toNat / 65536 * 65536 + 65536 * i)))

/-- The header's words (R346). -/
def State.imageHeader (s : State) (m : List Word) (t : Nat) : Option (List Nat) := (s.vaBytes t (m.getD 1 0) 256).map (fun x => elems 64 32 x)

def hdr (h : List Nat) (i : Nat) : Nat := h.getD i 0
/-- Offset and length of a section (R347). -/
def secOff (h : List Nat) (i : Nat) : Nat := hdr h (8 + 2 * i)
def secLen (h : List Nat) (i : Nat) : Nat := bitsOf (hdr h (9 + 2 * i)) 39 0
def State.section (s : State) (m : List Word) (t : Nat) (h : List Nat) (i : Nat) : Option Nat :=
  s.vaBytes t (m.getD 1 0 + word (secOff h i)) (secLen h i)

def hasMagic (h : List Nat) : Bool := bitsOf (hdr h 0) 31 0 == 0x32435246 && bitsOf (hdr h 0) 47 32 == 1

/-- An image as placement finds it. -/
structure Found where
  head : List Nat
  codeLen : Nat
  code : Nat
  pool : Nat
  cstore : Nat
  handlers : List Handler
  /-- both words of each entry -/
  setts : List (Nat × Nat)
  relocs : List (Nat × Nat)
  deriving DecidableEq, Repr

def handlersOf (x : Nat) : List Handler := (List.range 32).map (fun i =>
  let w := fun j => word (elem 64 x (4 * i + j))
  ⟨w 0, w 1, w 2, w 3⟩)
def pairsOf (n x : Nat) : List (Nat × Nat) := (List.range n).map (fun i => (elem 64 x (2 * i), elem 64 x (2 * i + 1)))

/-- The sections that placement reads; none where one of them does not translate. -/
def State.findImage (s : State) (m : List Word) (t : Nat) (h : List Nat) : Option Found := do
  let code ← s.section m t h 0
  let pool ← s.section m t h 1
  let cstore ← s.section m t h 2
  let hs ← s.section m t h 6
  let setts ← s.section m t h 7
  let rel ← s.section m t h 8
  pure ⟨h, secLen h 0, code, pool, cstore, handlersOf hs, pairsOf 16 setts, pairsOf (secLen h 8 / 16) rel⟩

/-! ### R352 -/

/-- A reserved field of the header is not zero. -/
def headerReserved (h : List Nat) : Bool :=
  bitsOf (hdr h 0) 63 48 != 0 || bitsOf (hdr h 1) 63 52 != 0 || bitsOf (hdr h 1) 47 45 != 0 || bitsOf (hdr h 2) 31 12 != 0 ||
    bitsOf (hdr h 3) 31 5 != 0 || bitsOf (hdr h 4) 63 6 != 0 || hdr h 6 != 0 || hdr h 7 != 0 || (h.drop 28).any (· != 0)

/-- Alignments of the sections' offsets (R347). -/
def secAlign : List Nat := [4096, 8, 8, 4096, 4096, 4096, 64, 64, 16, 8]

/-- A descriptor that R347 or a length limit forbids (R23, R347, R352). -/
def sectionBad (h : List Nat) (i : Nat) : Bool :=
  let off := secOff h i
  let len := secLen h i
  bitsOf (hdr h (9 + 2 * i)) 63 40 != 0 ||
    (if len = 0 then off != 0 else off % secAlign.getD i 1 != 0 || decide (off < 256) || decide (2 ^ 48 ≤ off + len)) ||
    (i == 0 && (len % 12 != 0 || decide (65532 < len))) || (i == 2 && decide (524288 < len)) || (i == 5 && decide (65536 < len)) ||
    (i == 6 && len != 1024) || (i == 7 && len != 256) || (i == 8 && len % 16 != 0)

/-- An input descriptor that breaks R33. -/
def inputBad (hs : List Handler) (d : Nat) : Bool :=
  bitsOf d 31 28 != 0 ||
    (inSlots d != 0 && (decide (1024 < inSlots d) || inRate d == 0 || decide (inSlots d < inRate d))) ||
    (match inLight d with
     | some n => (hs.getD n Handler.masked).kindBits != 2
     | none => false)

/-- An output descriptor that breaks R33. -/
def outputBad (hs : List Handler) (d : Nat) : Bool :=
  bitsOf d 31 19 != 0 ||
    (outPresent d &&
      (let e := hs.getD (outHandler d) Handler.masked
       !e.declares (outInput d) || outRate d == 0 || decide (inSlots (e.input (outInput d)) < outRate d)))

/-- A handler entry that R33 forbids; an entry of the undeclared form is not checked. -/
def handlerBad (hs : List Handler) (codeLen : Nat) (e : Handler) : Bool :=
  e != Handler.masked &&
    (decide (5 < e.kindBits) || e.carryRule true == 3 || e.carryRule false == 3 || e.entry % 12 != 0 || decide (codeLen ≤ e.entry) ||
      bitsOf e.w0.toNat 63 60 != 0 || bitsOf e.w0.toNat 47 39 != 0 || decide (4 < e.inputs) || decide (2 < e.outputs) ||
      [0, 1, 2, 3].any (fun j => inputBad hs (e.input j)) || [4, 5].any (fun j => outputBad hs (e.output j)))

/-- A sett entry that breaks R350. -/
def settEntryBad (hs : List Handler) (e : Nat × Nat) : Bool :=
  let w := e.1
  if !bitOf w 4 then w != 0 || e.2 != 0
  else
    bitsOf w 63 36 != 0 || bitOf w 15 || bitsOf w 7 5 != 0 || e.2 != 0 || decide (1 < bitsOf w 1 0) || bitsOf w 3 2 == 3 ||
      bitsOf w 35 22 == 0 || decide (8192 < bitsOf w 35 22) || bitsOf w 14 8 == 0 || decide (64 < bitsOf w 14 8) ||
      (bitsOf w 1 0 == 1 && bitsOf w 14 8 != 1) || (bitOf w 21 && (hs.getD (bitsOf w 20 16) Handler.masked).kindBits != 4)

/-- Does the instruction at a code offset take chunk n of a relocated value (R351)? -/
def chunkAt (code place n : Nat) : Bool :=
  match fetchAt (Mem.writeN [] 0 12 (code / 2 ^ (8 * place))) 12 0 with
  | .mov _ => n == 0
  | .movh f => n != 0 && f.bits 1 0 == n
  | _ => false

/-- Is a relocation record still unresolved: the place holds the zero that the assembler wrote, in a data word, or in the chunk that names
path 0x1 for a target in section 4 (R351, R352; DEDUCED, log 111)? -/
def State.relocOpen (s : State) (m : List Word) (t : Nat) (h : List Nat) (code : Nat) (e : Nat × Nat) : Bool :=
  let kind := bitsOf e.1 47 44
  let place := bitsOf e.1 39 0
  if kind = 0 then s.vaBytes t (m.getD 1 0 + word (secOff h (bitsOf e.1 43 40) + place)) 8 == some 0
  else kind == 4 && bitsOf e.1 51 48 == 4 && (match fetchAt (Mem.writeN [] 0 12 (code / 2 ^ (8 * place))) 12 0 with
    | .movh f => f.a == .imm 0
    | _ => false)

/-- A relocation record that R351 or R352 forbids. -/
def relocBad (h : List Nat) (code : Nat) (e : Nat × Nat) : Bool :=
  let w := e.1
  let target := bitsOf w 51 48
  let kind := bitsOf w 47 44
  let sec := bitsOf w 43 40
  let place := bitsOf w 39 0
  bitsOf w 63 52 != 0 || decide (target < 3) || decide (5 < target) ||
    (if kind = 0 then decide (sec < 3) || decide (5 < sec) || decide (secLen h sec < place + 8)
     else decide (4 < kind) || sec != 0 || place % 12 != 0 || decide (secLen h 0 < place + 12) || !chunkAt code place (kind - 1))

def Found.handler (f : Found) (n : Nat) : Handler := f.handlers.getD n Handler.masked
def Found.table (f : Found) : Tab Handler := (List.range 32).map (fun i => (i, f.handler i))

/-! ### The refusal of a launch (R51) -/

def mWord (m : Queued) (i : Nat) : Nat := msgWord m.msg i
def mKind (m : Queued) : Nat := bitsOf (mWord m 0) 7 0
def mClass (m : Queued) : Nat := bitsOf (mWord m 0) 15 8
def mPartw (m : Queued) : Nat := bitsOf (mWord m 2) 63 48
def mStages (m : Queued) : Nat := bitsOf (mWord m 2) 35 32 + 1
def mSize (m : Queued) : Nat := bitsOf (mWord m 2) 31 16
def mBase (m : Queued) : Nat := bitsOf (mWord m 2) 15 0
def mFeatures (m : Queued) : Nat := bitsOf (mWord m 7) 63 48
def mClusters (m : Queued) : List Nat := (List.range (mSize m)).map (mBase m + ·)

/-- Reason 0x01: a reserved field, or a field out of its range (R48). -/
def reservedField (m : Queued) : Bool :=
  let w := mWord m
  let zero := fun (i : Nat) => decide (∀ j ∈ (List.range 16).drop i, w j = 0)
  bitsOf (w 2) 47 36 != 0 || bitsOf (w 4) 31 5 != 0 || decide (3 < mClass m) ||
    (match mKind m with
     | 0 => decide (w 9 < w 8) || bitsOf (w 10) 63 19 != 0 || bitsOf (w 10) 15 14 != 0 || decide (8192 < bitsOf (w 10) 13 0) ||
         decide (4 < bitsOf (w 10) 18 16) || bitsOf (w 11) 63 32 != 0 || !zero 12
     | 1 => bitsOf (w 9) 63 5 != 0
     | 2 => bitsOf (w 9) 63 21 != 0 || !zero 11
     | _ => true)

/-- Reason 0x02 (R82). -/
def partitionBad (w : Nat) : Bool :=
  partFrames w == 0 || decide (8 < partFrames w) || decide (40 < partAcc w) || decide (44 < 2 * partFrames w + partAcc w) || bitsOf w 15 10 != 0

/-- The owner core of a message launch's data address (R53); for a store address, bits 36 to 34 all the same (DESIGN CHOICE, log 118). -/
def messageOwner (m : Queued) : Option Nat :=
  let a := m.msg.getD 8 0
  let p := pathOf a
  if p = 6 then
    let cl := bitsOf a.toNat 47 37
    if mBase m ≤ cl ∧ cl < mBase m + mSize m then some (8 * cl + bitsOf a.toNat 36 34) else none
  else if p = 0 ∨ p = 1 ∨ p = 2 ∨ p = 9 then some (ownerCore (word (bitsOf a.toNat 59 6)) 0 (mBase m) (mSize m))
  else none

/-- Reason 0x06 is decided by the header's pages and, where an image stands there, by its code's. -/
def State.pagesMissing (s : State) (m : Queued) : Bool :=
  let a := m.msg.getD 1 0
  !s.pinned m.fn a 256 ||
    (match s.imageHeader m.msg m.fn with
     | some h => hasMagic h && !s.pinned m.fn (a + word (secOff h 0)) (min (secLen h 0) 65532)
     | none => true)

/-- Reason 0x07 (R62, R352). -/
def State.tablesBad (s : State) (m : Queued) : Bool :=
  match s.imageHeader m.msg m.fn with
  | none => true
  | some h =>
    !hasMagic h || headerReserved h || (List.range 10).any (sectionBad h) ||
      (match s.findImage m.msg m.fn h with
       | none => true
       | some f =>
         decide (secLen h 1 + channelRegion f.table > partScratch (mPartw m) * 2048) ||
           f.handlers.any (handlerBad f.handlers f.codeLen) || f.setts.any (settEntryBad f.handlers) || f.relocs.any (fun e => relocBad h f.code e || s.relocOpen m.msg m.fn h f.code e) ||
           bitsOf (hdr h 1) 39 32 != mKind m || bitsOf (hdr h 1) 15 0 != mPartw m || bitsOf (hdr h 1) 51 48 + 1 != mStages m ||
           bitsOf (hdr h 1) 31 16 &&& mFeatures m != bitsOf (hdr h 1) 31 16 ||
           (mKind m == 1 && (f.handler (bitsOf (mWord m 9) 4 0)).kindBits != 0) ||
           (mKind m == 2 && (f.handler (bitsOf (mWord m 9) 20 16)).kindBits != 1))

/-- Reason 0x09. -/
def State.deadlineBad (s : State) (m : Queued) : Bool :=
  m.deadline != 0 &&
    (bitsOf (mWord m 4) 47 32 == 0 || bitsOf (mWord m 4) 63 48 == 0 ||
      (match (s.imageHeader m.msg m.fn).bind (s.findImage m.msg m.fn) with
       | some f => (f.handler (bitsOf (mWord m 4) 4 0)).kindBits != 5
       | none => true))

/-- The reason for which placement refuses a launch: 0x0A if it holds, else the lowest (R51). -/
def State.refusal (s : State) (m : Queued) : Option Nat :=
  let c := s.ctx m.fn
  if s.recordBad m.fn m.crec then some 0x0A
  else if reservedField m then some 0x01
  else if partitionBad (mPartw m) then some 0x02
  else if mSize m = 0 ∨ !ctxEnable c ∨ mBase m + mSize m > 2048 ∨ !(mClusters m).all (ctxHolds c) then some 0x03
  else if mSize m % mStages m ≠ 0 then some 0x04
  else if (mClusters m).any (fun cl => (coresOf cl).any (fun k => mFeatures m &&& ((s.core k).featallow.toNat % 16) != mFeatures m)) then some 0x05
  else if s.pagesMissing m then some 0x06
  else if s.tablesBad m then some 0x07
  else if mKind m = 1 ∧ messageOwner m = none then some 0x08
  else if s.deadlineBad m then some 0x09
  else none

/-! ### Waiting at placement (R34, R50, R407) -/

/-- The live launches whose context stands on a cluster. -/
def State.standingOn (s : State) (cl : Nat) : List Launch :=
  (s.launches.map (·.2)).filter (fun l => l.inField cl && (s.away l cl).isNone)

/-- The same image from the same tenant? -/
def sameImage (m : Queued) (l : Launch) : Bool := l.tenant == m.fn && l.msg.getD 1 0 == m.msg.getD 1 0

/-- The lowest launch number that is free. -/
def State.freeNumber (s : State) : Option Nat := (List.range 4096).find? (fun n => (s.launch? n).isNone && !s.retired.contains n)

/-- The scheduling of a tenant: whether its list is served, and the resident entry. -/
def listHead (t : Nat) : Nat := hbmAt (Config.schedulePage.toNat % 2 ^ 60 + 16 * t)
/-- Is a tenant's list served: its head is enabled and no reserved bit of it is set (R5, R395; log 109)? -/
def State.listServed (s : State) (t : Nat) : Bool :=
  let w := (s.wordAt (listHead t)).toNat
  bitOf w 63 && bitsOf w 62 10 == 0 && (s.wordAt (listHead t + 8)).toNat == 0
def State.sched? (s : State) (t : Nat) : Sched := Tab.get Sched.initial s.sched t

/-- The lowest launch area that is free in a context; 960 stands for the context of a tenant whose list is not served. -/
def State.freeArea (s : State) (t : Nat) (e : Option Nat) : Option Nat :=
  (List.range 64).find? (fun a => !s.launches.any (fun x => x.2.tenant == t && x.2.context == e && x.2.area == a) &&
    !s.heldAreas.any (fun x => x.1 == e.getD (960 + t) && x.2.1 == a))

/-- Would the launch be the seventeenth of a core that it needs (R34)? -/
def State.crowded (s : State) (m : Queued) : Bool := (mClusters m).any (fun cl => decide (16 ≤ (s.standingOn cl).length))

/-- What placement gives a launch: its context, number and area; none while it waits. One that would have been the seventeenth waits until
every launch on its cores has ended (R34). For launches of another image it waits cluster by cluster (DESIGN CHOICE, log 148). -/
def State.placeable (s : State) (m : Queued) : Option (Option Nat × Nat × Nat) :=
  let c := s.sched? m.fn
  let full := fun (cl : Nat) =>
    let ls := s.standingOn cl
    !ls.all (sameImage m) || decide (16 ≤ ls.length) || (m.seventeenth && !ls.isEmpty)
  if (s.listServed m.fn && (c.resident.isNone || c.switching.isSome)) || (mClusters m).any full then none
  else match s.freeNumber, s.freeArea m.fn c.resident with
    | some n, some a => some (c.resident, n, a)
    | _, _ => none

/-! ### Placing (R55, R56, R348) -/

/-- A core of a cluster on which no launch stands takes the image: pool, bits, handlers, and no word. -/
def State.freshCore (s : State) (c key n partw : Nat) (f : Found) : State :=
  let p := poolAt c 0
  let len := secLen f.head 1
  let s := { s.renew p 98304 with
    mem := Mem.writeN (s.mem.zero p 98304) p len f.pool
    full := (List.range ((len + 7) / 8)).foldl (fun l i => Full.add l (p / 8 + i))
      (s.full.filter (fun w => decide (8 * w < p) || decide (p + 98304 ≤ 8 * w))) }
  s.modCore c (fun k => { Core.initial with
    slots := k.slots.filter (fun x => x.1 == 8)
    image := some key
    partw := BitVec.ofNat 16 partw
    handlers := f.table.map (fun e => (e.1, { e.2 with w0 := word (withBits e.2.w0.toNat 59 48 n) }))
    perf := k.perf
    perfsel := k.perfsel
    clockBase := k.clockBase
    intcause := k.intcause
    ctxbase := k.ctxbase
    spillbase := k.spillbase
    permbase := k.permbase
    featallow := k.featallow
    tenant := k.tenant
    reflimit := k.reflimit
    finlimit := k.finlimit
    holdlimit := k.holdlimit
    halted := k.halted
    debugHalt := k.debugHalt
    restoring := k.restoring
    niinvs := k.niinvs })

/-- A cluster takes the image: store, bits and cores, and no walker or sett; what the driver asked of it waits on (R133). -/
def State.freshCluster (s : State) (cl key n partw : Nat) (f : Found) : State :=
  let p := storeAt cl 0
  let len := secLen f.head 2
  let s := { (s.renew p 524288).clearOrder [cl] with
    mem := Mem.writeN (s.mem.zero p 524288) p len f.cstore
    full := (List.range ((len + 7) / 8)).foldl (fun l i => Full.add l (p / 8 + i))
      (s.full.filter (fun w => decide (8 * w < p) || decide (p + 524288 ≤ 8 * w))) }
  let s := s.modCluster cl (fun k => { Cluster.initial with
    granules := (List.range ((len + 8191) / 8192)).map (fun g => (g, Granule.image))
    acquisitions := k.acquisitions
    requests := k.requests.filter (fun r => r.who.isNone)
    tenant := k.tenant
    context := k.context
    bucket := k.bucket })
  (coresOf cl).foldl (fun s c => s.freshCore c key n partw f) s

/-- What the cores keep of an image. -/
def Found.image (f : Found) (t : Nat) (addr : Word) : Image where
  tenant := t
  addr := addr
  code := Mem.writeN [] 0 f.codeLen f.code
  codeLen := f.codeLen
  handlers := f.table
  setts := (List.range 16).filterMap (fun i => let w := (f.setts.getD i (0, 0)).1; if bitOf w 4 then some (i, word w) else none)
  trap := if bitOf (hdr f.head 4) 5 then some (bitsOf (hdr f.head 4) 4 0) else none
  pool := (secLen f.head 1, f.pool)
  cstore := (secLen f.head 2, f.cstore)
  partw := bitsOf (hdr f.head 1) 15 0

/-- The key of the image: that of a launch it co-resides with, which has the same address (R34), or of the very same image placed before, in
its tenant, address, code, tables, pool and store bytes and partition word, or a new one (DESIGN CHOICE, log 143). -/
def State.imageKey (s : State) (m : Queued) (im : Image) : Option Nat :=
  match ((mClusters m).flatMap s.standingOn).head? with
  | some l => some l.image
  | none => (s.images.find? (fun e => e.2 == im)).map (·.1)

/-- Does a cluster take the image anew? It does where no launch stands and its cores do not hold this image: the image that they hold stays
after its launches end (R34, R84), and a launch of it finds pools and store as those left them (R348, R374). -/
def State.takesImage (s : State) (key cl : Nat) : Bool := (s.standingOn cl).isEmpty && (s.core (8 * cl)).image != some key

/-- The shares of the dies in grains (R55). -/
def Launch.shares (l : Launch) : Tab (Nat × Nat) :=
  let n := l.grains
  let dies := [0, 1, 2, 3].filter (fun d => l.clusters.any (fun cl => dieOf cl == d))
  let base := fun d => n * (l.clusters.filter (fun cl => dieOf cl == d)).length / l.size
  let rest := n - (dies.map base).foldl (· + ·) 0
  (dies.foldl (fun (acc : Tab (Nat × Nat) × Nat × Nat) d =>
    let share := base d + (if acc.2.1 < rest then 1 else 0)
    (acc.1 ++ [(d, (acc.2.2, acc.2.2 + share))], acc.2.1 + 1, acc.2.2 + share)) ([], 0, 0)).1

/-- The first grain of a core: the next of its die, or an empty range at the end (R56). -/
def Launch.firstGrain (l : Launch) (cl : Nat) : (Nat × Nat) × Launch :=
  let r := Tab.get (0, 0) l.ranges (dieOf cl)
  if r.1 < r.2 then (l.grainAt r.1, { l with ranges := Tab.set l.ranges (dieOf cl) (r.1 + 1, r.2) }) else ((l.w 9, l.w 9), l)

/-- Start firings of a field launch, one for each core, on the header's start handler with the kind that its entry has: R51 and R352 refuse
none (DESIGN CHOICE, log 147). The cores of a die receive their first grains in ascending order (DESIGN CHOICE, log 141). -/
def State.startField (s : State) (n start : Nat) (cores : List Nat) : State :=
  cores.foldl (fun s c => match s.launch? n with
    | some l =>
      let g := l.firstGrain (clusterOf c)
      (s.setLaunch n g.2).addPending c (.field (word g.1.1) (word g.1.2)) start n
    | none => s) s

/-- The launch as placement makes it. -/
def newLaunch (m : Queued) (e : Option Nat) (n area key : Nat) : Launch where
  number := n
  msg := m.msg
  tenant := m.fn
  fn := m.fn
  mailbox := m.mailbox
  image := key
  context := e
  phase := .running
  estimate := bitsOf (mWord m 7) 31 0
  estMsgs := []
  estLast := (0, 0)
  map := 0
  chanWords := 0
  walkWords := 0
  refusals := 0
  strips := 0
  recalls := 0
  demotions := 0
  wrapCount := 0
  wrapStart := none
  wallUsed := 0
  expired := false
  met := none
  area := area
  ranges := []
  seedNext := 0
  seedEnd := if mKind m = 2 then none else some 0
  boundCap := if mKind m = 0 ∧ bitsOf (mWord m 10) 13 0 ≠ 0 then bitsOf (mWord m 10) 13 0 else 2048
  refLimit := if mKind m = 0 then bitsOf (mWord m 10) 18 16 else 0
  status := 0
  cls := 0
  value := 0
  place := 0
  seen := m.seen
  told := []

/-- Placement of a launch that fits. -/
def State.placeLaunch (s : State) (m : Queued) (f : Found) (e : Option Nat) (n area : Nat) : State :=
  let im := f.image m.fn (m.msg.getD 1 0)
  let key := (s.imageKey m im).getD s.serial
  let fresh := (mClusters m).filter (s.takesImage key)
  let s := { s with
    serial := s.serial + 1
    images := if (Tab.find s.images key).isSome then s.images else Tab.set s.images key im }
  -- the accumulator rows read as +0 wherever no launch runs beside it (R288); the image that stands there may stay
  let empty := (mClusters m).filter (fun cl => (s.standingOn cl).isEmpty)
  let s := fresh.foldl (fun s cl => s.freshCluster cl key n (mPartw m) f) s
  let s := (empty.flatMap coresOf).foldl (fun s c => s.modCore c (fun k => { k with acc := [] })) s
  let l := newLaunch m e n area key
  let l := if mKind m = 0 then { l with ranges := l.shares } else l
  let s := (s.setLaunch n l).addRecord {
    addr := m.crec
    what := .pending
    launch := n
    head := 0
    seq := m.seq
    fn := m.fn
    mailbox := m.mailbox
    ring := m.ring
    queue := none
    full := true } m.fn (8 * mBase m)
  let s := match mKind m with
    | 0 => s.startField n (bitsOf (hdr f.head 1) 44 40) l.cores
    | 1 => match messageOwner m with
      | some c => s.addPending c (.message (m.msg.getD 8 0) (m.msg.drop 10)) (bitsOf (mWord m 9) 4 0) n
      | none => s
    | _ => s.addJob { Job.blank with opcode := jobSeed, core := 8 * mBase m, launch := n, tenant := m.fn, total := 1 }
  let s := l.cores.foldl (fun s c => (s.evalRules c)) s
  let s := if m.deadline = 0 then s
    else (l.cores.foldl (fun s c => (s.timerNs m.deadline (.deadlineExpiry n c)).post (.bucketRecompute c)) s).timerNs m.deadline
      (.descheduledExpiry n)
  (s.entrySync? e).post (.launchComplete n)

/-- The head of a queue leaves it. -/
def State.leaveQueue (s : State) (q : Nat) : State := s.setQueue q ((s.queue q).drop 1)

/-- PLACEMENT (R49 to R56): the head of a queue is refused, expires, is placed, or goes on waiting. -/
def execPlacement (q : Nat) (s : State) : Out :=
  match s.queue q with
  | m :: _ =>
    if m.behind ∨ m.late ∨ s.queueBusy q = true then done s
    else match s.refusal m with
      | some r => done ((s.leaveQueue q).endUnplaced m 5 r (some q))
      | none =>
        if m.deadline ≠ 0 ∧ m.deadline ≤ s.now then done ((s.leaveQueue q).endUnplaced m 3 0 (some q))
        else match s.placeable m, (s.imageHeader m.msg m.fn).bind (s.findImage m.msg m.fn) with
          | some (e, n, a), some f => done ((s.leaveQueue q).placeLaunch m f e n a)
          | _, _ => done (if s.crowded m && !m.seventeenth then s.setQueue q ({ m with seventeenth := true } :: (s.queue q).drop 1) else s)
  | [] => done s

/-- EXPIRED_IN_QUEUE (R49): the deadline passed while the launch waited behind earlier ones. -/
def execExpiredInQueue (q : Nat) (s : State) : Out :=
  match s.queue q with
  | m :: _ => if m.late && !s.queueBusy q then done ((s.leaveQueue q).endUnplaced m 3 0 (some q)) else done s
  | [] => done s

/-- DEADLINE_BEFORE_PLACEMENT (R149): the head of a queue that waits at placement expires. -/
def execDeadlineBeforePlacement (q : Nat) (s : State) : Out :=
  match s.queue q with
  | m :: _ =>
    if !m.behind && !m.late && !s.queueBusy q && m.deadline != 0 && decide (m.deadline ≤ s.now) then
      done ((s.leaveQueue q).endUnplaced m 3 0 (some q))
    else done s
  | [] => done s

/-! ### Numbers and areas (R50, R407) -/

def Core.carries (k : Core) (l : Nat) : Bool :=
  k.channels.any (fun w => w.launch == l) || k.outReq.any (fun w => w.launch == l) || k.outRep.any (fun w => w.launch == l) ||
    k.outWalk.any (fun w => w.launch == l) || k.tasks.any (fun t => t.launch == l) ||
    k.ringOut4.any (fun w => w.launch == l) || k.ringOut5.any (fun w => w.launch == l) ||
    k.ring4.any (fun w => w.launch == l) || k.ring5.any (fun w => w.launch == l) ||
    k.journal.any (fun x => x.2.inUse && x.2.launch == l)
def Cluster.carries (k : Cluster) (l : Nat) : Bool :=
  k.warren.any (fun w => w.msg.launch == l) || k.overflow.any (fun w => w.msg.launch == l) || k.spill.any (fun w => w.msg.launch == l)

/-- Does anything queued or in flight still carry a launch number, in place or in a saved context? -/
def State.carried (s : State) (l : Nat) : Bool :=
  s.cores.any (fun e => e.2.carries l) || s.clusters.any (fun e => e.2.carries l) || s.jobs.any (fun j => j.launch == l) ||
    s.saved.any (fun e => e.2.cores.any (fun y => y.2.carries l) || e.2.clusters.any (fun y => y.2.carries l) ||
      e.2.jobs.any (fun j => j.launch == l))

/-- LAUNCH_NUMBER_RELEASE (R50). -/
def execLaunchNumberRelease (s : State) : Out :=
  let left := s.retired.filter s.carried
  done (if left.length < s.retired.length then ({ s with retired := left }).retryPlacements else s)

/-- LAUNCH_AREA_RELEASE (R407). -/
def execLaunchAreaRelease (s : State) : Out :=
  let left := s.heldAreas.filter (fun x => decide (s.now < x.2.2))
  done (if left.length < s.heldAreas.length then ({ s with heldAreas := left }).retryPlacements else s)

/-! ### Seed lists (R62) -/

/-- The reading of a launch's seed list, while it goes on. -/
def State.seedJob? (s : State) (l : Nat) : Option Job := s.jobs.find? (fun j => j.opcode == jobSeed && j.launch == l)

/-- A seed list ends its launch (R62, R448). -/
def State.seedFault (s : State) (j : Job) (l : Launch) (cls : Nat) (addr : Word) : State :=
  (s.dropJob j.id).faultLaunch l.number cls (8 * l.base) addr

/-- The read of a seed list met a stop. -/
def State.seedStop (s : State) (j : Job) (l : Launch) (addr : Word) (x : Stop) : State :=
  match x with
  | .absent stage rec kind => s.waitAbsent j stage rec kind
  | .host a => s.waitHost j a
  | .bad a x => (s.seedFault j l 0x21 x).tellBad a 1
  | _ => s.seedFault j l 0x12 addr

/-- Is a seed record discarded: a reserved bit, an empty membership, or a block outside the launch's range? -/
def seedBad (l : Launch) (w : List Nat) : Bool :=
  let b := bitsOf (w.getD 1 0) 7 0
  bitsOf (w.getD 0 0) 63 48 != 0 || bitsOf (w.getD 1 0) 63 8 != 0 || [2, 3, 4, 5].all (fun i => w.getD i 0 == 0) ||
    decide (b < bitsOf (l.w 9) 7 0) || decide (bitsOf (l.w 9) 15 8 < b)

/-- The walker message of a seed record. -/
def seedWalker (l : Launch) (w : List Nat) : Walker where
  depth := 0
  handler := bitsOf (l.w 9) 20 16
  key := bitsOf (w.getD 0 0) 47 0
  launch := l.number
  block := bitsOf (w.getD 1 0) 7 0
  members := BitVec.ofNat 256 (pack 64 [w.getD 2 0, w.getD 3 0, w.getD 4 0, w.getD 5 0])
  carry6 := word (w.getD 6 0)
  carry7 := word (w.getD 7 0)
  seen := l.seen

/-- The next seed of a list whose header was read: it arrives at its owner at once, so that seeds arrive in the order of the list (R64; DESIGN
CHOICE, log 144). -/
def State.nextSeed (s : State) (j : Job) (l : Launch) (list : Word) (n : Nat) : State :=
  if n ≤ l.seedNext then (s.dropJob j.id).post (.launchComplete l.number)
  else
    let addr := list + word (64 + 64 * l.seedNext)
    match s.read j 1 addr 64 with
    | .error x => s.seedStop j l addr x
    | .ok x =>
      let w := elems 64 8 x
      let s := (s.usedOver j addr 64).setLaunch l.number { l with seedNext := l.seedNext + 1 }
      let s := if seedBad l w then s.countWalkers l.number 1 else s.sendWalker (seedWalker l w)
      s.post (.seedSend l.number)

/-- SEED_SEND (R62): the header, then one seed after another. -/
def execSeedSend (l : Nat) (s : State) : Out :=
  match s.seedJob? l, s.launch? l with
  | some j, some x =>
    let list := x.msg.getD 8 0
    if x.phase ≠ .running then done (s.dropJob j.id)
    else if j.waiting.isSome then done s
    else match x.seedEnd with
      | some n => done (s.nextSeed j x list n)
      | none =>
        if pathOf list ≠ 0 ∧ pathOf list ≠ 1 then done (s.seedFault j x 0x04 list)
        else if list.toNat % 64 ≠ 0 then done (s.seedFault j x 0x06 list)
        else match s.read j 1 list 64 with
          | .error e => done (s.seedStop j x list e)
          | .ok h =>
            let w := elems 64 8 h
            if bitsOf (w.getD 0 0) 63 24 ≠ 0 ∨ (w.drop 1).any (· != 0) then done (s.seedFault j x 0x02 list)
            else done (((s.usedOver j list 64).setLaunch l { x with seedEnd := some (bitsOf (w.getD 0 0) 23 0) }).post (.seedSend l))
  | _, _ => done s

/-! ### Completion (R54, R149, R150) -/

/-- Does a firing of the launch stand or wait on a core, or a word, task or recall of it? -/
def Core.busyWith (k : Core) (l : Nat) (held : Word → Bool) : Bool :=
  k.slots.any (fun x => x.2.ofLaunch l) || k.pending.any (fun p => p.launch == l) || k.asyncTraps.any (fun t => t.launch == l) ||
    k.channels.any (fun w => w.launch == l) || k.tasks.any (fun t => t.launch == l) ||
    k.ring4.any (fun w => w.launch == l) || k.ring5.any (fun w => w.launch == l) ||
    k.ringOut4.any (fun w => w.launch == l) || k.ringOut5.any (fun w => w.launch == l) ||
    k.outReq.any (fun w => w.launch == l) || k.outRep.any (fun w => w.launch == l) || k.outWalk.any (fun w => w.launch == l) ||
    (k.recalls ++ k.recallWait).any (fun r => held r.handle)

/-- The conditions of R54, for a launch whose context is resident. -/
def State.complete (s : State) (l : Launch) : Bool :=
  let n := l.number
  l.clusters.all (fun cl =>
    let k := s.cluster cl
    (s.away l cl).isNone && !k.warren.any (fun e => e.msg.launch == n) && !k.overflow.any (fun w => w.msg.launch == n) &&
      !k.spill.any (fun w => w.msg.launch == n) &&
      (coresOf cl).all (fun c => !(s.core c).busyWith n (fun h => k.setts.any (fun x => x.launch == n && x.handle cl == h)))) &&
    s.quiet n && (s.seedJob? n).isNone && l.ranges.all (fun e => decide (e.2.2 ≤ e.2.1)) &&
    (match l.seedEnd with | some e => decide (e ≤ l.seedNext) | none => false)

/-- Did a launch come to meet R54 before its deadline (R150)? -/
def State.completes (s : State) (l : Launch) : Bool :=
  l.phase == .running && s.complete l && (l.deadline == 0 || decide (l.met.getD s.now < l.deadline))

/-- LAUNCH_COMPLETE (R54): status 1; the record follows. -/
def execLaunchComplete (l : Nat) (s : State) : Out :=
  match s.launch? l with
  | some x =>
    if s.completes x then done ((s.setLaunch l { x with phase := .ending, status := 1 }).post (.completionRecordWrite l))
    else if x.phase = .ending then done (s.post (.completionRecordWrite l))
    else if x.phase = .wrapping then done (s.post (.wrapupQuietPoint l))
    else done s
  | none => done s

/-- Can the final record be written: every operation has landed, no surrender firing runs on, and nothing of the device's own is left
to do? -/
def State.recordDue (s : State) (l : Launch) : Bool :=
  l.phase == .ending && s.quiet l.number && !s.cores.any (fun e => e.2.slots.any (fun x => x.2.ofLaunch l.number)) && !s.jobs.any (fun j => j.isDevice && j.opcode != jobSpill && j.launch == l.number)

/-- COMPLETION_RECORD_WRITE (R147, R150): jobs of the launch that wait on absent pages end, and once nothing is left the record is
written. -/
def execCompletionRecordWrite (l : Nat) (s : State) : Out :=
  match s.launch? l with
  | some x =>
    if x.phase ≠ .ending then done s
    else
      let s := s.endWaiting l
      let s := { s with jobs := s.jobs.filter (fun j => !(j.opcode == jobSeed && j.launch == l)) }
      if s.recordDue x then done (s.addRecord {
        addr := x.crec
        what := .final
        launch := l
        head := recordHead x.status x.cls x.place
        seq := x.seq
        fn := x.fn
        mailbox := x.mailbox
        ring := x.ring
        queue := some x.queue
        full := true } x.tenant (8 * x.base))
      else done s
  | none => done s

end Sys2Proof.Machine
end

