-- ==== Sys2Proof/Machine/Deadlines.lean ====
section
/-! DEFINITION. Recalls (R125 to R128), and expiry, wrap-up and its budgets (R140 to R147). -/

namespace Sys2Proof.Machine

/-! ### Recalls -/

/-- The refusal limit of a launch on its holder core: the driver's setting, lowered by launch word 10 (R128). -/
def State.refusalLimit (s : State) (c : Nat) (l : Nat) : Nat :=
  let driver := (s.core c).reflimit.toNat
  match s.launch? l with
  | some x => if x.refLimit = 0 then driver else min driver x.refLimit
  | none => driver

/-- Refusals in the window that is open now. -/
def State.windowRefusals (s : State) (x : Sett) : Nat :=
  match x.windowEnd with
  | some e => if s.now < e then x.refusals else 0
  | none => 0

/-- Is a recall held: its launch is in wrap-up on the core (R41, R133)? -/
def State.recallHeld (s : State) (c : Nat) (r : Recall) : Bool :=
  match s.settOf (clusterOf c) r.handle with
  | some x => (s.core c).expired.contains x.launch
  | none => false

/-- The recall that a core serves next: none while a surrender firing runs or waits to start. -/
def State.nextRecall (s : State) (c : Nat) : Option Recall :=
  let k := s.core c
  if k.recalls.any (·.running) || k.pending.any (fun p => match p.source with | .recall _ => true | _ => false) then none
  else k.recalls.find? (fun r => !s.recallHeld c r)

/-- A recall leaves its queue without a firing. -/
def State.removeRecall (s : State) (c : Nat) (r : Recall) : State :=
  ((s.modCore c (fun k => { k with recalls := k.recalls.filter (fun x => x.id != r.id) })).post (.recallPlace c)).post (.recallHead c)

/-- What happens to a recall at the head (R125). -/
def State.serveRecall (s : State) (c : Nat) (r : Recall) : State :=
  let cl := clusterOf c
  match s.settOf cl r.handle with
  | none => s.removeRecall c r
  | some x =>
    if x.st = .finishing then
      -- its requester waits for the release, or the strip at the finish limit (R121)
      (s.removeRecall c r).modCluster cl (fun k => { k with requests := k.requests.map (fun y => y.finishing x.gen (some r.id)) })
    else if x.st ≠ .current then (s.removeRecall c r).settOutcome cl x.gen (some r.id) false
    else if s.refusalLimit c x.launch ≤ s.windowRefusals x then ((s.removeRecall c r).strip cl x.gen 1).countRecall x.launch
    else match x.routine with
      | none => ((s.removeRecall c r).strip cl x.gen 5).countRecall x.launch
      | some h => s.addPending c (.recall r.handle) h x.launch

/-- RECALL_HEAD (R125). -/
def execRecallHead (c : Nat) (s : State) : Out :=
  match s.nextRecall c with
  | some r => done (s.serveRecall c r)
  | none => done s

/-- RECALL_PLACE (R126): recalls that waited take free entries, in their order. -/
def execRecallPlace (c : Nat) (s : State) : Out :=
  let k := s.core c
  let room := 4 - (k.recalls.filter (fun r => !r.running)).length
  done ((s.setCore c { k with recalls := k.recalls ++ k.recallWait.take room, recallWait := k.recallWait.drop room }).post (.recallHead c))

/-- SURRENDER_BOUND_EXCEEDED (R127): the routine ends before the instruction that would exceed its bound, and its sett is stripped. -/
def execSurrenderBoundExceeded (c k : Nat) (s : State) : Out :=
  let x := s.slot c k
  if x.st = .running ∧ x.kind = .surrender ∧ ({ s with cur := c, curSlot := k } : State).routineBound x.surrSett ≤ x.count then
    done (s.stripFiring c k 2)
  else done s

/-- FINISH_LIMIT_PASSED (R127): the sett, named by its generation, is stripped if its holder has not released it; a saved one after
its resumption (DESIGN CHOICE, log 152). -/
def execFinishLimitPassed (cl g : Nat) (s : State) : Out :=
  match s.sett? cl g with
  | some x =>
    if x.st = .finishing ∧ (match x.finishEnd with | some e => decide (e ≤ s.now) | none => false) = true then done (s.strip cl g 4)
    else done s
  | none => done s

/-- REFUSAL_WINDOW_END (R128). -/
def execRefusalWindowEnd (s : State) : Out :=
  done { s with clusters := s.clusters.map (fun e => (e.1, { e.2 with setts := e.2.setts.map (fun x =>
    match x.windowEnd with
    | some t => if t ≤ s.now then { x with windowEnd := none, refusals := 0 } else x
    | none => x) })) }

/-! ### Expiry (R141 to R143) -/

/-- Is a launch descheduled: its context is not resident, or is being switched away (R140, R410)? -/
def State.descheduled (s : State) (l : Launch) : Bool :=
  match l.context with
  | some e => (s.sched? l.tenant).resident != some e || (s.sched? l.tenant).switching.isSome
  | none => false

/-- Wrap-up of a launch starts, or goes on after a resumption: its wall budget runs from now, or, while its context is being switched
away, from its resumption (R143, R149). -/
def State.startWall (s : State) (l : Launch) : State :=
  if s.descheduled l then s.modLaunch l.number (fun z => { z with phase := .wrapping, wrapStart := none })
  else
    (s.modLaunch l.number (fun z => { z with phase := .wrapping, wrapStart := some s.now })).timerNs (s.now + l.wallLeft)
      (.wallBudgetExpiry l.number)

/-- A core reaches the deadline of a launch (R141, R142): at the first core, wrap-up begins. A core that reaches it after the launch's
ending began elsewhere only stops. -/
def State.expireOn (s : State) (l c : Nat) : State :=
  match s.launch? l with
  | none => s
  | some x =>
    if (s.core c).expired.contains l then s
    else if x.phase = .ending then s.expireCore c l
    else if s.completes x then
      -- the conditions of R54 were met before the deadline (R150)
      (s.setLaunch l { x with phase := .ending, status := 1 }).post (.completionRecordWrite l)
    else
      let s := if x.phase = .running then (s.startWall x).dropWalkers l else s
      let held := s.heldState c x
      let s := s.expireCore c l
      let s := if held then s.addPending c .expiry x.wrapHandler l else s
      if s.wrapupGoes l then s else s.endWrapup l false

/-- May a core decide expiry now: the context is resident there, and an instruction boundary comes? -/
def State.decides (s : State) (l : Launch) (c : Nat) : Bool := (s.away l (clusterOf c)).isNone && !(s.core c).halted

/-- DEADLINE_EXPIRY (R141). -/
def execDeadlineExpiry (l c : Nat) (s : State) : Out :=
  match s.launch? l with
  | some x =>
    if x.deadline ≠ 0 ∧ x.deadline ≤ s.now ∧ x.inField (clusterOf c) = true ∧ s.decides x c = true then done (s.expireOn l c) else done s
  | none => done s

/-- A launch's deadline passed while it was descheduled: expiry is recorded, and the entry is marked where the context is saved. -/
def State.recordExpiry (s : State) (n : Nat) (l : Launch) : State :=
  match l.context with
  | some e =>
    let s := s.setLaunch n { l with expired := true }
    if (Tab.find s.saved e).isSome then s.poke (entryAt e + 48) 8 (withBits (s.entryWord e 6) 0 0 1) else s
  | none => s

/-- Is expiry of a launch to be recorded by now? -/
def State.expiryDue (s : State) (l : Launch) : Bool :=
  l.phase == .running && l.deadline != 0 && decide (l.deadline ≤ s.now) && s.descheduled l && !l.expired

/-- WRAPUP_BUDGET_EXHAUSTED (R143): the firing ends as at `END`. -/
def execWrapupBudgetExhausted (c k : Nat) (s : State) : Out :=
  let x := s.slot c k
  match s.launch? x.launch with
  | some l => if x.st = .running ∧ x.kind = .wrapup ∧ l.wrapBudget ≤ x.count then done (s.endFiring c k) else done s
  | none => done s

/-- WALL_BUDGET_EXPIRY (R143, R147). -/
def execWallBudgetExpiry (l : Nat) (s : State) : Out :=
  match s.launch? l with
  | some x =>
    match x.wrapStart with
    | some t => if x.phase = .wrapping ∧ t + x.wallLeft ≤ s.now then done (s.endWrapup l true) else done s
    | none => done s
  | none => done s

/-! ### What each clock notes (R54, R146, R150, R194, R195) -/

/-- Since when the conditions of R54 hold for a running launch. -/
def State.noteMet (s : State) (l : Launch) : State :=
  if l.phase ≠ .running then s
  else
    let met := if s.complete l then some (l.met.getD s.now) else none
    if met = l.met then s else s.setLaunch l.number { l with met := met }

/-- A stalled WAITB, which acquires, or WAITC sees what it waits for. -/
def State.noteWait (s : State) (c n : Nat) : State :=
  let x := s.slot c n
  let see := fun (w : Word) => s.modSlot c n (fun x => { x with met := some w })
  if x.st ≠ .stalled ∨ x.met ≠ none then s
  else match x.stall with
    | some (.barrier _ _) => s.noteBarrier c n
    | some (.words p k) =>
      let count := ({ s with cur := c, curSlot := n } : State).portCount p
      if k ≤ count then see (word count) else s
    | _ => s

/-- At a quiet point, the barrier waits of a launch's wrap-up firings end, with the cancelled flag (R146). -/
def State.noteQuiet (s : State) (l : Launch) : State :=
  if l.phase ≠ .wrapping ∨ s.quiet l.number = false then s
  else (s.quietWaiters l.number).foldl (fun s x => s.quietWait x.1 x.2) s

end Sys2Proof.Machine
end

