-- ==== Sys2Proof/Machine/HostLink.lean ====
section
/-! DEFINITION. What the host does to the module: mailboxes and their engine (R359 to R364), event ring configuration (R366), shared
pages (R369, R370) and the host-ordered window (R371). -/

namespace Sys2Proof.Machine

/-! ### Mailboxes -/

/-- An address of the host's page for which the engine of a mailbox waits (R370). -/
def State.boxHost (s : State) (f : Nat) (b : Mailbox) (c : Nat) : Option Word :=
  [b.base, b.base + word (128 * (c % 2 ^ b.log2 + 1))].find? (s.hostOwns f)

/-- What the engine acquires with a seal (R363): the device contains it, and so does the system. -/
def State.sealSeen (s : State) (place : Option Nat) : Seen :=
  match place with
  | some p => ((s.syncAt p).filter (fun r => !r.plain && wideScope r.scope)).foldl (fun l r => seenJoin l (seenAcquired 4 r.seen)) []
  | none => []

/-- MAILBOX_SLOT_CONSUME (R363): one turn of the engine's loop. -/
def State.consumeSlot (s : State) (f m : Nat) : State :=
  let b := s.mailbox f m
  let c := s.consumed f m
  match s.mailboxPlace f b 8 with
  | none => s
  | some pc =>
    if !b.enable || decide (b.tail.toNat ≤ c) then s
    else match s.boxHost f b c with
    | some a => s.askFor f a
    | none =>
    if !s.slotSealed f m then s
    else
      let msg := (List.range 16).map (fun i => match s.mailboxPlace f b (128 * (c % 2 ^ b.log2 + 1) + 8 * i) with
        | some p => s.wordAt p
        | none => 0)
      let s := s.land pc 8 (c + 1)
      let w0 := msgWord msg 0
      let q : Queued := ⟨msg, f, m, false, false, false, []⟩
      let s := if bitsOf w0 7 0 = 0xFF then s
        else if bitsOf w0 31 16 ≠ b.queue then s.endUnplaced q 5 (if s.recordBad f q.crec then 0x0A else 0x01) none
        else (s.giveLaunch f m (s.sealSeen (s.mailboxPlace f b (128 * (c % 2 ^ b.log2 + 1))))).submit f m msg
      s.post (.mailboxSlotConsume f m)

/-- Does the engine of a mailbox have a sealed slot to consume? -/
def State.consumable (s : State) (f m : Nat) : Bool :=
  let b := s.mailbox f m
  b.enable && (s.mailboxPlace f b 8).isSome && decide (s.consumed f m < b.tail.toNat) && s.slotSealed f m

def execMailboxSlotConsume (f m : Nat) (s : State) : Out := done (s.consumeSlot f m)

/-- Functions 0 to 64 have mailboxes 0 to 63; a BAR offset beyond them ignores writes (R358). -/
def mailboxNamed (f m : Nat) : Bool := decide (f ≤ 64) && decide (m < 64)

/-- TAIL_WRITE (R361). The launches that it lets the device read carry what the host has written through its window (R106; log 14). -/
def execTailWrite (s : State) : Out :=
  match s.input with
  | .tailWrite f m v => done (if mailboxNamed f m then (s.giveLaunch f m (seenReleased 4 (s.hostKnows none))).raiseTail f m v else s)
  | _ => done s

/-- CANCEL_WRITE (R364): the reserved bits [63:32] that a write carries are ignored (DESIGN CHOICE, log 130). -/
def execCancelWrite (s : State) : Out :=
  match s.input with
  | .cancelWrite f m v => done (if mailboxNamed f m then s.cancel f m (bitsOf v.toNat 31 0) else s)
  | _ => done s

/-- Is a mailbox configuration ignored (R359)? -/
def State.mailboxConfigBad (s : State) (f m : Nat) (w1 : Word) : Bool :=
  let x := w1.toNat
  bitsOf x 62 48 != 0 || bitsOf x 31 5 != 0 || bitsOf x 4 0 == 0 || decide (16 < bitsOf x 4 0) ||
    (bitOf x 63 && s.mailboxes.any (fun e => e.1 != mailboxKey f m && e.2.enable && e.2.queue == bitsOf x 47 32))

/-- The device accepts mailbox configuration, context loads and launches from phase 3 (R428). -/
def State.serving (s : State) : Bool := decide (3 ≤ s.bringup.phase) && decide (s.bringup.phase ≤ 5)

/-- MAILBOX_CONFIG_WRITE (R359, R428): of the physical function alone. -/
def execMailboxConfigWrite (s : State) : Out :=
  match s.input with
  | .mailboxConfigWrite by0 f m w0 w1 =>
    if by0 = 0 ∧ s.serving = true ∧ mailboxNamed f m = true ∧ s.mailboxConfigBad f m w1 = false then
      let x := w1.toNat
      let b := { s.mailbox f m with base := w0, enable := bitOf x 63, queue := bitsOf x 47 32, log2 := bitsOf x 4 0 }
      done (({ s with mailboxes := Tab.set s.mailboxes (mailboxKey f m) b }).post (.mailboxSlotConsume f m))
    else done s
  | _ => done s

/-- EVENT_RING_CONFIG_WRITE (R366, R367): sequences start at 0 when the ring is enabled. -/
def execEventRingConfigWrite (s : State) : Out :=
  match s.input with
  | .eventRingConfigWrite by0 f e w0 w1 =>
    let x := w1.toNat
    if by0 = 0 ∧ f ≤ 64 ∧ e < 16 ∧ bitsOf x 62 27 = 0 ∧ bitsOf x 15 5 = 0 ∧ 4 ≤ bitsOf x 4 0 ∧ bitsOf x 4 0 ≤ 20 then
      let starts := bitOf x 63 && !(s.eventRing f e).enable
      done { s with
        eventRings := Tab.set s.eventRings (ringKey f e) ⟨w0, bitOf x 63, bitsOf x 26 16, bitsOf x 4 0⟩
        eventSeq := if starts then s.eventSeq.filter (fun y => y.1 / 2 ^ 16 != ringKey f e) else s.eventSeq
        heldPosts := if starts then s.heldPosts.filter (fun x => ringKey x.fn x.ring != ringKey f e) else s.heldPosts }.offerPosts
    else done s
  | _ => done s

/-! ### Shared pages -/

/-- The function and the address of a page's key. -/
def pageFn (k : Nat) : Nat := k / 2 ^ 36
def pageAddr (k : Nat) : Word := word (3 * 2 ^ 60 + k % 2 ^ 32 * 65536)

/-- Jobs of a function that wait on a page that the host owned try again. -/
def State.retryHost (s : State) (k : Nat) : State :=
  (s.jobs.filter (fun j => j.tenant == pageFn k && (match j.waiting with
    | some (3, a) => pageKey (pageFn k) a == k
    | _ => false))).foldl (fun s j => s.mayRetry j) s

/-- The page is given to the host: told by kind 0x0041. -/
def State.pageTold (s : State) (k : Nat) : State := s.postEvent (pageFn k) 0 0x0041 0x0C00 (pageAddr k) 0

/-- A page has its new owner, who keeps it for the hold time (R370). The giver releases what happened before, and the taker acquires it, at
system scope (R113). -/
def State.pageMoved (s : State) (k : Nat) (give : Bool) : State :=
  let t := s.now + 1000 * s.migHold
  let p := s.page k
  let crossed := fun (l : Seen) => seenAcquired 4 (seenReleased 4 l)
  let s := (s.setPage k { p with
    device := give
    holdEnd := t
    taking := none
    asked := false
    seen := if give then seenReleased 4 (s.hostKnows none) else []
    used := [] }).timerNs t .pageHoldEnd
  if give then (s.retryHost k).offerPosts else ({ s with hostSeen := seenJoin s.hostSeen (crossed p.used) } : State).pageTold k

/-- The jobs that use the translations of a page: those under way whose ranges meet it (R369; DEDUCED, log 112). -/
def State.pageUsers (s : State) (k : Nat) : List Nat :=
  let a := 3 * 2 ^ 60 + k % 2 ^ 32 * 65536
  (s.jobs.filter (fun j => j.started && j.waiting.isNone && j.tenant == pageFn k &&
    j.feet.any (fun f => f.meets ⟨a, a + 65536, false⟩))).map (·.id)

/-- Does a page hold bytes of an enabled mailbox ring or event ring: it never moves (R359)? -/
def State.ringPage (s : State) (k : Nat) : Bool :=
  let lo := 3 * 2 ^ 60 + k % 2 ^ 32 * 65536
  let meets := fun (base : Word) (n : Nat) => decide (base.toNat < lo + 65536) && decide (lo < base.toNat + n)
  s.mailboxes.any (fun e => e.2.enable && e.1 / 64 == pageFn k && meets e.2.base (128 * (2 ^ e.2.log2 + 1))) ||
    s.eventRings.any (fun e => e.2.enable && e.1 / 16 == pageFn k && meets e.2.base (64 + 32 * 2 ^ e.2.log2))

/-- A page that the host takes is the host's when no job uses its translations any more (R369); one that has come to hold a ring's bytes
stays (R359). -/
def State.takeEnds (s : State) (k : Nat) : State :=
  match (s.page k).taking with
  | some ids =>
    if s.ringPage k then s.setPage k { s.page k with taking := none }
    else if ids.any (fun i => (s.job? i).isSome) then s else s.pageMoved k false
  | none => s

/-- Serve one request for a page (R369): `give` moves it to the device. A page already there does not move, nor does one of a ring (R359). -/
def State.movePage (s : State) (k : Nat) (give : Bool) : State :=
  let p := s.page k
  if p.device = give then (if give then s else s.pageTold k)
  else if s.ringPage k then s
  else if give then s.pageMoved k true
  else
    (((s.setPage k { p with taking := some (s.pageUsers k) }).invalidate 0 1 (pageFn k) (pageAddr k)).invalidate 0 2 (pageFn k)
      (pageAddr k)).takeEnds k

/-- A request for a page arrives (R370): one for where the page still is, even while it is being taken, is ignored or answered at once; else
it is served after those before it and the hold. -/
def State.askPage (s : State) (k : Nat) (give : Bool) : State :=
  let p := s.page k
  if p.device = give then s.movePage k give
  else if s.ringPage k then s
  else if p.requests.isEmpty && p.taking.isNone && decide (p.holdEnd ≤ s.now) then s.movePage k give
  else s.setPage k { p with requests := p.requests ++ [give] }

/-- MIGGIVE (R369). -/
def execMiggive (s : State) : Out :=
  match s.input with
  | .migGive f a => done (if f ≤ 64 then s.askPage (pageKey f a) true else s)
  | _ => done s

/-- MIGTAKE (R369). -/
def execMigtake (s : State) : Out :=
  match s.input with
  | .migTake f a => done (if f ≤ 64 then s.askPage (pageKey f a) false else s)
  | _ => done s

/-- MIGHOLD_WRITE (R370): reserved bits, values above 100 and other functions change nothing. -/
def execMigholdWrite (s : State) : Out :=
  match s.input with
  | .migHoldWrite f v => done (if f = 0 ∧ v.toNat ≤ 100 then { s with migHold := v.toNat } else s)
  | _ => done s

/-- May a page serve its oldest request: its hold has ended, and it is not being taken? -/
def State.pageDue (s : State) (p : Page) : Bool := !p.requests.isEmpty && p.taking.isNone && decide (p.holdEnd ≤ s.now)

/-- PAGE_HOLD_END (R370): pages that are taken and used no more change hands, and pages whose hold has ended serve their oldest request. -/
def execPageHoldEnd (s : State) : Out :=
  let s := (s.pages.filter (fun e => e.2.taking.isSome)).foldl (fun s e => s.takeEnds e.1) s
  let s := (s.pages.filter (fun e => s.pageDue e.2)).foldl (fun s e => match (s.page e.1).requests with
    | r :: rest => (s.setPage e.1 { s.page e.1 with requests := rest }).movePage e.1 r
    | [] => s) s
  done (if s.pages.any (fun e => s.pageDue e.2) then s.post .pageHoldEnd else s)

/-! ### The host-ordered window (R371) -/

/-- Bytes where they stand: places and how many bytes follow each, lowest first. -/
abbrev Places := List (Nat × Nat)

/-- Where n bytes of a function's compatibility region stand: as path 0x7 reaches them, in two parts where its base makes them cross a page
there. One request does not cross 4 KiB of the window (PRESUMED, log 110). -/
def State.windowBytes (s : State) (f off n kind : Nat) : Option Places :=
  let r := Tab.get (0, 0) s.compat f
  let at' := fun (o : Nat) => s.devicePlace f (word (7 * 2 ^ 60 + (r.1 + o) % 2 ^ 60)) kind
  if 0 < n ∧ off % 4096 + n ≤ 4096 ∧ off + n ≤ min r.2 (2 ^ 36) then
    let m := min n (4096 - (r.1 + off) % 4096)
    match at' off, (if m = n then some [] else (at' (off + m)).map (fun q => [(q, n - m)])) with
    | some p, some rest => some ((p, m) :: rest)
    | _, _ => none
  else none

/-- The number that bytes hold, and bytes given to places by what writes them. -/
def State.gather (s : State) (ps : Places) : Nat := ps.foldr (fun x n => s.bytes x.1 x.2 + 2 ^ (8 * x.2) * n) 0
def Places.scatter (ps : Places) (put : State → Nat → Nat → Nat → State) (s : State) (v : Nat) : State :=
  (ps.foldl (fun (o : State × Nat) x => (put o.1 x.1 x.2 (o.2 % 2 ^ (8 * x.2)), o.2 / 2 ^ (8 * x.2))) (s, v)).1

/-- A word of the fabric page, o bytes from its start, is written: words that the device writes stay, and the control word keeps its reserved
bits 0 (R411, R413). -/
def State.fabricStore (s : State) (o : Nat) (v : Word) : State :=
  if o = 0 then (if 1 < v.toNat then s else { s with fabricControl := v }.land (fabricAt o) 8 v.toNat)
  else if (0x100 ≤ o ∧ o < 0x900) ∨ (0x1000 ≤ o ∧ o < 0x9000) ∨ (0xC000 ≤ o ∧ o < 0xC800) then s
  else s.land (fabricAt o) 8 v.toNat

/-- One byte of the fabric page is written within its word. -/
def State.fabricByte (s : State) (o b : Nat) : State :=
  s.fabricStore (o / 8 * 8) (word (withBits (s.wordAt (fabricAt (o / 8 * 8))).toNat (8 * (o % 8) + 7) (8 * (o % 8)) b))

/-- Do n bytes at p meet a page? -/
def inPage (page p n : Nat) : Bool := decide (page < p + n) && decide (p < page + 65536)

/-- The quadrant whose service core applies the host's requests for a word; none outside the window (R114). -/
def quadrantAt (w : Nat) : Option Nat := if w < secondTierAt 0 then some (Config.homeSlice w / 16) else none
/-- The host is about to write a word, where `chain` says that it reads it at once: what it holds may still be read through path 0x1, and the
write carries those before it (R106, R112, R114; log 14). -/
def State.hostWord (s : State) (chain : Bool) (w : Nat) : State :=
  let q := quadrantAt w
  let own : Seen := if q.isSome then [(s.writes, 0)] else []
  let r : Release := ⟨4, none, seenReleased 4 (seenJoin (s.hostKnows q) own), false⟩
  let s := match q with
    | some n => ({ s with hostWrote := Tab.set s.hostWrote n (seenJoin (Tab.get [] s.hostWrote n) own) } : State).keepOld none noLaunch (word (7 * 2 ^ 60)) w
    | none => s
  if chain then s.addSync w [r] else s.setSync w [r]
/-- Every word that bytes at places touch. -/
def Places.words (ps : Places) : List Nat := ps.flatMap (fun x => touched x.1 x.2)
/-- The host writes at places. -/
def State.hostWrites (s : State) (chain : Bool) (ps : Places) : State :=
  ps.words.foldl (fun s w => if inPage (fabricAt 0) w 8 then s else s.hostWord chain w) s
/-- The host reads at places, and acquires what their words hold. -/
def State.hostGets (s : State) (ps : Places) : State := s.hostReads (ps.words.flatMap s.syncAt)
/-- The host writes n bytes: the fabric page has words of its own (R411), and a context entry may be armed again (R405). -/
def State.windowStore (s : State) (p n v : Nat) : State :=
  if inPage (fabricAt 0) p n then
    (if n = 8 ∧ p % 8 = 0 then s.fabricStore (p - fabricAt 0) (word v)
     else (List.range n).foldl (fun s i => s.fabricByte (p + i - fabricAt 0) (v / 2 ^ (8 * i) % 256)) s)
  else
    let s := s.land p n v
    if inPage (entryAt 0 - 0x1000) p n then
      (List.range 960).foldl (fun s e => if p < entryAt e + 8 ∧ entryAt e < p + n then s.rearm e else s) s
    else s

/-- A reply to the host. -/
def State.reply (s : State) (x : Word) : State := { s with hostReplies := s.hostReplies ++ [x] }
/-- The reply of a read that reaches nothing is free (log 17). -/
def State.replyFree (s : State) : State := (s.reply s.free).drew

/-- The words of n bytes that a number holds, lowest first. -/
def wordsOf (n x : Nat) : List Word := (List.range ((n + 7) / 8)).map (fun i => word (x / 2 ^ (64 * i)))

/-- What the host writes at places, alone or as it reads them. -/
def State.hostStore (s : State) (chain : Bool) (ps : Places) (v : Nat) : State := ps.scatter State.windowStore (s.hostWrites chain ps) v
/-- The host's reply to a read of places. -/
def State.hostReply (s : State) (ps : Places) : State := (s.hostGets ps).reply (word (s.gather ps))

/-- One request of the host is applied where `place` says its bytes stand. What a read finds where they stand nowhere is free; a write there
changes nothing. A configuration read is none of memory. -/
def State.hostRequest (s : State) (place : Nat → Nat → Nat → Option Places) (r : HostRequest) : State :=
  match r with
  | .read off => match place off 8 0 with
    | some p => s.hostReply p
    | none => s.replyFree
  | .write off v => match place off 8 1 with
    | some p => s.hostStore false p v.toNat
    | none => s
  | .fetchAdd off v => match place off 8 2 with
    | some p => (s.hostReply p).hostStore true p (word (s.gather p) + v).toNat
    | none => s.replyFree
  | .cas off c v => match place off 8 2 with
    | some p => (s.hostReply p).hostStore true p (if word (s.gather p) = c then v else word (s.gather p)).toNat
    | none => s.replyFree
  | .readBytes off n => match place off n 0 with
    | some p => (wordsOf n (s.gather p)).foldl (fun s x => s.reply x) (s.hostGets p)
    | none => (List.range ((n + 7) / 8)).foldl (fun s _ => s.replyFree) s
  | .writeBytes off n v => match place off n 1 with
    | some p => s.hostStore false p (v % 2 ^ (8 * n))
    | none => s
  | .config _ _ => s

/-- Bytes of host memory, for the host itself. -/
def hostOwn (a n _ : Nat) : Option Places := some [(hostAt a, n)]

/-! ### Configuration reads of the bring-up block (R427) -/

/-- A word of the block. -/
def State.bringupWord (s : State) (i : Nat) : Word :=
  let b := s.bringup
  match i with
  | 0 => word (b.failure * 2 ^ 16 + b.slot * 2 ^ 8 + b.phase)
  | 1 => b.counter
  | 2 => if b.pages then Config.controlPage else 0
  | 3 => if b.pages then Config.schedulePage else 0
  | 4 => if b.pages then Config.fabricPage else 0
  | 5 => b.operand
  | 6 => word (b.length * 2 ^ 32 + b.command)
  | 7 => word (b.reason * 2 ^ 8 + b.result)
  | _ => 0

/-- A configuration read: of the capability header, whose DVSEC ID is 0x0C2, the rest of it being free, or of word i of the block after it
(PRESUMED for the header's place, log 145). Only the physical function has the capability. -/
def State.configRead (s : State) (f : Nat) (header : Bool) (i : Nat) : State :=
  if f ≠ 0 then s.replyFree
  else if header then (s.reply (s.free / 65536 * 65536 + 0x0C2)).drew
  else s.reply (s.bringupWord i)

/-! ### Reads of BAR 0 (R358) -/

/-- Both words of a mailbox's configuration, and of an event ring's (R359, R366). -/
def Mailbox.configWords (b : Mailbox) : Word × Word := (b.base, word (boolNat b.enable * 2 ^ 63 + b.queue % 2 ^ 16 * 2 ^ 32 + b.log2 % 32))
def EventRing.configWords (r : EventRing) : Word × Word := (r.base, word (boolNat r.enable * 2 ^ 63 + r.vector % 2048 * 2 ^ 16 + r.log2 % 32))

/-- What an aligned 8-byte read of BAR 0 of function f returns (R358, R359, R361, R366, R370): zero where no register is named; MIGGIVE and
MIGTAKE have no stated reading. -/
def State.barWord (s : State) (f off : Nat) : Option Word :=
  let half := fun (x : Word × Word) => if off % 16 = 0 then x.1 else x.2
  if off = 0 ∨ off = 8 then none
  else if off = 0x10 then some (if f = 0 then word s.migHold else 0)
  else if 0x1000 ≤ off ∧ off < 0x2000 then some (s.mailboxRead f off)
  else if f = 0 ∧ 0x100000 ≤ off ∧ off < 0x100000 + 16 * 65 * 64 then
    some (half ((Tab.get Mailbox.initial s.mailboxes ((off - 0x100000) / 16)).configWords))
  else if f = 0 ∧ 0x200000 ≤ off ∧ off < 0x200000 + 16 * 65 * 16 then
    some (half ((Tab.get EventRing.initial s.eventRings ((off - 0x200000) / 16)).configWords))
  else some 0

/-- A read of BAR 0. Other than aligned 8-byte reads find zero in a mailbox's block (R361), at offsets that no table names (R358) and, of a
virtual function, at MIGHOLD's (R370); what
they find of another register is free (log 110). -/
def State.barRead (s : State) (f off n : Nat) : State :=
  if 64 < f then s
  else if n = 8 ∧ off % 8 = 0 then
    (match s.barWord f off with
     | some x => s.reply x
     | none => s.replyFree)
  else if off < 0x10 ∨ (off < 0x18 ∧ f = 0) ∨ (f = 0 ∧ 0x100000 ≤ off ∧ off < 0x100000 + 16 * 65 * 64) ∨ (f = 0 ∧ 0x200000 ≤ off ∧ off < 0x200000 + 16 * 65 * 16) then
    s.replyFree
  else s.reply 0

/-- HOST_WINDOW_REQUEST (R371, R357): one request through BAR 2 is applied. A read of BAR 0 (R358), a configuration read (R427) and the host's
access to its own memory (R362, R368), which have no row of their own, run with it (log 110). -/
def execHostWindowRequest (s : State) : Out :=
  match s.input with
  | .hostWindow f (.config h i) => done (s.configRead f h i)
  | .hostWindow f r => done (s.hostRequest (s.windowBytes f) r)
  | .barRead f off n => done (s.barRead f off n)
  | .hostMemory r => done (s.hostRequest hostOwn r)
  | _ => done s

end Sys2Proof.Machine
end

