-- ==== Sys2Proof/Machine/Switching.lean ====
section
/-! DEFINITION. Interrupts, the freezing of cores, the choice of contexts, saving and restoring them (R397 to R405, R409). -/

namespace Sys2Proof.Machine

/-! ### Interrupts (R398) -/

/-- INTCAUSE: the context entry and the cause. -/
def intCause (entry cause : Nat) : Word := word (entry % 1024 * 256 + cause)

/-- An interrupt enters the resident privileged handler, in its own frame; a handler that stands in `IDLE` goes on after it (R310). One
that still runs reads the new INTCAUSE (DEDUCED, log 52). -/
def State.enterPrivileged (s : State) (c entry cause : Nat) : State :=
  let s := s.modCore c (fun k => { k with intcause := intCause entry cause })
  let x := s.slot c 8
  if x.st = .free then
    { s.setSlot c 8 { Slot.empty with st := .running, launch := noLaunch, fid := s.nextFiring } with nextFiring := s.nextFiring + 1 }
  else if x.st = .stalled ∧ x.stall = some .idle then
    s.modCore c (fun k => { k.issued.setSlot 8 { x with st := .running, stall := none, pc := x.pc + 12, count := x.count + 1 } with lastSlot := 8 })
  else s

/-- Every slot stops: a stalled instruction is abandoned, with its place among waiters and its request, and executes again on
resumption (R89, R196, R239, R255, R398). -/
def State.freeze (s : State) (c : Nat) : State :=
  let cl := clusterOf c
  let s := (s.modCluster cl (fun k => { k with waiters := k.waiters.filter (fun w => w.core != c) })).endRequests cl (fun x => x.1 == c)
  s.modCore c (fun k => { k with
    halted := true
    gang := match k.gang with | some g => if g.formed then some g else none | none => none
    slots := k.slots.map (fun e => if e.1 < 8 ∧ (e.2.st = .running ∨ e.2.st = .stalled) then (e.1, { e.2 with st := .frozen, stall := none, met := none, spilling := false }) else e) })

/-- Every Frozen slot becomes as its state word records: its instruction issues again (R405). -/
def State.unfreeze (s : State) (c : Nat) : State :=
  let s := s.modCore c (fun k => { k with
    halted := false
    slots := k.slots.map (fun e => if e.1 < 8 ∧ e.2.st = .frozen then (e.1, { e.2 with st := .running }) else e) })
  ((s.evalRules c).post (.firingStart c)).post (.recallHead c)

/-- The tenant whose partition holds a core, and the entry resident there. -/
def State.ownerOf (s : State) (c : Nat) : Option Nat := (s.cluster (clusterOf c)).tenant
def State.entryOn (s : State) (c : Nat) : Nat := (s.cluster (clusterOf c)).context.getD 0

/-- Is the partition of a core being switched away? -/
def State.switchingOn (s : State) (c : Nat) : Bool :=
  match s.ownerOf c with
  | some t => (s.sched? t).switching.isSome
  | none => false

/-- Is a core frozen by an interrupt of a cause? -/
def State.stoppedBy (s : State) (c cause : Nat) : Bool := (s.core c).halted && bitsOf (s.core c).intcause.toNat 7 0 == cause

/-- PREEMPTION_INTERRUPT (R398, R400 step 1). -/
def execPreemptionInterrupt (c : Nat) (s : State) : Out :=
  if s.switchingOn c = true ∧ s.stoppedBy c 1 = false then done ((s.freeze c).enterPrivileged c (s.entryOn c) 1) else done s

/-- DEBUGGER_HALT (R398): the core freezes without quiescence. -/
def execDebuggerHalt (s : State) : Out :=
  match s.input with
  | .debuggerHalt c =>
    done (if c < 16384 then ((s.freeze c).modCore c (fun k => { k with debugHalt := true })).enterPrivileged c (s.entryOn c) 2 else s)
  | _ => done s

/-- DEBUGGER_RESUME (R398, R410): while its context is switched away, the core stays Frozen. -/
def execDebuggerResume (s : State) : Out :=
  match s.input with
  | .debuggerResume c =>
    if c < 16384 then
      let s := (s.modCore c (fun k => { k with debugHalt := false })).enterPrivileged c (s.entryOn c) 3
      done (if s.switchingOn c || (s.core c).restoring then s else s.unfreeze c)
    else done s
  | _ => done s

/-! ### Context entries (R395, R396) -/

/-- Is an entry refused (R396)? -/
def State.entryBad (s : State) (t e : Nat) : Bool :=
  let w := s.entryWord e
  bitsOf (w 0) 59 52 != 0 || bitsOf (w 0) 47 42 != 0 || bitsOf (w 0) 31 23 != 0 || bitsOf (w 0) 15 0 != 0 ||
    bitsOf (w 1) 63 48 != 0 || bitsOf (w 6) 63 1 != 0 || w 7 != 0 || decide (959 < e) || decide (3 < entryState (w 0)) ||
    bitsOf (w 1) 47 32 == 0 || bitsOf (w 1) 31 0 == 0 || decide (1000000 < bitsOf (w 1) 31 0) ||
    bitsOf (w 0) 22 16 != t || w 2 % 65536 != 0 || w 3 % 65536 != 0 || pathOf (word (w 3)) != 0

def State.entryNext (s : State) (e : Nat) : Nat := bitsOf (s.entryWord e 0) 41 32
def State.listCurrent (s : State) (t : Nat) : Nat := bitsOf (s.wordAt (listHead t)).toNat 9 0

/-- The entries along next after one, up to the first revisit. -/
def State.circle (s : State) : Nat → Nat → List Nat → List Nat
  | 0, _, seen => seen
  | n + 1, e, seen =>
    let x := s.entryNext e
    if seen.contains x then seen else s.circle n x (seen ++ [x])
/-- Entries are at most 960. -/
def State.entriesOf (s : State) (t : Nat) : List Nat := s.circle 960 (s.listCurrent t) []

/-- Does a saved entry hold a launch past its deadline? -/
def State.expiredEntry (s : State) (t e : Nat) : Bool := !s.entryBad t e && entryState (s.entryWord e 0) == 0 && bitOf (s.entryWord e 6) 0

/-- The context that a boundary chooses, and whether out of turn (R397). -/
def State.chosen (s : State) (t : Nat) : Option (Nat × Bool) :=
  let es := s.entriesOf t
  let late := es.filter (s.expiredEntry t)
  match late.foldl (fun (b : Option Nat) e => match b with
      | none => some e
      | some x => if s.entryWord e 4 < s.entryWord x 4 ∨ (s.entryWord e 4 = s.entryWord x 4 ∧ e < x) then some e else b) none with
  | some e => some (e, true)
  | none => (es.find? (fun e => !s.entryBad t e && entryValid (s.entryWord e 0) &&
      (entryState (s.entryWord e 0) == 0 || entryState (s.entryWord e 0) == 1))).map (fun e => (e, false))

/-- A scheduling event (R409). -/
def State.schedEvent (s : State) (t kind e w3 : Nat) : State := s.postEvent t 0 kind 0x0C01 (word e) (word w3)

/-- Refused entries met for the first time are told; suspended ones whose driver has written valid 0 may be chosen again (R396, R405). -/
def State.meetEntries (s : State) (t : Nat) : State :=
  (s.entriesOf t).foldl (fun s e =>
    let bad := s.entryBad t e
    let s := if bad && !s.refusedEntries.contains e then
        { s.schedEvent t 0x0052 e 0 with refusedEntries := s.refusedEntries ++ [e] }
      else if !bad then { s with refusedEntries := s.refusedEntries.filter (· != e) } else s
    s.rearm e) s

/-! ### Boundaries (R397, R400) -/

/-- The clusters and cores of a tenant's partition: of those that its context names, the ones that no other tenant has taken since (R378). -/
def State.partition (s : State) (t : Nat) : List Nat :=
  ((List.range (ctxCount (s.ctx t))).map (ctxFirst (s.ctx t) + ·)).filter (fun cl => (s.cluster cl).tenant == some t)
def State.partitionCores (s : State) (t : Nat) : List Nat := (s.partition t).flatMap coresOf

/-- The live launches of a tenant in a context. -/
def State.launchesIn (s : State) (t : Nat) (e : Option Nat) : List Launch :=
  (s.launches.map (·.2)).filter (fun l => l.tenant == t && l.context == e)

/-- Has the resident context no launch, no firing and no mailbox slot to consume? -/
def State.partitionIdle (s : State) (t e : Nat) : Bool :=
  (s.launchesIn t (some e)).isEmpty && !s.queues.any (fun q => q.2.any (fun m => m.fn == t)) &&
    !(List.range 64).any (fun m => s.consumable t m)

def State.sliceOf (s : State) (e : Nat) : Nat := 1000 * bitsOf (s.entryWord e 1) 31 0
def State.latencyOf (s : State) (e : Nat) : Nat := 1000 * bitsOf (s.entryWord e 1) 47 32

/-- Has the resident context had nothing to do since a boundary last gave it a slice (R397)? -/
def State.idleSince (s : State) (t e : Nat) : Option Nat :=
  match (s.sched? t).idleAt with
  | some a => if (s.sched? t).sliceEnd < a + s.sliceOf e then some a else none
  | none => none

/-- Is there a boundary now, and a switch or a new slice to make? It comes at the slice's end, where the resident context has nothing to do,
and where none is resident. -/
def State.boundary (s : State) (t : Nat) : Bool :=
  let c := s.sched? t
  s.listServed t && ctxEnable (s.ctx t) && s.serving && s.bringup.phase != 4 && c.switching.isNone && !s.resets.any (fun r => r.tenant == t) && (s.launchesIn t none).isEmpty &&
    (match c.resident with
     | none => (s.chosen t).isSome
     | some e => (!c.awaiting && decide (c.sliceEnd ≤ s.now)) || (s.partitionIdle t e &&
         ((s.idleSince t e).isSome || (match s.chosen t with | some (x, _) => x != e | none => false))))

/-- When the boundary that stands arrived: at the slice's end, when the resident context came to have nothing to do, or, with none resident, when
one could first be chosen (R397, R408). -/
def State.boundaryTime (s : State) (t : Nat) : Nat :=
  let c := s.sched? t
  match c.resident with
  | none => c.idleAt.getD s.now
  | some e => min (if !c.awaiting && decide (c.sliceEnd ≤ s.now) then c.sliceEnd else s.now) ((s.idleSince t e).getD s.now)

/-- Record the expiries of a tenant's descheduled launches whose deadlines came by an instant. -/
def State.expireBefore (s : State) (t b : Nat) : State :=
  (s.launches.filter (fun e => e.2.tenant == t && decide (e.2.deadline ≤ b) && s.expiryDue e.2)).foldl (fun s e => s.recordExpiry e.1 e.2) s

/-- DESCHEDULED_EXPIRY (R140): expiry is recorded at the deadline, unless a boundary of the tenant came before it and has still to be
served (R408). -/
def execDescheduledExpiry (l : Nat) (s : State) : Out :=
  match s.launch? l with
  | some x =>
    if s.expiryDue x && !(s.boundary x.tenant && decide (s.boundaryTime x.tenant < x.deadline)) then done (s.recordExpiry l x) else done s
  | none => done s

def State.setSched (s : State) (t : Nat) (c : Sched) : State := { s with sched := Tab.set s.sched t c }
def State.newSlice (s : State) (t e : Nat) : State :=
  (s.setSched t { s.sched? t with sliceEnd := s.now + s.sliceOf e, awaiting := false }).timerNs (s.now + s.sliceOf e) (.sliceBoundary t)

/-- Did a slot's turn issue nothing: it only stalled, or the end of its time or budget stood in the instruction's place? -/
def State.issuedNone (before s : State) (c n : Nat) : Bool :=
  let x := before.select c n
  before.onlyStalled s c n || (!x.privileged && (x.timeUp.isSome || x.boundHit.isSome))

/-- What follows from a slot's turn to issue: one that issued nothing is not the slot that issued last (R35, R336), and the first issue of a
context after its resumption begins the slice; the privileged handler's is not the context's (R397; DEDUCED, log 89). -/
def State.noteIssue (before s : State) (c n : Nat) : State :=
  if before.issuedNone s c n then s.modCore c (fun k => { k with lastSlot := (before.core c).lastSlot })
  else if n = 8 then s
  else match s.ownerOf c with
    | some t => (match (s.sched? t).awaiting, (s.sched? t).resident with
      | true, some e => s.newSlice t e
      | _, _ => s)
    | none => s

/-- The wall budget of launches in wrap-up pauses (R149). -/
def State.pauseWalls (s : State) (t e : Nat) : State :=
  (s.launchesIn t (some e)).foldl (fun s l => match l.wrapStart with
    | some b => s.setLaunch l.number { l with wallUsed := l.wallUsed + (s.now - b), wrapStart := none }
    | none => s) s

/-- Pre-emption of the resident context begins (R400 step 1). -/
def State.beginSwitch (s : State) (t e next : Nat) (turn : Bool) : State :=
  let s := (s.pauseWalls t e).setEntryState e 3
  let s := s.setSched t { s.sched? t with switching := some next, limitEnd := s.now + s.latencyOf e, inTurn := turn, told := false }
  let s := (s.partitionCores t).foldl (fun s c => s.post (.preemptionInterrupt c)) s
  s.timerNs (s.now + s.latencyOf e) (.quiescenceLimit t)

/-! ### Restoring (R405) -/

/-- One cluster of a context comes back from its section (R405); a saved warren entry holds the rest of its hold (R68). Messages that reached its
spill queues while it was saved return now, as far as entries are free (R70, R407; DEDUCED, log 132). A finish limit ran on meanwhile (DESIGN
CHOICE, log 152). -/
def State.loadCluster (s : State) (t e cl : Nat) (x : SavedCtx) : State :=
  let k := Tab.get Cluster.initial x.clusters cl
  let s := s.bringIn t e cl x (fun k y => { k.keep y with ctxbase := word (s.entryWord e 2), spillbase := word (s.entryWord e 3) })
  let s := (s.cluster cl).warren.foldl (fun s w => if w.pending then s else s.timer (2 * w.holdEnd) (.holdReached cl w.serial)) s
  let s := k.setts.foldl (fun s z => match z.finishEnd with | some u => s.timerNs u (.finishLimitPassed cl z.gen) | none => s) s
  State.returnsDue cl (128 - (s.cluster cl).warren.length) s

/-- The header of a context buffer that a save has written for the partition (R402). -/
def State.headerOk (s : State) (t e : Nat) : Bool :=
  let a := hbmAt (s.entryWord e 2)
  let w0 := (s.wordAt a).toNat
  let w1 := (s.wordAt (a + 8)).toNat
  w0 == 2 ^ 48 && bitsOf w1 27 16 == ctxCount (s.ctx t) && bitsOf w1 10 0 == ctxFirst (s.ctx t) &&
    bitsOf (s.wordAt (a + 16)).toNat 3 0 == bitsOf (s.entryWord e 0) 51 48

/-- Features that an entry's launches need and that a core of the partition lacks. -/
def State.missingFeatures (s : State) (t e : Nat) : Nat :=
  let need := bitsOf (s.entryWord e 0) 51 48
  (s.partitionCores t).foldl (fun n c => n ||| (need - (need &&& ((s.core c).featallow.toNat % 16)))) 0

/-- A context that was never saved, or that a reset of its tenant discarded, has nothing to restore (DESIGN CHOICE, log 53). -/
def freshCtx (t e : Nat) : SavedCtx := ⟨e, t, [], [], []⟩

/-- Launches of a resumed context that are past their deadlines, or in wrap-up (R149). -/
def State.resumeLaunches (s : State) (t e : Nat) : State :=
  (s.launchesIn t (some e)).foldl (fun s l =>
    let s := s.modLaunch l.number (fun z => { z with expired := false })
    if l.phase = .wrapping then s.startWall l
    else if l.phase = .running ∧ l.deadline ≠ 0 ∧ l.deadline ≤ s.now then l.cores.foldl (fun s c => s.expireOn l.number c) s
    else s) s

/-- Resumption of an entry (R405): checks, restoring, cause 4. `turn` says that it was chosen in turn. -/
def State.resume (s : State) (t e : Nat) (turn : Bool) : State :=
  let idle := s.setSched t { s.sched? t with resident := none, switching := none, idleAt := none }
  let never := (Tab.find s.saved e).isNone
  let x := (Tab.find s.saved e).getD (freshCtx t e)
  if (!never || bitsOf (s.entryWord e 5) 63 32 != 0) && !s.headerOk t e then (idle.setEntryState e 2).schedEvent t 0x0052 e 0
  else if s.missingFeatures t e ≠ 0 then (idle.setEntryState e 2).schedEvent t 0x0050 e (s.missingFeatures t e)
  else
    let s := (s.partition t).foldl (fun s cl =>
      if never then (coresOf cl).foldl (fun s c => s.modCore c (fun k => { k with ctxbase := word (s.entryWord e 2), spillbase := word (s.entryWord e 3) }))
        (s.modCluster cl (fun k => { k with context := some e }))
      else s.loadCluster t e cl x) s
    let s := { s with
      saved := Tab.erase s.saved e
      jobs := s.jobs ++ x.jobs.map (fun (j : Job) => { j with paused := false }) }
    let s := x.jobs.foldl (fun (s : State) (j : Job) => s.post (.jobPieceLand j.id)) s
    let s := s.poke (entryAt e + 48) 8 (withBits (s.entryWord e 6) 0 0 0)
    let s := s.setEntryState e 1
    let s := if turn then s.poke (listHead t) 8 (withBits (s.wordAt (listHead t)).toNat 9 0 e) else s
    let s := s.setSched t { Sched.initial with resident := some e, awaiting := true }
    let s := (s.entrySync e).resumeLaunches t e
    ((s.partitionCores t).foldl (fun s c => (s.modCore c (fun k => { k with restoring := true })).post (.contextRestore c)) s).retryPlacements

/-- The resident context starts a new slice at a boundary; where it has issued nothing since its resumption, its first issue begins another. -/
def State.sliceAgain (s : State) (t e : Nat) : State :=
  let s' := s.newSlice t e
  s'.setSched t { s'.sched? t with awaiting := (s.sched? t).awaiting }

/-- SLICE_BOUNDARY (R397). Deadlines of the tenant's descheduled launches that came before it are recorded first: they are of one
ordering domain (R408). -/
def execSliceBoundary (t : Nat) (s : State) : Out :=
  let s := s.expireBefore t (s.boundaryTime t)
  let s := if s.listServed t then s.meetEntries t else s
  if !s.boundary t then done s
  else match (s.sched? t).resident, s.chosen t with
    | none, some (e, out) => done (s.resume t e (!out))
    | some r, some (e, out) => if e = r then done (s.sliceAgain t r) else done (s.beginSwitch t r e (!out))
    | some r, none => done (s.sliceAgain t r)
    | none, none => done s

/-! ### Quiescence and saving (R400 to R404) -/

/-- Operations of a context that have not landed: engine jobs, without the buffers that no message has begun to fill. -/
def State.contextJobs (s : State) (t e : Nat) : List Job :=
  let ls := (s.launchesIn t (some e)).map (·.number)
  s.jobs.filter (fun j => ls.contains j.launch && !j.isDevice && !j.unfilled)

/-- Of those, jobs that would be replay entries of a cluster: all but posted stores (R401). -/
def replaysIn (js : List Job) (cl : Nat) : List Job := js.filter (fun j => clusterOf j.core == cl && j.journal.isNone)

/-- QUIESCENCE_LIMIT (R400 step 3, R401): past the limit no job starts a further piece, where the replay areas hold them all. -/
def execQuiescenceLimit (t : Nat) (s : State) : Out :=
  let c := s.sched? t
  match c.resident, c.switching with
  | some e, some _ =>
    if c.limitEnd ≤ s.now then
      let js := s.contextJobs t e
      if (s.partition t).all (fun cl => decide ((replaysIn js cl).length ≤ 512)) then
        let ids := js.map (·.id)
        done { s with jobs := s.jobs.map (fun j => if ids.contains j.id then { j with paused := true } else j) }
      else done (s.setSched t { c with told := true })
    else done s
  | _, _ => done s

/-- Is everything ready to be saved: cores frozen, operations landed or to be replayed, no array operation on its way, and no eviction, but one
that waits on a page past the limit and goes on from the saved image (R58, R400, R406)? -/
def State.saveReady (s : State) (t e : Nat) : Bool :=
  let past := decide ((s.sched? t).limitEnd ≤ s.now)
  (s.partitionCores t).all (fun c => s.stoppedBy c 1) &&
    (s.contextJobs t e).all (fun j => j.paused && !s.inFlight j) &&
    (s.partition t).all (fun cl => (s.cluster cl).arrayOps.isEmpty && (s.cluster cl).rotations.isEmpty &&
      !s.jobs.any (fun j => j.opcode == jobEvict && clusterOf j.core == cl && !(past && j.waiting.isSome)))

/-- Save one cluster: its bytes into the buffer, and what its section does not hold into the saved context; the granules are free (R132,
R403). -/
def State.saveCluster (s : State) (t e cl : Nat) (js : List Job) (x : SavedCtx) : State × SavedCtx :=
  let x := { x with
    cores := (coresOf cl).foldl (fun t c => Tab.set t c (s.core c)) x.cores
    clusters := Tab.set x.clusters cl ((s.cluster cl).saved s.fabric) }
  let s := s.writeSection t e cl js
  let s := (coresOf cl).foldl (fun s c => (s.wipe (poolAt c 0) 98304).modCore c (fun k => (Core.initial.keep k))) s
  ((s.wipe (storeAt cl 0) 524288).modCluster cl (fun k => { Cluster.initial with
    acquisitions := k.acquisitions
    requests := k.requests
    tenant := k.tenant
    bucket := k.bucket }), x)

/-- The entry and the header at the end of a save (R400 step 5, R402). -/
def State.saveHeader (s : State) (t e replays : Nat) (late : Bool) : State :=
  let a := hbmAt (s.entryWord e 2)
  let s := s.poke a 8 (2 ^ 48)
  let s := s.poke (a + 8) 8 (ctxCount (s.ctx t) * 2 ^ 16 + ctxFirst (s.ctx t))
  let s := (s.poke (a + 16) 8 (bitsOf (s.entryWord e 0) 51 48)).poke (a + 24) 8 s.now
  let saves := (bitsOf (s.entryWord e 5) 63 32 + 1) % 2 ^ 32
  let s := s.poke (entryAt e + 40) 8 (saves * 2 ^ 32 + replays)
  let s := s.poke (entryAt e + 48) 8 (withBits (s.entryWord e 6) 0 0 (boolNat late))
  s.setEntryState e 0

/-- The context is saved, and the chosen one resumes. -/
def State.saveContext (s : State) (t e next : Nat) : State :=
  let js := ((s.contextJobs t e).filter (fun j => j.opcode != 0xAD)).map s.recorded
  let late := (s.launchesIn t (some e)).any (fun l => l.phase == .wrapping || l.expired)
  let o := (s.partition t).foldl (fun (o : State × SavedCtx) cl => o.1.saveCluster t e cl js o.2) (s, ⟨e, t, [], [], js⟩)
  let ids := js.map (·.id)
  -- a read's data are asked for again, and a return from a spill queue is due again at the resumption (R401, R407)
  let gone := fun (j : Job) => ids.contains j.id || (j.opcode == jobLand && ids.contains (rn j.run 2 - 1) && rn j.run 2 != 0) ||
    (j.opcode == jobReturn && (s.partition t).contains (clusterOf j.core))
  let replays := ((js ++ s.openBuffers e).filter (fun j => j.journal.isNone)).length
  let s : State := { o.1 with
    saved := Tab.set o.1.saved e o.2
    jobs := (o.1.jobs.filter (fun j => !gone j)).map (fun j => if j.opcode = 0xAD then { j with paused := false } else j) }
  let c := s.sched? t
  let s : State := s.saveHeader t e replays late
  -- a save that waited past its limit is told with its overrun (R401, R409)
  let s := if c.told then s.schedEvent t 0x0051 e ((s.now - c.limitEnd) / 1000) else s
  -- the switch to full service resumes contexts at their next boundaries (R431), and a disabled tenant none (R376)
  if s.bringup.phase = 4 ∨ ctxEnable (s.ctx t) = false then s.setSched t Sched.initial else s.resume t next c.inTurn

/-- CONTEXT_SAVE_COMPLETE (R400). -/
def execContextSaveComplete (t : Nat) (s : State) : Out :=
  let c := s.sched? t
  match c.resident, c.switching with
  | some e, some next => if s.saveReady t e && !s.resets.any (fun r => r.tenant == t) then done (s.saveContext t e next) else done s
  | _, _ => done s

/-- CONTEXT_RESTORE (R405 step 3): cause 4 reaches a core of the resumed context. A core that a debugger halts stays so (log 103). -/
def execContextRestore (c : Nat) (s : State) : Out :=
  let resident := match s.ownerOf c with | some t => (s.sched? t).resident | none => none
  if (s.core c).restoring ∧ resident.isSome ∧ resident = (s.cluster (clusterOf c)).context ∧ s.switchingOn c = false then
    let s := (s.modCore c (fun k => { k with restoring := false })).enterPrivileged c (s.entryOn c) 4
    done (if (s.core c).debugHalt then s.modCore c (fun k => { k with halted := true }) else s.unfreeze c)
  else done s

/-! ### What each clock notes of the partitions (R397) -/

/-- Since when each tenant's resident context has had nothing to do, or a boundary with none resident has stood. -/
def State.noteIdle (s : State) : State :=
  ((Tab.keys s.sched) ++ (Tab.keys s.tenants).filter (fun t => (Tab.find s.sched t).isNone)).foldl (fun s t =>
    let c := s.sched? t
    let idle := match c.resident with
      | some r => c.switching.isNone && s.partitionIdle t r
      | none => s.boundary t
    if idle = c.idleAt.isSome then s else s.setSched t { c with idleAt := if idle then some s.now else none }) s

/-- A core clock passes: what happened in it is noted, then the clock counts. A wait that finds its barrier flipped ends so, before a quiet
point could end it (R146, R194). -/
def State.pass (s : State) : State :=
  let s := s.cores.foldl (fun s e => e.2.slots.foldl (fun s y => s.noteWait e.1 y.1) s) s
  let s := (s.launches.foldl (fun s e => (s.noteMet e.2).noteQuiet e.2) s).noteIdle
  s.tick

/-- RESET_INTERRUPT (R398): cause 5 reaches a core of a tenant that is being reset. -/
def execResetInterrupt (c : Nat) (s : State) : Out :=
  match s.ownerOf c with
  | some t =>
    if s.resets.any (fun r => r.tenant == t && r.begun) = true ∧ s.stoppedBy c 5 = false then
      done ((s.freeze c).enterPrivileged c (s.entryOn c) 5)
    else done s
  | none => done s

end Sys2Proof.Machine
end

