-- ==== Sys2Proof/Machine/Tenants.lean ====
section
/-! DEFINITION. Request rings, context loads, quotas and reclaims (R375 to R381), invalidations and retries (R384, R389), the second-stage
fault ring (R388), and resets of tenants (R391, R392). -/

namespace Sys2Proof.Machine

/-! ### Request rings (R379, R380) -/

/-- Base and capacity of the ring that word 6 of a context names; none for a value that names no capacity. -/
def ringNamed (w : Nat) : Option (Nat × Nat) :=
  if 4 ≤ bitsOf w 4 0 ∧ bitsOf w 4 0 ≤ 10 then some (bitsOf w 63 16 * 65536, 2 ^ bitsOf w 4 0) else none

/-- The record of a tenant at the control page. -/
def State.contextRecord (s : State) (t : Nat) : List Word := (List.range 8).map (fun i => s.wordAt (controlAt (0x5000 + 64 * t + 8 * i)))

/-- A tenant's request ring. Before tenant 0's first load its ring is the one that its record names (DESIGN CHOICE, log 54). -/
def State.ringOf (s : State) (r : Nat) : Option (Nat × Nat) :=
  let c := s.ctx r
  ringNamed (msgWord (if r = 0 ∧ c = [] then s.contextRecord 0 else c) 6)

def State.ringProduced (s : State) (base : Nat) : Nat := (s.wordAt (hbmAt base)).toNat
def State.ringConsumed (s : State) (base : Nat) : Nat := (s.wordAt (hbmAt (base + 8))).toNat

/-- The entry that a ring serves next: its address and its four words. -/
def State.ringHead (s : State) (r : Nat) : Option (Nat × List Nat) :=
  match s.ringOf r with
  | none => none
  | some (base, cap) =>
    let c := s.ringConsumed base
    if c < s.ringProduced base then
      let a := hbmAt (base + 64 + 32 * (c % cap))
      some (a, (List.range 4).map (fun i => (s.wordAt (a + 8 * i)).toNat))
    else none

def reqKind (w : List Nat) : Nat := bitsOf (w.getD 0 0) 2 0
def reqStage (w : List Nat) : Nat := if bitOf (w.getD 0 0) 3 then 2 else 1
/-- The tenant that a ring's entry acts on. -/
def reqTenant (r : Nat) (w : List Nat) : Nat := if r = 0 then bitsOf (w.getD 0 0) 22 16 else r
def reqAddr (w : List Nat) : Word := word (w.getD 1 0)

/-- Does an entry do nothing: a reserved bit or kind, or a form that its ring may not give (R380)? -/
def reqVoid (r : Nat) (w : List Nat) : Bool :=
  let w0 := w.getD 0 0
  let w1 := w.getD 1 0
  let kind := reqKind w
  bitsOf w0 63 23 != 0 || bitsOf w0 15 4 != 0 || bitsOf (w.getD 2 0) 63 16 != 0 || w.getD 3 0 != 0 || kind == 7 ||
    (r == 0 && decide (64 < bitsOf w0 22 16)) || (r != 0 && (bitOf w0 3 || decide (2 ≤ kind))) ||
    (kind == 5 && (bitsOf w1 63 9 != 0 || bitOf w1 7 || decide (64 < bitsOf w1 6 0))) ||
    (kind == 6 && (bitsOf w1 63 24 != 0 || bitsOf w1 15 12 != 0))

/-- The entry at place a of the ring at base is done: its result, and C one further (R380), or past the entries that a reset of its tenant
discarded meanwhile (R391, R393). -/
def State.ringDoneAt (s : State) (r base a result : Nat) : State :=
  let w2 := (s.wordAt (a + 16)).toNat
  let s := (s.poke (a + 16) 8 (withBits w2 15 0 result)).land (hbmAt (base + 8)) 8 (max (s.ringConsumed base + 1) (Tab.get 0 s.ringUpTo r))
  { s with ringUpTo := Tab.erase s.ringUpTo r }
def State.ringDone (s : State) (r a result : Nat) : State :=
  match s.ringOf r with
  | some (base, _) => s.ringDoneAt r base a result
  | none => s

/-- Serve the head of a ring where it has one of the kinds given; an entry that does nothing is passed over. -/
def State.serve (s : State) (r : Nat) (kinds : List Nat) (f : Nat → List Nat → State) : State :=
  match s.ringHead r with
  | some (a, w) => if !kinds.contains (reqKind w) then s else if reqVoid r w then s.ringDone r a 0 else f a w
  | none => s

/-! ### Invalidations and retries (R384, R389) -/

/-- Offset bits of the page that an invalidated address now lies in: 64 KiB, or the leaf that covers it. -/
def State.pageBits (s : State) (t stage : Nat) (a : Nat) : Nat :=
  let c := s.ctx t
  let leaf := if stage = 1 then
      (match ctxStage1 c with | some root => (match walk1 s.mem [] allNew c t a root with | .leaf _ lvl => some lvl | _ => none) | none => none)
    else (match ctxStage2 c with | some root => (match walk2 s.mem root a with | .leaf _ lvl => some lvl | _ => none) | none => none)
  match leaf with
  | some lvl => levelBits lvl
  | none => 16

/-- Does a request cover the page that a job waits on? -/
def State.covers (s : State) (kind stage t : Nat) (addr : Word) (j : Job) : Bool :=
  match j.waiting with
  | some (st, w) => st == stage && (kind == 2 || (j.tenant == t && (kind == 1 ||
      (let a := bitsOf addr.toNat 47 0
       let b := s.pageBits t stage a
       bitsOf w.toNat 47 0 / 2 ^ b == a / 2 ^ b))))
  | none => false

/-- An invalidation, synchronised: no translation that it covers is used any more, and the jobs that it covers try again. -/
def State.shootDown (s : State) (kind stage t : Nat) (addr : Word) : State :=
  let s := s.invalidate kind stage t addr
  (s.jobs.filter (s.covers kind stage t addr)).foldl (fun s j => s.mayRetry j) s

def State.serveInvalidate (s : State) (r kind : Nat) (void : List Nat) : State :=
  s.serve r (kind :: void) (fun a w => (s.shootDown kind (reqStage w) (reqTenant r w) (reqAddr w)).ringDone r a 0)

/-- REQUEST_PAGE_INVALIDATE (R380), for ring r; an entry of the reserved kind 7 is passed over with it. -/
def execRequestPageInvalidate (r : Nat) (s : State) : Out := done (s.serveInvalidate r 0 [7])
/-- REQUEST_TENANT_INVALIDATE (R380). -/
def execRequestTenantInvalidate (r : Nat) (s : State) : Out := done (s.serveInvalidate r 1 [])
/-- REQUEST_ALL_INVALIDATE (R380). -/
def execRequestAllInvalidate (r : Nat) (s : State) : Out := done (s.serveInvalidate r 2 [])

/-! ### Freeing granules (R381) -/

/-- The device's own request in a cluster, for a quota change, a reclaim or a context load. -/
def isFreeing (r : SettReq) : Bool := r.who == none && r.launch == noLaunch
def State.freeing? (s : State) (cl : Nat) : Option SettReq := (s.cluster cl).requests.find? isFreeing
def State.setFreeing (s : State) (cl : Nat) (r : Option SettReq) : State :=
  s.modCluster cl (fun k => { k with requests := k.requests.filter (fun x => !isFreeing x) ++ r.toList })

/-- The setts of a tenant in a cluster that hold granules or the array. -/
def State.tenantSetts (s : State) (cl t : Nat) : List Sett :=
  (s.cluster cl).setts.filter (fun x => x.st != .displaced && (match s.launch? x.launch with | some l => l.tenant == t | none => false))

/-- Start freeing in a cluster: down to `n` granules, or `wanted` of them for a reclaim, and the gang sett where `gang` says so. -/
def State.startFreeing (s : State) (cl n : Nat) (wanted : Option Nat) (gang : Bool) : State :=
  s.setFreeing cl (some ⟨none, noLaunch, 16, n, gang, [], [], [], false, wanted, 0⟩)

/-- The sett that the freeing waited for has its outcome: what it gave up has been freed. -/
def State.countFreed (s : State) (cl : Nat) (r : SettReq) : SettReq :=
  if !r.waits.isEmpty then r
  else { r with
    levels := []
    freed := r.levels.foldl (fun n e => n + (e.2 - (match s.sett? cl e.1 with
      | some x => if x.st = .displaced then 0 else x.size
      | none => 0))) r.freed }

/-- The sett to free next: lent ones first, from the lowest granule; then negotiated ones, from the highest; a gang sett is freed in its
turn. Held setts are left. -/
def State.nextToFree (s : State) (cl t : Nat) (r : SettReq) : Option Sett :=
  let xs := s.tenantSetts cl t
  let stores := xs.filter (fun x => !x.gang)
  -- granules that lent setts on their way out will free count as freed
  let left := (stores.filter (fun x => !(x.st == .stripping && x.cls == .lent))).foldl (fun n x => n + x.size) 0
  let lowest := fun (ys : List Sett) => ys.foldl (fun (b : Option Sett) x => match b with
    | none => some x
    | some y => if x.first < y.first then some x else b) none
  let highest := fun (ys : List Sett) => ys.foldl (fun (b : Option Sett) x => match b with
    | none => some x
    | some y => if y.first < x.first then some x else b) none
  let met := match r.seen with | some n => decide (n ≤ r.freed) | none => decide (left ≤ r.n)
  let store := if met then none
    else match lowest (stores.filter (fun x => x.cls == .lent && x.st == .current)) with
      | some x => some x
      | none => highest (stores.filter (fun x => x.cls == .negotiated))
  match store with
  | some x => some x
  | none => if r.gang then xs.find? (fun x => x.gang && x.cls != .held && !(x.cls == .lent && x.st == .stripping)) else none

/-- One turn of the freeing of a cluster: strips of lent setts at once, then one recall, whose outcome it waits for. -/
def State.freeTurn (s : State) (cl t : Nat) : Nat → State
  | 0 => s
  | k + 1 =>
    match s.freeing? cl with
    | none => s
    | some r =>
      if !r.waits.isEmpty then s
      else
        let r := s.countFreed cl r
        match s.nextToFree cl t r with
        | none => s.setFreeing cl (some r)
        | some x =>
          let size := if x.gang then 0 else x.size
          if x.cls = .lent ∧ x.st = .current then ((s.strip cl x.gen 0).setFreeing cl (some { r with freed := r.freed + size })).freeTurn cl t k
          else
            let r := { r with levels := [(x.gen, size)] }
            if x.st = .current ∨ x.st = .surrendering then
              (s.placeRecall cl x none).setFreeing cl (some { r with waits := [(x.gen, s.serial)] })
            else s.setFreeing cl (some { r with waits := [(x.gen, 0)] })

/-- Has a cluster nothing left to do? -/
def State.freed (s : State) (cl t : Nat) : Bool :=
  match s.freeing? cl with
  | none => true
  | some r => r.waits.isEmpty && (s.nextToFree cl t r).isNone &&
      !(s.tenantSetts cl t).any (fun x => x.cls == .lent && x.st == .stripping && (!x.gang || r.gang))

/-- Turn the freeing of a set of clusters; true when all are done. -/
def State.freeAll (s : State) (cls : List Nat) (t : Nat) : State × Bool :=
  let s := cls.foldl (fun s cl => s.freeTurn cl t 70) s
  (s, cls.all (fun cl => s.freed cl t))

def State.endFreeing (s : State) (cls : List Nat) : State := cls.foldl (fun s cl => s.setFreeing cl none) s

/-- New quota and gang denied of a tenant. -/
def State.setQuota (s : State) (t q : Nat) (denied : Bool) : State :=
  match Tab.find s.tenants t with
  | some c =>
    let w7 := withBits (withBits (msgWord c.words 7) 6 0 q) 8 8 (boolNat denied)
    { s with tenants := Tab.set s.tenants t { c with words := c.words.set 7 (word w7) } }
  | none => s

/-- QUOTA_CHANGE (R381). -/
def State.serveQuota (s : State) (r a : Nat) (w : List Nat) : State :=
  let t := reqTenant r w
  let w1 := w.getD 1 0
  let s := s.setQuota t (bitsOf w1 6 0) (bitOf w1 8)
  let q := ctxQuota (s.ctx t)
  let cls := s.partition t
  let s := cls.foldl (fun s cl => if (s.freeing? cl).isSome then s else s.startFreeing cl q none (bitOf w1 8)) s
  let o := s.freeAll cls t
  if o.2 then
    let above := cls.foldl (fun n cl => n + (o.1.tenantGranules cl t - q)) 0
    (o.1.endFreeing cls).ringDone r a (above % 65536)
  else o.1
def execQuotaChange (r : Nat) (s : State) : Out := done (s.serve r [5] (fun a w => s.serveQuota r a w))

/-- RECLAIM (R381). -/
def State.serveReclaim (s : State) (r a : Nat) (w : List Nat) : State :=
  let t := reqTenant r w
  let w1 := w.getD 1 0
  let n := bitsOf w1 22 16
  let cls := if bitOf w1 11 then s.partition t else [bitsOf w1 10 0]
  if n = 0 ∨ 64 < n ∨ !cls.all (ctxHolds (s.ctx t)) then s.ringDone r a 0xFFFF
  else
    let s := cls.foldl (fun s cl => if (s.freeing? cl).isSome then s
      else s.startFreeing cl 0 (some n) (bitOf w1 23)) s
    let o := s.freeAll cls t
    if o.2 then
      let freed := cls.foldl (fun m cl => m + (match o.1.freeing? cl with | some x => x.freed | none => 0)) 0
      (o.1.endFreeing cls).ringDone r a (freed % 65536)
    else o.1
def execReclaim (r : Nat) (s : State) : Out := done (s.serve r [6] (fun a w => s.serveReclaim r a w))

/-! ### Context loads (R376, R378) -/

/-- Reserved bits and ranges of a record (R376). -/
def recordReserved (c : List Word) : Bool :=
  let w := msgWord c
  let f := bitsOf (w 4) 4 0
  bitsOf (w 0) 61 52 != 0 || bitsOf (w 0) 47 28 != 0 || bitsOf (w 0) 15 11 != 0 || bitsOf (w 1) 11 1 != 0 || bitsOf (w 2) 11 1 != 0 ||
    bitsOf (w 3) 7 0 != 0 || bitsOf (w 4) 11 5 != 0 || bitsOf (w 5) 63 27 != 0 || bitsOf (w 5) 15 0 != 0 || bitsOf (w 6) 15 5 != 0 ||
    bitsOf (w 7) 63 9 != 0 || bitOf (w 7) 7 || decide (64 < bitsOf (w 7) 6 0) || (f != 0 && (decide (f < 4) || decide (16 < f))) ||
    (ringNamed (w 6)).isNone || decide (2048 < ctxCount c) || decide (2048 < ctxFirst c + ctxCount c)

/-- Is a load skipped (R376, R378, R419)? It may neither share a cluster with another enabled tenant nor name one out of service, and no
cluster that it takes, from its own tenant or from another, may hold a launch that has not ended or a context. -/
def State.loadSkipped (s : State) (t : Nat) (c : List Word) : Bool :=
  let old := s.partition t
  let new := (List.range (ctxCount c)).map (ctxFirst c + ·)
  let clash := ctxEnable c && s.tenants.any (fun e => e.1 != t && ctxEnable e.2.words && ctxCount c != 0 && ctxCount e.2.words != 0 &&
    decide (ctxFirst e.2.words < ctxFirst c + ctxCount c) && decide (ctxFirst c < ctxFirst e.2.words + ctxCount e.2.words))
  let taken := old.filter (fun cl => !new.contains cl) ++ new.filter (fun cl => !old.contains cl)
  recordReserved c || clash || new.any (fun cl => Tab.get 0 s.clusterState cl == 2) || taken.any (fun cl =>
    s.launches.any (fun e => e.2.inField cl) || (s.cluster cl).context.isSome || s.saved.any (fun e => (Tab.find e.2.clusters cl).isSome))

/-- A cluster changes hands or is reset: nothing of what it held remains (R378). -/
def State.zeroCluster (s : State) (cl : Nat) (owner : Option Nat) : State :=
  let s := (coresOf cl).foldl (fun s c => (s.wipe (poolAt c 0) 98304).modCore c (fun k => { (Core.initial.keep k) with halted := false })) s
  (s.wipe (storeAt cl 0) 524288).modCluster cl (fun k => { Cluster.initial with acquisitions := k.acquisitions, tenant := owner })

/-- The boundaries of a µs that have passed since the buckets were refilled refill them (R425). -/
def State.refill (s : State) : State :=
  let n := s.now / 1000 - s.refilled
  let one := fun (k : Cluster) => match k.tenant with
    | some t => if s.rate t = 0 then k else { k with bucket := min (s.burst t : Int) (k.bucket + (n * s.rate t : Nat)) }
    | none => k
  { s with refilled := s.now / 1000, clusters := s.clusters.map (fun e => (e.1, one e.2)) }

/-- The next refill, while some tenant's rate is limited. -/
def State.refillTimer (s : State) : State :=
  if s.tenants.any (fun e => s.rate e.1 != 0) && !s.timers.any (fun x => x.2 == .tokenBucketRefill) then
    s.timerNs ((s.now / 1000 + 1) * 1000) .tokenBucketRefill
  else s

/-- The next rewriting of the congestion tables, while some tenant has peers (R424). -/
def State.congestionTimer (s : State) : State :=
  if s.tenants.any (fun e => bitsOf (msgWord e.2.transport 1) 15 0 != 0) && !s.timers.any (fun x => x.2 == .congestionTableUpdate) then
    s.timerNs ((s.now / 1000 + 1) * 1000) .congestionTableUpdate
  else s

/-- The transport configuration that takes effect with a load (R422): one with a reserved bit set is refused, and the former one stays (log
109). -/
def State.newTransport (s : State) (t : Nat) : List Word :=
  let ws := (List.range 8).map (fun i => s.wordAt (fabricAt (0x9000 + 64 * t + 8 * i)))
  let w := msgWord ws
  if bitsOf (w 0) 7 0 != 0 || bitsOf (w 1) 63 16 != 0 || [4, 5, 6, 7].any (fun i => w i != 0) then
    ((Tab.find s.tenants t).map (·.transport)).getD []
  else ws

/-- Apply a record, but for the words that its end brings. -/
def State.applyContext (s : State) (t : Nat) (c : List Word) : State :=
  let s := s.refill
  let old := s.partition t
  let new := (List.range (ctxCount c)).map (ctxFirst c + ·)
  let was := msgWord (s.ctx t)
  let transport := s.newTransport t
  let held := (word (msgWord c 3), word (msgWord c 6))
  let c := (c.set 3 (word (was 3))).set 6 (word (was 6))
  let s := (old.filter (fun cl => !new.contains cl)).foldl (fun s cl => s.zeroCluster cl none) s
  let s := (new.filter (fun cl => !old.contains cl)).foldl (fun s cl => s.zeroCluster cl (some t)) s
  let s := { s with tenants := Tab.set s.tenants t ⟨c, transport, some held⟩ }
  new.foldl (fun s cl =>
    let s := s.modCluster cl (fun k => if old.contains cl then k else { k with bucket := (s.burst t : Int) })
    (coresOf cl).foldl (fun s k => s.modCore k (fun k => { k with
      tenant := word t
      featallow := word (ctxFeatures c)
      permbase := word (ctxPerm c) })) s) s.refillTimer.congestionTimer

/-- The end of a load: the permission table and the request ring of the record stand from now on (R380, R393). -/
def State.loadEnds (s : State) (t : Nat) : State :=
  match Tab.find s.tenants t with
  | some ⟨c, transport, some (w3, w6)⟩ =>
    let c := (c.set 3 w3).set 6 w6
    let s := { s with tenants := Tab.set s.tenants t ⟨c, transport, none⟩ }
    (s.partitionCores t).foldl (fun s k => s.modCore k (fun k => { k with permbase := word (ctxPerm c) })) s
  | _ => s

/-- CONTEXT_LOAD (R380): the record applies once, granules are freed where the load asks for it, then the tenant's translations go, and C
passes in the ring that held the entry. -/
def State.serveLoad (s : State) (r a : Nat) (w : List Nat) : State :=
  let t := reqTenant r w
  let c := s.contextRecord t
  let goes := s.clusters.any (fun e => e.2.requests.any isFreeing)
  if !s.serving then s
  else if !goes && s.loadSkipped t c then s.ringDone r a 0
  else
    let base := ((s.ringOf r).map (·.1)).getD 0
    let s := if goes then s
      else
        let q := ctxQuota (s.ctx t)
        let denied := ctxGangDenied (s.ctx t)
        let s := s.applyContext t c
        if ctxQuota c < q ∨ (ctxGangDenied c ∧ !denied) then
          (s.partition t).foldl (fun s cl => s.startFreeing cl (ctxQuota c) none (ctxGangDenied c)) s
        else s
    let cls := s.partition t
    let o := s.freeAll cls t
    if o.2 then
      (((((o.1.endFreeing cls).invalidate 1 1 t 0).invalidate 1 2 t 0).ringDoneAt r base a 0).loadEnds t).retryPlacements
    else o.1
def execContextLoad (r : Nat) (s : State) : Out := done (s.serve r [3] (fun a w => s.serveLoad r a w))

/-! ### The second-stage ring (R388) -/

/-- SECOND_STAGE_RECORD_MOVE (R388): the oldest record enters the ring where it has room; records that stayed in their NIs are offered
again. -/
def execSecondStageRecordMove (s : State) : Out :=
  let place := fun (i : Nat) => some (controlAt i)
  match s.stage2Queue with
  | x :: rest =>
    if s.ringRoom place 512 then
      let o := ({ s with stage2Queue := rest }).postRing place 512 x.words
      let s := if o.2 then { o.1 with msix := o.1.msix ++ [(0, bitsOf (msgWord (o.1.ctx 0) 5) 26 16)] } else o.1
      let s := s.offerHeld
      done (if s.stage2Queue.isEmpty then s else s.post .secondStageRecordMove)
    else done s
  | [] => done s

/-! ### Reset of a tenant (R391, R392) -/

/-- Is a request of a ring being served over several steps: only tenant 0's ring has such requests? -/
def State.ringBusy (s : State) (r : Nat) : Bool :=
  r == 0 && (s.resets.any (·.byRing) || s.clusters.any (fun e => e.2.requests.any isFreeing))

/-- The reset of tenant t begins: mailboxes and rings stop, its requests are discarded, and cause 5 goes to its cores. Quiescence is cut
off at the resident entry's latency limit, or after 100 ms without one (DESIGN CHOICE, log 55). -/
def State.beginReset (s : State) (t : Nat) : State :=
  let mine := fun (k : Nat) => k / 64 == t
  let s : State := { s with
    mailboxes := s.mailboxes.map (fun (e : Nat × Mailbox) => if mine e.1 then (e.1, { e.2 with enable := false }) else e)
    eventRings := s.eventRings.map (fun (e : Nat × EventRing) => if e.1 / 16 == t then (e.1, { e.2 with enable := false }) else e)
    sched := Tab.set s.sched t { s.sched? t with switching := none } }
  -- a request that is being served completes, and the later ones are discarded then (R393)
  let s := match s.ringOf t with
    | some (base, _) =>
      if s.ringBusy t then { s with ringUpTo := Tab.set s.ringUpTo t (s.ringProduced base) }
      else s.land (hbmAt (base + 8)) 8 (s.ringProduced base)
    | none => s
  let limit := match (s.sched? t).resident with
    | some e => s.now + s.latencyOf e
    | none => s.now + 100000000
  let s : State := { s with
    resets := s.resets.map (fun (r : Reset) => if r.tenant == t && !r.begun then { r with begun := true, limitEnd := limit } else r) }
  (s.partitionCores t).foldl (fun s c => s.post (.resetInterrupt c)) s

/-- The live jobs of a tenant's launches, and those that its saved contexts hold for replay. -/
def State.tenantJobs (s : State) (t : Nat) : List Job := s.jobs.filter (fun j => j.tenant == t && !j.isDevice && !j.unfilled)
def State.replayJobs (s : State) (t : Nat) : List Job := (s.saved.filter (fun e => e.2.tenant == t)).flatMap (fun e => e.2.jobs)

/-- Is a reset ready to complete: every core frozen, and its operations landed or cut off? -/
def State.resetReady (s : State) (r : Reset) : Bool :=
  r.begun && (s.partitionCores r.tenant).all (fun c => s.stoppedBy c 5) &&
    ((s.tenantJobs r.tenant).all (fun j => j.waiting.isSome) || decide (r.limitEnd ≤ s.now))

/-- A scatter of which elements are discarded (R392). -/
def Job.scatter (j : Job) : Bool := (j.opcode == 0xA5 || j.opcode == 0xA7) && decide (j.next < j.total)

/-- The record of a launch that a reset ends, written where its page is present (R391 step 5). -/
def State.cancelledRecord (s : State) (t : Nat) (addr : Word) (ws : List Word) : State :=
  match s.place 0 noLaunch t addr 8 1 with
  | .mem a =>
    let s := (List.range 7).foldl (fun s i => s.land (a + 8 * (i + 1)) 8 (ws.getD (i + 1) 0).toNat) s
    s.land a 8 (ws.getD 0 0).toNat
  | _ => s

/-- A live launch of the tenant ends with status 6: what it holds is discarded and counted, in place or in its saved context. -/
def State.resetLaunch (s : State) (l : Launch) : State :=
  let s := s.onContext l (fun s =>
    let s := (s.stopFirings l.number).dropWalkers l.number
    l.cores.foldl (fun s c => if (Tab.find s.cores c).isSome then s.dropWords c l.number else s) s)
  let l := ((s.launch? l.number).getD l)
  let s := s.cancelledRecord l.tenant l.crec (recordHead 6 0 0 :: s.recordTail { l with status := 6 })
  { s with launches := Tab.erase s.launches l.number, retired := s.retired ++ [l.number] }

/-- A launch still in a queue ends with status 6. -/
def State.resetQueued (s : State) (m : Queued) : State :=
  s.cancelledRecord m.fn m.crec (recordHead 6 0 0 :: word s.now :: List.replicate 6 0)

/-- A launch that was never placed and whose record is still to be written ends with status 6. -/
def State.resetUnplaced (s : State) (j : Job) : State :=
  s.cancelledRecord j.tenant (recInfoOf j.run).addr (recordHead 6 0 0 :: word s.now :: List.replicate 6 0)
/-- The writes of such records. -/
def State.unplacedRecords (s : State) (t : Nat) : List Job :=
  s.jobs.filter (fun j => j.tenant == t && j.opcode == jobRecord && (recInfoOf j.run).what == RecordOf.unplaced)

/-- The reset record (R392): words 1 to 7, then word 0. -/
def State.resetRecord (s : State) (t replays launches : Nat) (scatters : List Job) : State :=
  let a := controlAt (0x7000 + 64 * t)
  let n := (Tab.get 0 s.resetCounts t + 1) % 2 ^ 32
  let lost := min (scatters.foldl (fun m j => m + (j.total - j.next)) 0) (2 ^ 32 - 1)
  let w3 := match scatters with
    | j :: _ => j.core % 8 * 2 ^ 19 + clusterOf j.core * 2 ^ 8 + j.opcode
    | [] => 0
  let bar := match scatters with
    | j :: _ => j.barAddr.toNat
    | [] => 0
  let ws := [min replays (2 ^ 32 - 1) * 2 ^ 32 + launches % 2 ^ 32, lost * 2 ^ 32 + scatters.length % 2 ^ 32, w3, bar, 0, 0, 0]
  let s := (List.range 7).foldl (fun s i => s.land (a + 8 * (i + 1)) 8 (ws.getD i 0)) s
  let s := s.land a 8 (n * 2 ^ 32 + boolNat (!scatters.isEmpty) * 2 + 1)
  { s with resetCounts := Tab.set s.resetCounts t n }

/-- Steps 3 to 7 of a reset. -/
def State.completeReset (s : State) (r : Reset) : State :=
  let t := r.tenant
  let running := (s.tenantJobs t).filter (fun j => j.waiting.isNone)
  let all := s.tenantJobs t ++ s.replayJobs t
  let scatters := all.filter Job.scatter
  -- a journal entry is never a replay entry (R401)
  let replays := ((running ++ s.replayJobs t).filter (fun j => j.journal.isNone)).length
  let live := (s.launches.map (·.2)).filter (fun l => l.tenant == t)
  let queued := s.queues.flatMap (fun e => e.2.filter (fun m => m.fn == t))
  let unplaced := s.unplacedRecords t
  let s := live.foldl (fun s l => s.resetLaunch l) s
  let s := unplaced.foldl (fun s j => s.resetUnplaced j) (queued.foldl (fun s m => s.resetQueued m) s)
  let s : State := { s with
    stage2Queue := s.stage2Queue.filter (fun x => x.tenant != t)
    niHeld := s.niHeld.filter (fun x => x.tenant != t)
    queues := s.queues.map (fun (e : Nat × List Queued) => (e.1, e.2.filter (fun (m : Queued) => m.fn != t)))
    posted := s.posted.filter (fun i => (match s.job? i with | some j => j.tenant != t | none => false))
    jobs := s.jobs.filter (fun j => j.tenant != t)
    saved := s.saved.filter (fun e => e.2.tenant != t)
    heldAreas := s.heldAreas.filter (fun x => x.1 != 960 + t && !(List.range 960).any (fun e => x.1 == e && bitsOf (s.entryWord e 0) 22 16 == t)) }
  -- every entry of the tenant: valid 0, saved, and no launch's deadline or feature (R410)
  let s := (List.range 960).foldl (fun s e =>
    if bitsOf (s.entryWord e 0) 22 16 = t then
      ((s.poke (entryAt e) 8 (withBits (withBits (s.entryWord e 0) 63 60 0) 51 48 0)).poke (entryAt e + 32) 8 0).poke (entryAt e + 48) 8 0
    else s) s
  let s := s.setSched t Sched.initial
  let s := (s.partition t).foldl (fun s cl => s.zeroCluster cl (some t)) s
  let s : State := { (s.invalidate 1 1 t 0).invalidate 1 2 t 0 with resets := s.resets.erase r }
  let s := s.resetRecord t replays (live.length + queued.length + unplaced.length) scatters
  let s := s.queues.foldl (fun s e => s.queueAdvance e.1) s
  (s.offerHeld.retryPlacements).post .launchNumberRelease

/-- The first reset in order: begun if it has not, completed when it can be (R393: one after the other). -/
def State.resetTurn (s : State) (byRing : Bool) : State × Bool :=
  match s.resets with
  | r :: _ =>
    if r.byRing ≠ byRing then (s, false)
    else if !r.begun then (s.beginReset r.tenant, false)
    else if s.resetReady r then (s.completeReset r, true)
    else (s, false)
  | [] => (s, false)

/-- TENANT_RESET (R380, R391): the request stands in its ring until the reset is complete. -/
def execTenantReset (r : Nat) (s : State) : Out := done (s.serve r [4] (fun a w =>
  let t := reqTenant r w
  let s : State := if s.resets.any (·.byRing) then s else { s with resets := s.resets ++ [(⟨t, true, false, 0⟩ : Reset)] }
  let o := s.resetTurn true
  if o.2 then o.1.ringDone r a 0 else o.1))

/-- FUNCTION_LEVEL_RESET (R391): the reset of a function's tenant is asked for, begins, or completes. -/
def execFunctionLevelReset (s : State) : Out :=
  let s : State := match s.input with
    | .functionReset t => if t ≤ 64 then { s with resets := s.resets ++ [(⟨t, false, false, 0⟩ : Reset)] } else s
    | _ => s
  done (s.resetTurn false).1

end Sys2Proof.Machine
end

