-- ==== Sys2Proof/Machine/Fabric.lean ====
section
/-! DEFINITION. Routers and links (R411 to R420), Ultra Ethernet ports and transport packets (R420 to R424), and token buckets (R425). -/

namespace Sys2Proof.Machine

/-! ### The words of the fabric page (R411, R413, R414) -/

/-- Lane groups of port j of router x: the router's own port is global or, on router 15, the boundary port. -/
def portLanes (x j : Nat) : Nat := if j = x % 16 then 16 else 4
def State.portWord (s : State) (x j : Nat) : Nat :=
  (Tab.get (word ((2 ^ portLanes x j - 1) * 2 ^ 16)) s.ports (16 * x + j)).toNat
def State.routerWord (s : State) (x : Nat) : Nat := (Tab.get 0x800 s.routers x).toNat

/-- The device writes a state word, and shows it in the fabric page. -/
def State.setPort (s : State) (x j w : Nat) : State :=
  { s with ports := Tab.set s.ports (16 * x + j) (word w) }.land (fabricAt (0x1000 + 128 * x + 8 * j)) 8 w
def State.setRouter (s : State) (x w : Nat) : State :=
  { s with routers := Tab.set s.routers x (word w) }.land (fabricAt (0x100 + 8 * x)) 8 w
def State.setClusterState (s : State) (c b : Nat) : State :=
  { s with clusterState := Tab.set s.clusterState c b }.poke (fabricAt (0xC000 + c)) 1 b

/-- The far end of the link at port j of router x: router and port; a boundary port has none here (R412). -/
def farEnd (x j : Nat) : Option (Nat × Nat) :=
  let q := x / 16
  let i := x % 16
  if j ≠ i then some (16 * q + j, i)
  else if i ≤ 14 then some (16 * ((q + i + 1) % 16) + 14 - i, 14 - i)
  else none
/-- The word of a link's near end; lanes, width and state are the link's and stand at both ends, each end having its own counters (R414; DEDUCED,
log 98). -/
def State.setLink (s : State) (x j w : Nat) : State :=
  let s := s.setPort x j w
  match farEnd x j with
  | some (y, k) => s.setPort y k (s.portWord y k / 2 ^ 32 * 2 ^ 32 + w % 2 ^ 32)
  | none => s

/-- The fabric page as the device's words make it. -/
def State.showFabric (s : State) : State :=
  let s := s.land (fabricAt 0) 8 s.fabricControl.toNat
  let s := (List.range 256).foldl (fun s x =>
    (List.range 16).foldl (fun s j => s.setPort x j (s.portWord x j)) (s.setRouter x (s.routerWord x))) s
  (List.range 2048).foldl (fun s c => s.setClusterState c (Tab.get 0 s.clusterState c)) s

/-- A fabric event, to event ring 0 of tenant 0 (R420). -/
def State.fabricEvent (s : State) (kind w2 w3 : Nat) : State := s.postEvent 0 0 kind 0x0C02 (word w2) (word w3)

/-! ### Links (R414 to R416) -/

def portGood (w : Nat) : Nat := bitsOf w 31 16
def portWidth (w : Nat) : Nat := bitsOf w 5 4
def portNarrowed (w : Nat) : Bool := bitOf w 3
def portState (w : Nat) : Nat := bitsOf w 2 0
def popcount16 (x : Nat) : Nat := ((List.range 16).filter (fun i => x.testBit i)).length

/-- The widest width that n good lane groups of m can fill: 0 full, 1 half, 2 quarter; none below a quarter. -/
def widest (m n : Nat) : Option Nat := if m ≤ n then some 0 else if m / 2 ≤ n then some 1 else if m / 4 ≤ n then some 2 else none

/-- A saturating count of 16 bits. -/
def sat16 (x n : Nat) : Nat := min (x + n) 65535

/-- The keys of a link's ends. -/
def linkKeys (x j : Nat) : List Nat := (16 * x + j) :: (match farEnd x j with | some (y, k) => [16 * y + k] | none => [])
/-- A link renegotiates to a width, for 200 fabric clocks at most. -/
def State.renegotiate (s : State) (x j width : Nat) : State :=
  let s := s.setLink x j (withBits (withBits (s.portWord x j) 5 4 width) 2 0 1)
  let s := { s with renegotiating := Tab.set s.renegotiating (16 * x + j) (s.clock + 400) }
  s.timer (s.clock + 400) .renegotiationEnd
/-- A link renegotiates no more: it is up, where it is not down. -/
def State.settled (s : State) (x j : Nat) : State :=
  let s := if portState (s.portWord x j) = 1 then s.setLink x j (withBits (s.portWord x j) 2 0 0) else s
  { s with renegotiating := (linkKeys x j).foldl (fun t k => Tab.erase t k) s.renegotiating }

/-- A lane group has a lasting fault (R415): its bit clears, and the link narrows or goes down. The event names the end that met it (DEDUCED,
log 98). -/
def State.laneLost (s : State) (x j lane : Nat) : State :=
  let w := withBits (s.portWord x j) (16 + lane) (16 + lane) 0
  match widest (portLanes x j) (popcount16 (portGood w)) with
  | some width =>
    let s := (s.setLink x j (withBits w 3 3 1)).renegotiate x j width
    s.fabricEvent 0x0060 (j * 256 + x) (s.portWord x j)
  | none =>
    let s := (s.setLink x j (withBits (withBits w 3 3 1) 2 0 2)).settled x j
    s.fabricEvent 0x0061 (j * 256 + x) (s.portWord x j)

/-- FLIT_CRC_FAILURE (R415): the flit is replayed; where the input says that its replay fails, all three replays of it have failed. -/
def State.crcFailure (s : State) (x j lane : Nat) (replayOk : Bool) : State :=
  let w := s.portWord x j
  if 256 ≤ x ∨ 16 ≤ j ∨ 2 ≤ portState w ∨ !(portGood w).testBit lane then s
  else
    let fails := if replayOk then 1 else 4
    let replays := if replayOk then 1 else 3
    let s := s.setPort x j (withBits (withBits w 63 48 (sat16 (bitsOf w 63 48) fails)) 47 32 (sat16 (bitsOf w 47 32) replays))
    let recent := s.laneFaults.filter (fun f => decide (s.now < f.2.2.2 + 1000000))
    let s : State := { s with
      laneFaults := recent ++ List.replicate fails (x, j, lane, s.now)
      health := { s.health with replays := s.health.replays + replays } }
    let count := (s.laneFaults.filter (fun f => (linkKeys x j).contains (16 * f.1 + f.2.1) && f.2.2.1 == lane)).length
    if !replayOk ∨ 16 ≤ count then s.laneLost x j lane else s
def execFlitCrcFailure (s : State) : Out :=
  match s.input with
  | .flitCrc r p lane ok => done (s.crcFailure r p lane ok)
  | _ => done s

/-- The flits that a link carries in 10 µs at its width, in one direction: one for each lane group in each fabric clock (R414; DEDUCED, log
98). -/
def State.linkCapacity (s : State) (x j : Nat) : Nat := portLanes x j / 2 ^ portWidth (s.portWord x j) * (10000 * s.perNs / 2)

/-- POWER_NARROWING (R416): of a link that is up, not fault narrowed, and not at quarter width, with narrowing on, when it has carried fewer than
one eighth of its capacity for 10 µs. -/
def execPowerNarrowing (s : State) : Out :=
  match s.input with
  | .narrowing r p flits =>
    let w := s.portWord r p
    if r < 256 ∧ p < 16 ∧ s.fabricControl.getLsbD 0 = true ∧ portNarrowed w = false ∧ portState w = 0 ∧ portWidth w < 2 ∧
        8 * flits < s.linkCapacity r p then
      done (s.renegotiate r p (portWidth w + 1))
    else done s
  | _ => done s

/-- LINK_WIDENING (R416): up to the width that the good lanes allow, once a queue at either end holds 32 flits. -/
def execLinkWidening (s : State) : Out :=
  match s.input with
  | .widening r p queued =>
    let w := s.portWord r p
    match widest (portLanes r p) (popcount16 (portGood w)) with
    | some best =>
      if r < 256 ∧ p < 16 ∧ portState w = 0 ∧ best < portWidth w ∧ 32 ≤ queued then done (s.renegotiate r p (portWidth w - 1)) else done s
    | none => done s
  | _ => done s

/-- RENEGOTIATION_END (R416): of the link that the input names, or of those whose 200 fabric clocks have passed. -/
def execRenegotiationEnd (s : State) : Out :=
  match s.input with
  | .renegotiated r p => done (if r < 256 ∧ p < 16 ∧ portState (s.portWord r p) = 1 then s.settled r p else s)
  | _ => done ((s.renegotiating.filter (fun e => decide (e.2 ≤ s.clock))).foldl (fun s e => s.settled (e.1 / 16) (e.1 % 16)) s)

/-! ### Routers (R419) -/

/-- The n-th bit that a free value gives. -/
def freeBit (x : Word) (n : Nat) : Bool := x.toNat.testBit (n % 64)

/-- A router leaves service: its clusters too; requests that crossed it, a free choice among the jobs in flight (log 17), are held for
their second sending; and launches that hold its cores are cancelled. -/
def State.loseRouter (s : State) (r : Nat) : State :=
  let s := s.setRouter r (withBits (withBits (s.routerWord r) 15 8 0) 7 0 1)
  let s := (List.range 8).foldl (fun s i => s.setClusterState (8 * r + i) 2) s
  let s := s.fabricEvent 0x0062 r (s.routerWord r)
  let x := s.free
  let s : State := { s.drew with jobs := s.jobs.map (fun (j : Job) => if j.started && !j.isDevice && freeBit x j.id then { j with resendAt := some (s.now + 50000) } else j) }
  let s := s.timerNs (s.now + 50000) .requestResend
  let hit := (s.launches.map (·.2)).filter (fun l => (List.range 8).any (fun i => l.inField (8 * r + i)))
  hit.foldl (fun s l => if l.status = 6 then s else s.cancelLive l) s

/-- ROUTER_FAILURE (R419). -/
def execRouterFailure (s : State) : Out :=
  match s.input with
  | .routerFailure r => if r < 256 ∧ bitsOf (s.routerWord r) 7 0 = 0 then done (s.loseRouter r) else done s
  | _ => done s

/-- REQUEST_RESEND (R419): requests whose 50 µs have passed are sent again, and each takes effect once. -/
def execRequestResend (s : State) : Out :=
  let due := fun (j : Job) => match j.resendAt with | some t => decide (t ≤ s.now) | none => false
  let held := s.jobs.filter due
  let s : State := { s with jobs := s.jobs.map (fun (j : Job) => if due j then { j with resendAt := none } else j) }
  done (held.foldl (fun s j => s.post (.jobPieceLand j.id)) s)

/-! ### Ultra Ethernet ports and packets (R420 to R424) -/

/-- Packets that waited for a port leave, and transport commands go on. -/
def State.retryTransport (s : State) : State :=
  (s.jobs.filter (fun j => j.opcode == 0xAC || j.opcode == 0xAE)).foldl (fun s j => s.post (.jobPieceLand j.id)) s.sendWaiting

/-- UE_PORT_STATE_CHANGE (R420). -/
def execUePortStateChange (s : State) : Out :=
  match s.input with
  | .uePort p up =>
    if p < 16 ∧ Tab.get false s.uePorts p ≠ up then
      let s : State := { s with uePorts := Tab.set s.uePorts p up }
      let s := s.fabricEvent 0x0063 p (boolNat up)
      done (if up then s.retryTransport else s)
    else done s
  | _ => done s

/-- The tenant that the receive job table gives for a job: the lowest valid entry. -/
def State.receiver (s : State) (job : Nat) : Option Nat :=
  let w := fun i => (s.wordAt (fabricAt (0xB000 + 16 * i))).toNat
  ((List.range 64).find? (fun i => bitOf (w i) 63 && bitsOf (w i) 23 0 == job)).map (fun i => bitsOf (w i) 62 56)

/-- A packet's bytes as a number. -/
def bytesNum : List Byte → Nat
  | [] => 0
  | b :: bs => b.toNat + 256 * bytesNum bs

/-- A placement job: address, barrier, buffer, the peer's job, whether it is told, and the peer's number of the packet; as the launch of the
buffer where there is one. -/
def State.addPlacement (s : State) (t : Nat) (b : Option Job) (addr bar : Word) (peer : Nat) (told : Bool) (num : Nat) (bs : List Byte) : State :=
  s.addJob { Job.blank with
    opcode := jobLand
    run := [addr, bar, word (match b with | some x => x.id + 1 | none => 0), word peer, word (boolNat told), word num]
    core := (b.map (·.core)).getD 0
    launch := (b.map (·.launch)).getD noLaunch
    tenant := t
    declared := bs.length
    total := 1
    data := Mem.writeN [] 0 bs.length (bytesNum bs) }

/-- A packet without bytes that answers one of a peer's job. -/
def answerTo (job num : Nat) (kind : SentKind) : Sent where
  job := job
  peer := 0
  kind := kind
  addr := 0
  len := 0
  off := num
  n := 0
  data := 0
  entry := []
  port := none
  entropy := 0

/-- Has a packet come before (R426)? One that landed is acknowledged again, and one that is being placed goes on. -/
def State.seenPacket (s : State) (job num : Nat) : Option State :=
  if s.gotPackets.contains (job, num) then some (s.sendPacket (answerTo job num .ack))
  else if s.jobs.any (fun j => j.opcode == jobLand && rn j.run 3 == job && rn j.run 4 == 1 && rn j.run 5 == num) then some s
  else none

/-- The buffer for a piece of a message: the one that the message fills, if it lacks the piece, else the oldest that a tenant's launches have
posted for its tag and length and that no message has begun to fill (R274, R406). -/
def State.bufferFor (s : State) (t : Nat) (message : Nat × Nat) (tag : Word) (len off : Nat) : Option Job :=
  let bs := (s.posted.filterMap s.job?).filter (fun b => b.tenant == t && rw b.run 2 == tag && rn b.run 1 == len)
  match bs.find? (fun b => b.filler == some message) with
  | some b => if b.landed.contains off then none else some b
  | none => bs.find? (fun b => b.filler.isNone)

/-- Has a transport command asked for, or sent, a piece of n bytes at an offset that has not come through? -/
def Job.awaits (j : Job) (op off n : Nat) : Bool :=
  j.opcode == op && j.started && !j.landed.contains off && (List.range j.next).any (fun i => j.messagePiece i == (off, n))

/-- TRANSPORT_PACKET_ARRIVAL (R274, R423). -/
def State.packetArrives (s : State) (x : Packet) : State :=
  match x with
  | .write job num addr bs bar => match s.receiver job, s.seenPacket job num with
    | none, _ => s
    | some _, some s => s
    | some t, none => s.addPlacement t none addr bar job true num bs
  | .tagged job num msg tag len off bs => match s.receiver job, s.seenPacket job num with
    | none, _ => s
    | some _, some s => s
    | some t, none => match s.bufferFor t (job, msg) tag len off with
      | some b =>
        let b := { b with unfilled := false, filler := some (job, msg), started := true, landed := b.landed ++ [off] }
        (s.setJob b).addPlacement t (some b) (rw b.run 0 + word off) 0 job true num bs
      | none => s.sendPacket (answerTo job num .refusal)
  | .ack j off n => match s.job? j with
    | some b =>
      if b.awaits 0xAC off n = false then s
      else
        let b := { b with landed := b.landed ++ [off] }
        if b.total ≤ b.next ∧ s.messageMoved b = true then s.finishJob b
        else (s.arriveFor b n 0).setJob { b with arrived := b.arrived + n }
    | none => s
  | .credit j n => match s.job? j with
    | some b => if b.opcode = 0xAC then (s.setJob { b with credit := some (b.credit.getD 0 + n) }).post (.jobPieceLand j) else s
    | none => s
  | .refuse j => match s.job? j with
    | some b => if (b.opcode = 0xAC ∨ b.opcode = 0xAE) ∧ b.started = true then s.finishJob { b with refused := true } else s
    | none => s
  | .data j off bs => match s.job? j with
    | some b =>
      if b.awaits 0xAE off bs.length then
        let b := { b with landed := b.landed ++ [off] }
        (s.setJob b).addPlacement b.tenant (some b) (rw b.run 2 + word off) 0 0 false off bs
      else s
    | none => s
  | .read job addr n => match s.receiver job with
    | some t => s.addJob { Job.blank with opcode := jobFetch, run := [addr, word n, 0, word job], tenant := t, total := 1 }
    | none => s
def execTransportPacketArrival (s : State) : Out :=
  match s.input with
  | .packet x => done (s.packetArrives x)
  | _ => done s

/-- Is a packet one of a command of this module, and has its piece not come through? -/
def State.lost (s : State) (x : Sent) : Bool :=
  (match x.kind with
   | .write _ => true
   | .tagged => true
   | .read => true
   | _ => false) &&
    (match s.job? x.job with | some j => !j.landed.contains x.off | none => false)

/-- PACKET_RESEND (R426): a packet of a job that was lost, by its offset, is sent again on a port that is up. -/
def execPacketResend (s : State) : Out :=
  match s.input with
  | .packetLost j off => match s.sent.find? (fun x => x.job == j && x.off == off && s.lost x) with
    | some x => done (s.sendPacket x)
    | none => done s
  | _ => done s

/-- The engine rewrites the entry of a tenant's peer: word 0 before word 1 (R424). -/
def State.writeCongestion (s : State) (t p : Nat) : State :=
  let a := hbmAt (msgWord (((Tab.find s.tenants t).map (·.transport)).getD []) 2 + 16 * p)
  let x := s.congestionOf t p
  (s.land a 8 (x.1 % 2 ^ 32 * 2 ^ 32 + x.2.1 % 2 ^ 32)).land (a + 8) 8 (s.now / 1000 % 2 ^ 48 * 2 ^ 16 + x.2.2 % 2 ^ 16)
def State.peers (s : State) (t : Nat) : Nat := bitsOf (msgWord (((Tab.find s.tenants t).map (·.transport)).getD []) 1) 15 0

/-- CONGESTION_TABLE_UPDATE (R424): the engine's state for a peer is as the input says (log 139), and every µs each entry is rewritten. -/
def execCongestionTableUpdate (s : State) : Out :=
  match s.input with
  | .congestion t p rtt win marked =>
    done (if p < s.peers t then ({ s with congestion := Tab.set s.congestion (65536 * t + p) (rtt, win, marked) } : State).writeCongestion t p else s)
  | _ =>
    done ((Tab.keys s.tenants).foldl (fun (s : State) t => (List.range (s.peers t)).foldl (fun s p => s.writeCongestion t p) s) s).congestionTimer

/-- TOKEN_BUCKET_REFILL (R425): what an empty bucket held may leave. -/
def execTokenBucketRefill (s : State) : Out :=
  let s := s.refill.refillTimer
  let s := (s.jobs.filter (fun j => !j.isDevice && !j.started && !j.unfilled)).foldl (fun s j => s.post (.jobPieceLand j.id)) s
  done (s.cores.foldl (fun s e => if e.2.outReq.isEmpty then s else s.post (.channelWordArrival e.1 0)) s)

end Sys2Proof.Machine
end

