-- ==== Sys2Proof/Machine/Bringup.lean ====
section
/-! DEFINITION. Firmware slots and markers (R432, R433), the phases of bring-up (R428 to R431), the bring-up block's registers and
commands (R427, R434, R436), and the loss of power (R434). -/

namespace Sys2Proof.Machine

/-! ### Bytes -/

/-- The low n bytes of a number, low first. -/
def numBytes (n x : Nat) : List Byte := (List.range n).map (fun i => BitVec.ofNat 8 (x / 2 ^ (8 * i)))
/-- Word i of a list of bytes. -/
def byteWord (bs : List Byte) (i : Nat) : Nat := bytesNum ((bs.drop (8 * i)).take 8)
/-- A list cut or filled with zeros to n bytes. -/
def fit (n : Nat) (bs : List Byte) : List Byte := bs.take n ++ List.replicate (n - bs.length) 0
/-- n bytes of device memory. -/
def State.grab (s : State) (a n : Nat) : List Byte := (List.range n).map (fun i => s.mem.read (hbmAt (a + i)))
/-- Put bytes one after another into device memory. -/
def State.lay (s : State) (a : Nat) (bs : List Byte) : State := s.land (hbmAt a) bs.length (bytesNum bs)

/-! ### Slots and markers (R432) -/

/-- The header and image that a slot's signature covers. -/
def slotBody (img : List Byte) : List Byte := img.take (64 + byteWord img 2)

/-- Does a slot image verify? -/
def slotVerifies (img : List Byte) : Bool :=
  let l := byteWord img 2
  decide (64 ≤ img.length) && byteWord img 0 == 0x4C534C53 && [3, 4, 5, 6, 7].all (fun i => byteWord img i == 0) &&
    decide (l ≤ 33554432) && decide (64 + l + 2420 ≤ img.length) && decide (Config.fusedMinimum ≤ byteWord img 1) &&
    Config.signatureVerifies (Config.sha3 (slotBody img)) ((img.drop (64 + l)).take 2420)

/-- Words 0 to 3 of a marker copy as bytes. -/
def markerBytes (m : List Word) : List Byte := (List.range 4).flatMap (fun i => numBytes 8 (msgWord m i))
/-- Words 4 to 7 of a marker copy. -/
def markerDigest (m : List Word) : List Word :=
  let d := (Config.sha3 (markerBytes m)).toNat
  (List.range 4).map (fun i => word (d / 2 ^ (64 * i)))
/-- The marker copy that names a slot with a counter. -/
def markerFor (slot counter : Nat) : List Word :=
  let m := [word 0x4B52414D, word counter, word slot, 0]
  m ++ markerDigest m
/-- Is a marker copy valid? -/
def markerValid (m : List Word) : Bool :=
  m.length == 8 && msgWord m 0 == 0x4B52414D && decide (msgWord m 2 < 2) && msgWord m 3 == 0 && m.drop 4 == markerDigest m

def Flash.slot (f : Flash) (n : Nat) : List Byte := if n = 0 then f.slot0 else f.slot1
def Flash.setSlot (f : Flash) (n : Nat) (img : List Byte) : Flash := if n = 0 then { f with slot0 := img } else { f with slot1 := img }

/-- The valid copies in the order of R433: descending counter, copy 0 first on equal counters. -/
def Flash.markers (f : Flash) : List (List Word) :=
  let a := [f.marker0].filter markerValid
  let b := [f.marker1].filter markerValid
  if msgWord f.marker0 1 < msgWord f.marker1 1 then b ++ a else a ++ b

/-- The slot that boots, and the counter of the marker copy followed, 0 for none (R433). -/
def Flash.choice (f : Flash) : Option (Nat × Nat) :=
  let named := f.markers.map (fun m => (msgWord m 2, msgWord m 1))
  (named ++ ([0, 1].filter (fun s => !named.any (fun x => x.1 == s))).map (fun s => (s, 0))).find? (fun x => slotVerifies (f.slot x.1))

/-- Where step 3 of an update writes: the copy with the lower counter, or copy 1 on a tie; a copy that is not valid stands below all
(DEDUCED, log 58). -/
def Flash.mark (f : Flash) (m : List Word) : Flash :=
  let rank := fun (x : List Word) => if markerValid x then msgWord x 1 + 1 else 0
  if rank f.marker0 < rank f.marker1 then { f with marker0 := m } else { f with marker1 := m }
/-- The counter of the next marker copy: max + 1. -/
def Flash.nextCounter (f : Flash) : Nat := (f.markers.map (fun m => msgWord m 1)).foldl max 0 + 1

/-! ### Phases (R428) -/

/-- New clock rates; device time goes on from where it stands. -/
def State.setClocks (s : State) (core fabric : Nat) : State :=
  let t := s.now
  let s := { s with coreClock := core, fabricClock := fabric }
  { s with timeBase := t - s.clock / s.perNs }

def State.enter (s : State) (p : Nat) : State := { s with bringup := { s.bringup with phase := p } }
def State.fail (s : State) (n : Nat) : State := { s with bringup := { s.bringup with phase := 0xF, failure := n } }
/-- A bring-up event, to event ring 0 of tenant 0. -/
def State.bringupEvent (s : State) (kind w3 : Nat) : State := s.postEvent 0 0 kind 0x0C03 (word s.bringup.phase) (word w3)

/-- Clusters that a lasting SRAM fault takes out of service at a module reset (R443). -/
def State.faultyClusters (s : State) : List Nat := (s.health.lasting.map (fun p => p * 65536)).filterMap (fun a => if isLocal a then some (clusterOfAddr a) else none)

/-- The resident privileged handler's code in a booted slot (R398; log 11). -/
def slotHandler (img : List Byte) : List Byte := Config.handlerCode ((img.drop 64).take (byteWord img 2))

/-- MODULE_RESET (R427, R433): everything is as at reset but flash, the clusters out of service and the spares that were placed; the
booted slot brings the privileged handler. -/
def execModuleReset (s : State) : Out :=
  let z := { State.reset with
    turns := s.turns
    flash := s.flash
    sparesUsed := s.sparesUsed
    freeTick := s.freeTick
    clusterState := s.faultyClusters.foldl (fun t c => Tab.set t c 2) s.clusterState }
  match s.flash.choice with
  | some (slot, counter) =>
    let code := slotHandler (s.flash.slot slot)
    done { z with
      bringup := { z.bringup with phase := 1, slot := slot, counter := word counter }
      privCode := Mem.writeN [] 0 code.length (bytesNum code)
      privLen := code.length }
  | none => done (z.fail 1)

/-- A fused spare goes behind an out-of-service cluster number while its quadrant, which has 2 (R3), has one left (R2, R419). -/
def State.placeSpare (s : State) (cl : Nat) : State :=
  let q := cl / 128
  let used := Tab.get 0 s.sparesUsed q
  if used < 2 then
    { s with sparesUsed := Tab.set s.sparesUsed q (used + 1), clusterState := Tab.set s.clusterState cl 1 }
  else s

/-- The router words of a module whose clusters are as the spares left them: their [15:8] count those in service (R413). -/
def State.countRouters (s : State) : State :=
  let out := (s.clusterState.filter (fun e => e.2 == 2)).map (·.1)
  { s with routers := (out.map (· / 8)).foldl (fun t x =>
      Tab.set t x (word ((8 - (out.filter (fun c => c / 8 == x)).length) * 2 ^ 8))) s.routers }

/-- SELF_TEST_COMPLETE (R428). -/
def execSelfTestComplete (s : State) : Out :=
  if s.bringup.phase = 1 then
    let out := (s.clusterState.filter (fun e => e.2 == 2)).map (·.1)
    done (((out.foldl State.placeSpare s).countRouters.setClocks 2000 1000).enter 2)
  else done s

/-- SELF_TEST_FAILURE (R428): of the SRAM or fabric in phase 1, of the second tier's training in phase 2. -/
def execSelfTestFailure (s : State) : Out :=
  if s.bringup.phase = 1 then done (s.fail 2) else if s.bringup.phase = 2 then done (s.fail 3) else done s

/-- Device time is set once: from the servo if it has locked, by the error that it estimates; else it stands at the board controller's
clock (R429; DEDUCED, log 59). -/
def State.setTime (s : State) : State :=
  if s.servo.state ≠ .freeRunning then { s with timeSet := true, timeBase := s.timeBase - s.servo.err } else { s with timeSet := true }

/-- SECOND_TIER_TRAINED (R428, R429, R440): reduced service begins. -/
def execSecondTierTrained (s : State) : Out :=
  if s.bringup.phase = 2 then
    let s := (s.setTime.enter 3).showFabric
    let s : State := { s with
      bringup := { s.bringup with pages := true }
      health := { s.health with nextTelemetry := s.now + 1000000, corrected := 0, replays := 0, withheld := 0, since := s.now, began := s.now } }
    done (s.timerNs s.health.nextTelemetry .telemetryRecord)
  else done s

/-- HBM_TRAINED (R428, R431 step 1): every resident context is pre-empted. -/
def execHbmTrained (s : State) : Out :=
  if s.bringup.phase = 3 ∧ s.bringup.failed = [] then
    done ((s.enter 4).sched.foldl (fun s e => match (s.sched? e.1).resident with
      | some x => if (s.sched? e.1).switching.isSome then s else s.beginSwitch e.1 x x true
      | none => s) (s.enter 4))
  else done s

/-- HBM_TRAINING_FAILURE (R428): a stack's third failure, told for each stack; reduced service until the next reset. -/
def execHbmTrainingFailure (s : State) : Out :=
  match s.input with
  | .trainingFailure n =>
    if s.bringup.phase = 3 ∧ s.bringup.failed.contains n = false ∧ n < 16 then
      done (({ s with bringup := { s.bringup with failed := s.bringup.failed ++ [n] } } : State).bringupEvent 0x0071 n)
    else done s
  | _ => done s

/-- CLOCK_SWITCH_COMPLETE (R428, R431 steps 2 to 4): once every context is saved. Bytes that home slices served from the carve-out stand
in HBM from now on, under the same addresses. -/
def State.switchReady (s : State) : Bool := s.bringup.phase == 4 && s.sched.all (fun e => e.2.resident.isNone && e.2.switching.isNone)
def execClockSwitchComplete (s : State) : Out :=
  if s.switchReady then
    let s := ((s.setClocks 4000 2000).enter 5).bringupEvent 0x0070 0
    done ((Tab.keys s.tenants).foldl (fun s t => s.post (.sliceBoundary t)) s)
  else done s

/-! ### The bring-up block's registers and commands (R427) -/

/-- A command begins, unless one is busy; commands other than 1 and 2 are refused. The reserved bits [31:4] that a write carries are ignored
(DESIGN CHOICE, log 130). -/
def State.beginCommand (s : State) (v : Word) : State :=
  if s.bringup.result = 1 then s
  else
    let c := bitsOf v.toNat 3 0
    let b := { s.bringup with length := bitsOf v.toNat 63 32, command := c, reason := 0, result := if c = 1 ∨ c = 2 then 1 else 3 }
    let s : State := { s with bringup := b, update := none, attest := false }
    if c = 1 then s.post .updateCommand else if c = 2 then s.post .attestCommand else s

/-- REGISTER_WRITE (R427): the block's words 0 to 7 stand at addresses 0 to 7; any other register stores its value. The registers that set a
function's compatibility region (R371) have no stated address: they come as an input of their own (log 6). -/
def execRegisterWrite (s : State) : Out :=
  match s.input with
  | .registerWrite a v =>
    if a = 5 then done { s with bringup := { s.bringup with operand := v } }
    else if a = 6 then done (s.beginCommand v)
    else if a < 8 then done s
    else done { s with regs := Tab.set s.regs a v }
  | .compatSet f base size => done (if f ≤ 64 ∧ size ≤ 2 ^ 36 then { s with compat := Tab.set s.compat f (base, size) } else s)
  | _ => done s

/-- Byte address of the command buffer. -/
def Bringup.buffer (b : Bringup) : Nat := b.operand.toNat / 4096 * 4096

/-- Has the busy command come to its end, refused or not? -/
def State.commandOver (s : State) : Bool := s.bringup.result == 1 && (s.bringup.reason != 0 || s.update.isSome || s.attest)

/-- UPDATE_COMMAND (R434 step 1): the image is verified; one that fails is refused with reason 1. -/
def execUpdateCommand (s : State) : Out :=
  let b := s.bringup
  if b.result = 1 ∧ b.command = 1 ∧ s.commandOver = false then
    let img := s.grab b.buffer b.length
    if slotVerifies img then done ({ s with update := some img }.post .commandDone)
    else done ({ s with bringup := { b with reason := 1 } }.post .commandDone)
  else done s

/-- The report's parts (R436). -/
def State.reportBody (s : State) : List Byte :=
  let b := s.bringup
  s.grab b.buffer 32 ++ numBytes 8 b.phase ++ numBytes 8 b.counter.toNat ++ numBytes 8 b.slot ++ numBytes 8 Config.fusedMinimum ++
    numBytes 32 (Config.sha3 (slotBody (s.flash.slot b.slot))).toNat ++ numBytes 32 (Config.sha3 Config.identityCertificate).toNat ++
    numBytes 8 s.now
def State.report (s : State) : List Byte :=
  s.reportBody ++ fit 2420 (Config.signReport s.reportBody) ++ fit 1312 Config.identityKey ++ Config.identityCertificate

/-- ATTEST_COMMAND (R436): the report from byte 64; a short buffer is refused with reason 2. -/
def execAttestCommand (s : State) : Out :=
  let b := s.bringup
  if b.result = 1 ∧ b.command = 2 ∧ s.commandOver = false then
    if b.length < 8192 ∨ b.length < 3932 + Config.identityCertificate.length then
      done ({ s with bringup := { b with reason := 2 } }.post .commandDone)
    else done ({ s.lay (b.buffer + 64) s.report with attest := true }.post .commandDone)
  else done s

/-- COMMAND_DONE (R427, R434 steps 2 to 4). -/
def execCommandDone (s : State) : Out :=
  let b := s.bringup
  if s.commandOver = false then done s
  else if b.reason ≠ 0 then done { s with bringup := { b with result := 3 } }
  else
    let other := 1 - b.slot
    let flash := match s.update with
      | some img => (s.flash.setSlot other img).mark (markerFor other s.flash.nextCounter)
      | none => s.flash
    done { s with flash := flash, update := none, attest := false, bringup := { b with result := 2 } }

/-- Flash as power loss leaves it: during an update a free value (log 17) tells whether the slot image was torn, and where, or the marker
copy, which then is not valid. -/
def State.tornFlash (s : State) : Flash :=
  match s.update with
  | none => s.flash
  | some img =>
    let other := 1 - s.bringup.slot
    let k := s.free.toNat / 2
    if s.free.getLsbD 0 then s.flash.setSlot other (img.take k ++ (s.flash.slot other).drop k)
    else (s.flash.setSlot other img).mark []

/-- POWER_LOSS (R434, R439): only flash remains, and what is fused. -/
def execPowerLoss (s : State) : Out :=
  done { State.reset with
    turns := s.turns
    flash := s.tornFlash
    clusterState := s.faultyClusters.foldl (fun t c => Tab.set t c 2) s.clusterState
    sparesUsed := s.sparesUsed
    freeTick := s.freeTick + 1
    health := { State.reset.health with powered := false } }

end Sys2Proof.Machine
end

