-- ==== Sys2Proof/Machine/Health.lean ====
section
/-! DEFINITION. The servo (R136, R137), power and temperature (R437 to R439), telemetry (R440) and memory errors (R442, R443). -/

namespace Sys2Proof.Machine

/-! ### Discipline of device time -/

/-- A signed number of ns as a word. -/
def nsWord (x : Int) : Word := BitVec.ofInt 64 x

/-- Lock lasts while the selected source is heard: a loss is due 4 s after its last message (R137). -/
def Servo.hear (x : Servo) (now : Nat) : Servo := { x with heard := now }
def State.watchSync (s : State) : State := s.timerNs (s.servo.heard + 4000000000) .disciplineLost

/-- The source port: that of the best announced master, the lowest such port (R136; what the data sets' comparison makes of a data set is one
number, log 115). -/
def Servo.selected (x : Servo) : Option Nat :=
  (x.masters.foldl (fun (b : Option (Nat × Nat)) e => match b with
    | none => some e
    | some y => if e.2 < y.2 then some e else b) none).map (·.1)

/-- SERVO_LOCK (R137): the servo has locked to the source that it has selected; after holdover, what the error says is slewed out. -/
def execServoLock (s : State) : Out :=
  match s.input, s.servo.selected with
  | .servoLock err, some p =>
    if s.servo.state = .locked then done s
    else
      let slew := if s.servo.state = .holdover then -err else s.servo.slew
      let x : Servo := { s.servo with state := .locked, port := p, err := err, limitPosted := false, slew := slew, lockedAt := s.now, heard := s.now }
      done ((({ s with servo := x } : State).postAllTenants 0x0031 0x0800 (nsWord err) 0).watchSync)
  | _, _ => done s

/-- In holdover, the estimated error has passed the driver's limit, which is core 0's HOLDLIMIT (DEDUCED, log 60): told once (R137). -/
def State.checkHoldover (s : State) : State :=
  if s.servo.state = .holdover ∧ s.servo.limitPosted = false ∧ 1000 * (s.core 0).holdlimit.toNat < s.servo.err.natAbs then
    ({ s with servo := { s.servo with limitPosted := true } } : State).postAllTenants 0x0032 0x0800 (nsWord s.servo.err) 0
  else s

/-- Lock is lost with an estimated error. -/
def State.loseLock (s : State) (err : Int) : State :=
  let x : Servo := { s.servo with state := .holdover, err := err, limitPosted := false, lostAt := s.now, lostErr := err }
  (({ s with servo := x } : State).postAllTenants 0x0030 0x0800 (nsWord err) 0).checkHoldover

/-- DISCIPLINE_LOST (R137): the source is disqualified, or nothing valid came from it for 4 s. -/
def execDisciplineLost (s : State) : Out :=
  match s.input with
  | .disciplineLost err => if s.servo.state = .locked then done (s.loseLock err) else done s
  | _ =>
    if s.servo.state = .locked then (if s.servo.heard + 4000000000 ≤ s.now then done (s.loseLock s.servo.err) else done s.watchSync)
    else done s

/-- May the estimated error be this now: after an hour of lock, holdover drifts by at most 20 ns in a second (R136), counted in
each second that has begun (DESIGN CHOICE, log 154)? -/
def State.driftOk (s : State) (err : Int) : Bool :=
  s.servo.state != .holdover || decide (s.servo.lostAt - s.servo.lockedAt < 3600 * 10 ^ 9) ||
    decide ((err - s.servo.lostErr).natAbs ≤ 20 * ((s.now - s.servo.lostAt + 999999999) / 10 ^ 9))

/-- HOLDOVER_LIMIT_PASSED (R137): a new estimate in holdover, or the one that stands, is held to the limit. -/
def execHoldoverLimitPassed (s : State) : Out :=
  match s.input with
  | .holdoverLimit err =>
    if s.servo.state = .holdover ∧ s.driftOk err = true then done ({ s with servo := { s.servo with err := err } } : State).checkHoldover
    else done s
  | _ => done s.checkHoldover

/-- A PTP event message passes a port: its timestamp (R136). -/
def State.stamp (s : State) (port : Nat) (sent : Bool) : State := { s with servo := { s.servo with stamps := s.servo.stamps ++ [(port, sent, s.now)] } }

/-- SERVO_UPDATE (R135, R136): a PTP event message that passes a port is timestamped; one of the source that the servo has selected also
gives a new estimate, within the drift of a holdover, and a correction to slew; a port's announced master is selected among the ports, and a
source that is gone is disqualified (R137); or the board controller's clock comes, which device time follows until it is set. What the servo
makes of its messages is the firmware's (log 115). -/
def execServoUpdate (s : State) : Out :=
  match s.input with
  | .servoUpdate port err slew =>
    if 16 ≤ port then done s
    else if s.servo.selected ≠ some port ∨ s.driftOk err = false then done (s.stamp port false)
    else done (({ s with servo := { (s.servo.hear s.now) with port := port, err := err, slew := slew } } : State).checkHoldover.stamp port false)
  | .announce port master =>
    if 16 ≤ port then done s
    else
      let s : State := { s with servo := { s.servo with masters := match master with
        | some m => Tab.set s.servo.masters port m
        | none => Tab.erase s.servo.masters port } }
      done (if s.servo.state = .locked ∧ (Tab.find s.servo.masters s.servo.port).isNone = true then s.loseLock s.servo.err else s)
  | .ptpEvent port sent => done (if port < 16 then s.stamp port sent else s)
  | .boardTime t => if s.timeSet then done s else done { s with timeBase := t.toNat - s.clock / s.perNs }
  | _ => done s

/-! ### Power and temperature -/

/-- A health event, to event ring 0 of tenant 0 (R441). -/
def State.healthEvent (s : State) (kind : Nat) (w2 w3 : Word) : State := s.postEvent 0 0 kind 0x0C04 w2 w3

/-- Word 2 of a telemetry record (R440). -/
def telemetryWord (x : Telemetry) : Word := x.throttle ++ x.hottest ++ x.inlet ++ x.power

/-- POWER_LIMIT_SET (R437): from 2.0 to 5.6 kW. -/
def execPowerLimitSet (s : State) : Out :=
  match s.input with
  | .powerLimit w => if 2000 ≤ w ∧ w ≤ 5600 then done { s with health := { s.health with limit := w } } else done s
  | _ => done s

/-- Do readings call for throttling (R438)? -/
def State.tooHot (s : State) (x : Telemetry) : Bool := decide (s.health.limit < x.power.toNat) || decide (950 ≤ x.hottest.toNat)

/-- What has been withheld in this interval counts up to now, and from now on in a fraction of the clocks (R438, R440). -/
def State.withhold (s : State) (fraction : BitVec 16) : State :=
  { s with health := { s.health with
      withheld := s.health.withheld + s.health.fraction.toNat * (s.now - s.health.since)
      since := s.now
      fraction := fraction } }
/-- The fraction of core clocks withheld over the interval so far; at its first instant, the one that holds. -/
def State.fractionSoFar (s : State) : BitVec 16 :=
  let h := s.health
  if s.now ≤ h.began then h.fraction
  else BitVec.ofNat 16 ((h.withheld + h.fraction.toNat * (s.now - h.since)) / (s.now - h.began))
/-- Readings as the interval gives them (R440). -/
def State.readingNow (s : State) : Word := telemetryWord { s.health.reading with throttle := s.fractionSoFar }

/-- Throttling starts, in a fraction of the clocks. -/
def State.throttle (s : State) (fraction : BitVec 16) : State :=
  if s.health.throttling then s.withhold fraction
  else
    let s := s.withhold fraction
    ({ s with health := { s.health with throttling := true } } : State).healthEvent 0x0083 1 s.readingNow

/-- THROTTLE_START (R438): timing only changes. The fraction is the input's, or a free value where a reading or a new limit alone calls for
throttling (log 17). -/
def execThrottleStart (s : State) : Out :=
  match s.input with
  | .throttle x => done (if s.tooHot x then ({ s with health := { s.health with reading := x } } : State).throttle x.throttle else s)
  | _ => done (if s.health.throttling = false ∧ s.tooHot s.health.reading = true then s.drew.throttle (s.free.setWidth 16) else s)

/-- THROTTLE_END (R438): the newest readings are within the envelope. -/
def execThrottleEnd (s : State) : Out :=
  if s.health.throttling = true ∧ s.tooHot s.health.reading = false then
    let s := s.withhold 0
    done (({ s with health := { s.health with throttling := false } } : State).healthEvent 0x0083 0 s.readingNow)
  else done s

/-- A die met the critical temperature (R439): issue stops, and the board controller is asked to remove power. -/
def State.critical (s : State) (die : Nat) (temp : Nat) : State :=
  ({ s with health := { s.health with stopped := true, powerOff := true } } : State).healthEvent 0x0084 (word die) (word temp)

/-- CRITICAL_TEMPERATURE (R439): issue stops on every core; the module returns only through a full bring-up. Of a reading of the hottest die, the
die is a free value (log 17). -/
def execCriticalTemperature (s : State) : Out :=
  if s.health.stopped then done s
  else match s.input with
    | .critical die temp => done (if 1050 ≤ temp then s.critical die temp else s)
    | _ => done (if 1050 ≤ s.health.reading.hottest.toNat then s.drew.critical (s.free.toNat % 4) s.health.reading.hottest.toNat else s)

/-! ### Telemetry -/

def State.telemetryDue (s : State) : Bool := s.serving && decide (s.health.nextTelemetry ≤ s.now)

/-- TELEMETRY_RECORD (R440): every ms of device time, with the newest readings and the fraction withheld; the interval's counts begin anew. -/
def execTelemetryRecord (s : State) : Out :=
  let s : State := match s.input with
    | .telemetry x => { s with health := { s.health with reading := x } }
    | _ => s
  if s.telemetryDue then
    let h := s.health
    let s := s.healthEvent 0x0080 s.readingNow (word (min h.replays 65535 * 2 ^ 32 + min h.corrected (2 ^ 32 - 1)))
    done (({ s with health := { h with
      corrected := 0
      replays := 0
      withheld := 0
      since := s.now
      began := s.now
      nextTelemetry := h.nextTelemetry + 1000000 } } : State).timerNs (h.nextTelemetry + 1000000) .telemetryRecord)
  else done s

/-! ### Memory errors -/

/-- A lasting error of a page, told once (R443). -/
def State.lastingError (s : State) (a : Nat) : State :=
  if s.health.lasting.contains (a / 65536) then s
  else (({ s with health := { s.health with lasting := s.health.lasting ++ [a / 65536] } } : State).healthEvent 0x0081 (word (a % 2 ^ 60)) (word (memoryOf a)))

/-- An error was corrected: counted, and lasting if it recurs or is the third of its page within 1 s. -/
def State.correctedError (s : State) (a : Nat) (recurs : Bool) : State :=
  let recent := s.health.errors.filter (fun e => decide (s.now < e.2 + 1000000000)) ++ [(a / 65536, s.now)]
  let s : State := { s with health := { s.health with corrected := s.health.corrected + 1, errors := recent } }
  if recurs ∨ 3 ≤ (recent.filter (fun e => e.1 == a / 65536)).length then s.lastingError a else s

/-- An error that cannot be corrected: later accesses of the word meet it; launches whose accesses to a table, a queue or the warren met
it end at once (R185, R442; log 57). -/
def State.uncorrectable (s : State) (a : Nat) (met : List Nat) : State :=
  let live := met.filter (fun l => match s.launch? l with | some x => x.phase != .ending | none => false)
  let s : State := { s with health := { s.health with bad := if s.health.bad.contains (a / 8) then s.health.bad else s.health.bad ++ [a / 8] } }
  (live.foldl (fun s l => s.faultLaunch l 0x21 (if isLocal a then 8 * clusterOfAddr a else 0) (word a)) s).tellBad a live.length

/-- The device's accesses for launches that met such an error, the oldest first: each launch ends (R185). -/
def State.serveMet (s : State) : State :=
  match s.metBad with
  | (l, c, a) :: rest =>
    let live := match s.launch? l with | some x => x.phase != .ending | none => false
    let s : State := { s with metBad := rest.filter (fun x => !(x.1 == l && x.2.2 == a)) }
    let s := (s.faultLaunch l 0x21 c (word a)).tellBad a (boolNat live)
    if s.metBad.isEmpty then s else s.post .scrubPass
  | [] => s

/-- SCRUB_PASS (R442, R443): the scrubber reads a word of a memory of the module and rewrites it; without
one to read, errors that the device's own accesses met end their launches. -/
def execScrubPass (s : State) : Out :=
  match s.input with
  | .scrub a e =>
    if 3 * 2 ^ 60 ≤ a ∧ a < 6 * 2 ^ 60 then done s
    else match e with
      | .clean => done (s.renew (a / 8 * 8) 8)
      | .corrected recurs => done (s.correctedError a recurs)
      | .uncorrectable met => done (s.uncorrectable a met)
  | _ => done s.serveMet

end Sys2Proof.Machine
end

