-- ==== Sys2Proof/Machine/Dispatch.lean ====
section
/-! DEFINITION. The one arm per instruction. -/

namespace Sys2Proof.Machine

def exec (i : Instr) (s : State) : Host.Outcome State Fault Refusal :=
  match i with
  | .nop f => Sys2Proof.Machine.execNop f s
  | .bra f => Sys2Proof.Machine.execBra f s
  | .jmp f => Sys2Proof.Machine.execJmp f s
  | .call f => Sys2Proof.Machine.execCall f s
  | .ret f => Sys2Proof.Machine.execRet f s
  | .loop f => Sys2Proof.Machine.execLoop f s
  | .endFiring f => Sys2Proof.Machine.execEndFiring f s
  | .yield f => Sys2Proof.Machine.execYield f s
  | .jtab f => Sys2Proof.Machine.execJtab f s
  | .trap f => Sys2Proof.Machine.execTrap f s
  | .waitb f => Sys2Proof.Machine.execWaitb f s
  | .waitc f => Sys2Proof.Machine.execWaitc f s
  | .brk f => Sys2Proof.Machine.execBrk f s
  | .sleep f => Sys2Proof.Machine.execSleep f s
  | .add f => Sys2Proof.Machine.execAdd f s
  | .sub f => Sys2Proof.Machine.execSub f s
  | .mul f => Sys2Proof.Machine.execMul f s
  | .mulh f => Sys2Proof.Machine.execMulh f s
  | .mad f => Sys2Proof.Machine.execMad f s
  | .div f => Sys2Proof.Machine.execDiv f s
  | .rem f => Sys2Proof.Machine.execRem f s
  | .abs f => Sys2Proof.Machine.execAbs f s
  | .min f => Sys2Proof.Machine.execMin f s
  | .max f => Sys2Proof.Machine.execMax f s
  | .adds f => Sys2Proof.Machine.execAdds f s
  | .subs f => Sys2Proof.Machine.execSubs f s
  | .avg f => Sys2Proof.Machine.execAvg f s
  | .sad f => Sys2Proof.Machine.execSad f s
  | .clamp f => Sys2Proof.Machine.execClamp f s
  | .and f => Sys2Proof.Machine.execAnd f s
  | .or f => Sys2Proof.Machine.execOr f s
  | .xor f => Sys2Proof.Machine.execXor f s
  | .andn f => Sys2Proof.Machine.execAndn f s
  | .shl f => Sys2Proof.Machine.execShl f s
  | .shr f => Sys2Proof.Machine.execShr f s
  | .sar f => Sys2Proof.Machine.execSar f s
  | .rol f => Sys2Proof.Machine.execRol f s
  | .clz f => Sys2Proof.Machine.execClz f s
  | .popc f => Sys2Proof.Machine.execPopc f s
  | .brev f => Sys2Proof.Machine.execBrev f s
  | .ext f => Sys2Proof.Machine.execExt f s
  | .ins f => Sys2Proof.Machine.execIns f s
  | .hash f => Sys2Proof.Machine.execHash f s
  | .mix f => Sys2Proof.Machine.execMix f s
  | .mov f => Sys2Proof.Machine.execMov f s
  | .movh f => Sys2Proof.Machine.execMovh f s
  | .sel f => Sys2Proof.Machine.execSel f s
  | .cmp f => Sys2Proof.Machine.execCmp f s
  | .pand f => Sys2Proof.Machine.execPand f s
  | .por f => Sys2Proof.Machine.execPor f s
  | .pxor f => Sys2Proof.Machine.execPxor f s
  | .lea f => Sys2Proof.Machine.execLea f s
  | .movs f => Sys2Proof.Machine.execMovs f s
  | .movw f => Sys2Proof.Machine.execMovw f s
  | .iota f => Sys2Proof.Machine.execIota f s
  | .bcast f => Sys2Proof.Machine.execBcast f s
  | .extl f => Sys2Proof.Machine.execExtl f s
  | .insl f => Sys2Proof.Machine.execInsl f s
  | .cmpv f => Sys2Proof.Machine.execCmpv f s
  | .fadd f => Sys2Proof.Machine.execFadd f s
  | .fsub f => Sys2Proof.Machine.execFsub f s
  | .fmul f => Sys2Proof.Machine.execFmul f s
  | .fma f => Sys2Proof.Machine.execFma f s
  | .fms f => Sys2Proof.Machine.execFms f s
  | .fnma f => Sys2Proof.Machine.execFnma f s
  | .fmin f => Sys2Proof.Machine.execFmin f s
  | .fmax f => Sys2Proof.Machine.execFmax f s
  | .fabs f => Sys2Proof.Machine.execFabs f s
  | .fneg f => Sys2Proof.Machine.execFneg f s
  | .fcmp f => Sys2Proof.Machine.execFcmp f s
  | .fclass f => Sys2Proof.Machine.execFclass f s
  | .fdiv f => Sys2Proof.Machine.execFdiv f s
  | .fsqrt f => Sys2Proof.Machine.execFsqrt f s
  | .frcp f => Sys2Proof.Machine.execFrcp f s
  | .frsq f => Sys2Proof.Machine.execFrsq f s
  | .fexp2 f => Sys2Proof.Machine.execFexp2 f s
  | .flog2 f => Sys2Proof.Machine.execFlog2 f s
  | .ftanh f => Sys2Proof.Machine.execFtanh f s
  | .fscale f => Sys2Proof.Machine.execFscale f s
  | .fcvt f => Sys2Proof.Machine.execFcvt f s
  | .ftoi f => Sys2Proof.Machine.execFtoi f s
  | .itof f => Sys2Proof.Machine.execItof f s
  | .frnd f => Sys2Proof.Machine.execFrnd f s
  | .fdot f => Sys2Proof.Machine.execFdot f s
  | .qnt f => Sys2Proof.Machine.execQnt f s
  | .dqnt f => Sys2Proof.Machine.execDqnt f s
  | .plsplit f => Sys2Proof.Machine.execPlsplit f s
  | .pljoin f => Sys2Proof.Machine.execPljoin f s
  | .vshuf f => Sys2Proof.Machine.execVshuf f s
  | .vperm2 f => Sys2Proof.Machine.execVperm2 f s
  | .vrot f => Sys2Proof.Machine.execVrot f s
  | .vzip f => Sys2Proof.Machine.execVzip f s
  | .vunzip f => Sys2Proof.Machine.execVunzip f s
  | .vcomp f => Sys2Proof.Machine.execVcomp f s
  | .vexp f => Sys2Proof.Machine.execVexp f s
  | .vred f => Sys2Proof.Machine.execVred f s
  | .vscan f => Sys2Proof.Machine.execVscan f s
  | .vtopk f => Sys2Proof.Machine.execVtopk f s
  | .vsort f => Sys2Proof.Machine.execVsort f s
  | .vdist f => Sys2Proof.Machine.execVdist f s
  | .vmatch f => Sys2Proof.Machine.execVmatch f s
  | .vseg f => Sys2Proof.Machine.execVseg f s
  | .mset f => Sys2Proof.Machine.execMset f s
  | .mand f => Sys2Proof.Machine.execMand f s
  | .mor f => Sys2Proof.Machine.execMor f s
  | .mandn f => Sys2Proof.Machine.execMandn f s
  | .mcnt f => Sys2Proof.Machine.execMcnt f s
  | .mfind f => Sys2Proof.Machine.execMfind f s
  | .msplit f => Sys2Proof.Machine.execMsplit f s
  | .mpred f => Sys2Proof.Machine.execMpred f s
  | .qld f => Sys2Proof.Machine.execQld f s
  | .qst f => Sys2Proof.Machine.execQst f s
  | .walk f => Sys2Proof.Machine.execWalk f s
  | .mtov f => Sys2Proof.Machine.execMtov f s
  | .vtom f => Sys2Proof.Machine.execVtom f s
  | .mmeet f => Sys2Proof.Machine.execMmeet f s
  | .ld f => Sys2Proof.Machine.execLd f s
  | .st f => Sys2Proof.Machine.execSt f s
  | .ldv f => Sys2Proof.Machine.execLdv f s
  | .stv f => Sys2Proof.Machine.execStv f s
  | .ldx f => Sys2Proof.Machine.execLdx f s
  | .stx f => Sys2Proof.Machine.execStx f s
  | .ldfe f => Sys2Proof.Machine.execLdfe f s
  | .ldff f => Sys2Proof.Machine.execLdff f s
  | .stef f => Sys2Proof.Machine.execStef f s
  | .stxf f => Sys2Proof.Machine.execStxf f s
  | .femark f => Sys2Proof.Machine.execFemark f s
  | .fepoll f => Sys2Proof.Machine.execFepoll f s
  | .latom f => Sys2Proof.Machine.execLatom f s
  | .binit f => Sys2Proof.Machine.execBinit f s
  | .bexpect f => Sys2Proof.Machine.execBexpect f s
  | .barrive f => Sys2Proof.Machine.execBarrive f s
  | .bpoll f => Sys2Proof.Machine.execBpoll f s
  | .fence f => Sys2Proof.Machine.execFence f s
  | .send f => Sys2Proof.Machine.execSend f s
  | .sendt f => Sys2Proof.Machine.execSendt f s
  | .trysend f => Sys2Proof.Machine.execTrysend f s
  | .recv f => Sys2Proof.Machine.execRecv f s
  | .peek f => Sys2Proof.Machine.execPeek f s
  | .ctrl f => Sys2Proof.Machine.execCtrl f s
  | .chcnt f => Sys2Proof.Machine.execChcnt f s
  | .gang f => Sys2Proof.Machine.execGang f s
  | .hmask f => Sys2Proof.Machine.execHmask f s
  | .hprio f => Sys2Proof.Machine.execHprio f s
  | .spawn f => Sys2Proof.Machine.execSpawn f s
  | .copy f => Sys2Proof.Machine.execCopy f s
  | .copy2 f => Sys2Proof.Machine.execCopy2 f s
  | .get f => Sys2Proof.Machine.execGet f s
  | .put f => Sys2Proof.Machine.execPut f s
  | .getx f => Sys2Proof.Machine.execGetx f s
  | .putx f => Sys2Proof.Machine.execPutx f s
  | .amo f => Sys2Proof.Machine.execAmo f s
  | .amox f => Sys2Proof.Machine.execAmox f s
  | .amof f => Sys2Proof.Machine.execAmof f s
  | .rotate f => Sys2Proof.Machine.execRotate f s
  | .job f => Sys2Proof.Machine.execJob f s
  | .emsg f => Sys2Proof.Machine.execEmsg f s
  | .xsend f => Sys2Proof.Machine.execXsend f s
  | .xpost f => Sys2Proof.Machine.execXpost f s
  | .xget f => Sys2Proof.Machine.execXget f s
  | .mlds f => Sys2Proof.Machine.execMlds f s
  | .mswap f => Sys2Proof.Machine.execMswap f s
  | .mma f => Sys2Proof.Machine.execMma f s
  | .mmag f => Sys2Proof.Machine.execMmag f s
  | .macc f => Sys2Proof.Machine.execMacc f s
  | .mcvt f => Sys2Proof.Machine.execMcvt f s
  | .mrda f => Sys2Proof.Machine.execMrda f s
  | .mwra f => Sys2Proof.Machine.execMwra f s
  | .mstat f => Sys2Proof.Machine.execMstat f s
  | .srch f => Sys2Proof.Machine.execSrch f s
  | .srchf f => Sys2Proof.Machine.execSrchf f s
  | .mpath f => Sys2Proof.Machine.execMpath f s
  | .sacq f => Sys2Proof.Machine.execSacq f s
  | .srel f => Sys2Proof.Machine.execSrel f s
  | .sshrink f => Sys2Proof.Machine.execSshrink f s
  | .surr f => Sys2Proof.Machine.execSurr f s
  | .sverd f => Sys2Proof.Machine.execSverd f s
  | .sqry f => Sys2Proof.Machine.execSqry f s
  | .estset f => Sys2Proof.Machine.execEstset f s
  | .commit f => Sys2Proof.Machine.execCommit f s
  | .wuend f => Sys2Proof.Machine.execWuend f s
  | .launch f => Sys2Proof.Machine.execLaunch f s
  | .movsw f => Sys2Proof.Machine.execMovsw f s
  | .rft f => Sys2Proof.Machine.execRft f s
  | .csave f => Sys2Proof.Machine.execCsave f s
  | .crest f => Sys2Proof.Machine.execCrest f s
  | .niinv f => Sys2Proof.Machine.execNiinv f s
  | .nisync f => Sys2Proof.Machine.execNisync f s
  | .jrnl f => Sys2Proof.Machine.execJrnl f s
  | .evpost f => Sys2Proof.Machine.execEvpost f s
  | .perf f => Sys2Proof.Machine.execPerf f s
  | .idle f => Sys2Proof.Machine.execIdle f s
  | .spillni f => Sys2Proof.Machine.execSpillni f s
  | .placement q => Sys2Proof.Machine.execPlacement q s
  | .expiredInQueue q => Sys2Proof.Machine.execExpiredInQueue q s
  | .seedSend l => Sys2Proof.Machine.execSeedSend l s
  | .firingStart c => Sys2Proof.Machine.execFiringStart c s
  | .bucketRecompute c => Sys2Proof.Machine.execBucketRecompute c s
  | .estimateArrival l => Sys2Proof.Machine.execEstimateArrival l s
  | .stallResume c k => Sys2Proof.Machine.execStallResume c k s
  | .fullEmptyGrant cl a => Sys2Proof.Machine.execFullEmptyGrant cl a s
  | .channelWordArrival c net => Sys2Proof.Machine.execChannelWordArrival c net s
  | .wordReoffer c net => Sys2Proof.Machine.execWordReoffer c net s
  | .freeSlotReturn c ch => Sys2Proof.Machine.execFreeSlotReturn c ch s
  | .ringWordArrival c => Sys2Proof.Machine.execRingWordArrival c s
  | .walkerMessageArrival c => Sys2Proof.Machine.execWalkerMessageArrival c s
  | .holdReached cl e => Sys2Proof.Machine.execHoldReached cl e s
  | .jobPieceLand j => Sys2Proof.Machine.execJobPieceLand j s
  | .searchListLand j ch => Sys2Proof.Machine.execSearchListLand j ch s
  | .rotationRun cl => Sys2Proof.Machine.execRotationRun cl s
  | .asyncTrapDelivery c => Sys2Proof.Machine.execAsyncTrapDelivery c s
  | .gangFormation cl => Sys2Proof.Machine.execGangFormation cl s
  | .mswapApply cl => Sys2Proof.Machine.execMswapApply cl s
  | .arrayOperationForm cl => Sys2Proof.Machine.execArrayOperationForm cl s
  | .arrayOperationComplete cl k => Sys2Proof.Machine.execArrayOperationComplete cl k s
  | .deadlineExpiry l c => Sys2Proof.Machine.execDeadlineExpiry l c s
  | .descheduledExpiry l => Sys2Proof.Machine.execDescheduledExpiry l s
  | .wrapupQuietPoint l => Sys2Proof.Machine.execWrapupQuietPoint l s
  | .wrapupBudgetExhausted c k => Sys2Proof.Machine.execWrapupBudgetExhausted c k s
  | .wallBudgetExpiry l => Sys2Proof.Machine.execWallBudgetExpiry l s
  | .launchComplete l => Sys2Proof.Machine.execLaunchComplete l s
  | .completionRecordWrite l => Sys2Proof.Machine.execCompletionRecordWrite l s
  | .recallHead c => Sys2Proof.Machine.execRecallHead c s
  | .recallPlace c => Sys2Proof.Machine.execRecallPlace c s
  | .surrenderBoundExceeded c k => Sys2Proof.Machine.execSurrenderBoundExceeded c k s
  | .finishLimitPassed cl g => Sys2Proof.Machine.execFinishLimitPassed cl g s
  | .mailboxSlotConsume f m => Sys2Proof.Machine.execMailboxSlotConsume f m s
  | .requestPageInvalidate r => Sys2Proof.Machine.execRequestPageInvalidate r s
  | .requestTenantInvalidate r => Sys2Proof.Machine.execRequestTenantInvalidate r s
  | .requestAllInvalidate r => Sys2Proof.Machine.execRequestAllInvalidate r s
  | .contextLoad r => Sys2Proof.Machine.execContextLoad r s
  | .quotaChange r => Sys2Proof.Machine.execQuotaChange r s
  | .reclaim r => Sys2Proof.Machine.execReclaim r s
  | .tenantReset r => Sys2Proof.Machine.execTenantReset r s
  | .jobRetry j => Sys2Proof.Machine.execJobRetry j s
  | .sliceBoundary t => Sys2Proof.Machine.execSliceBoundary t s
  | .quiescenceLimit t => Sys2Proof.Machine.execQuiescenceLimit t s
  | .contextSaveComplete t => Sys2Proof.Machine.execContextSaveComplete t s
  | .preemptionInterrupt c => Sys2Proof.Machine.execPreemptionInterrupt c s
  | .contextRestore c => Sys2Proof.Machine.execContextRestore c s
  | .resetInterrupt c => Sys2Proof.Machine.execResetInterrupt c s
  | .illegalInstruction x => Sys2Proof.Machine.execIllegalInstruction x s
  | .deadlineBeforePlacement q => Sys2Proof.Machine.execDeadlineBeforePlacement q s
  | .launchNumberRelease => Sys2Proof.Machine.execLaunchNumberRelease s
  | .refusalWindowEnd => Sys2Proof.Machine.execRefusalWindowEnd s
  | .tailWrite => Sys2Proof.Machine.execTailWrite s
  | .cancelWrite => Sys2Proof.Machine.execCancelWrite s
  | .mailboxConfigWrite => Sys2Proof.Machine.execMailboxConfigWrite s
  | .eventRingConfigWrite => Sys2Proof.Machine.execEventRingConfigWrite s
  | .miggive => Sys2Proof.Machine.execMiggive s
  | .migtake => Sys2Proof.Machine.execMigtake s
  | .migholdWrite => Sys2Proof.Machine.execMigholdWrite s
  | .pageHoldEnd => Sys2Proof.Machine.execPageHoldEnd s
  | .hostWindowRequest => Sys2Proof.Machine.execHostWindowRequest s
  | .registerWrite => Sys2Proof.Machine.execRegisterWrite s
  | .functionLevelReset => Sys2Proof.Machine.execFunctionLevelReset s
  | .secondStageRecordMove => Sys2Proof.Machine.execSecondStageRecordMove s
  | .debuggerHalt => Sys2Proof.Machine.execDebuggerHalt s
  | .debuggerResume => Sys2Proof.Machine.execDebuggerResume s
  | .launchAreaRelease => Sys2Proof.Machine.execLaunchAreaRelease s
  | .flitCrcFailure => Sys2Proof.Machine.execFlitCrcFailure s
  | .powerNarrowing => Sys2Proof.Machine.execPowerNarrowing s
  | .linkWidening => Sys2Proof.Machine.execLinkWidening s
  | .renegotiationEnd => Sys2Proof.Machine.execRenegotiationEnd s
  | .routerFailure => Sys2Proof.Machine.execRouterFailure s
  | .requestResend => Sys2Proof.Machine.execRequestResend s
  | .uePortStateChange => Sys2Proof.Machine.execUePortStateChange s
  | .transportPacketArrival => Sys2Proof.Machine.execTransportPacketArrival s
  | .packetResend => Sys2Proof.Machine.execPacketResend s
  | .congestionTableUpdate => Sys2Proof.Machine.execCongestionTableUpdate s
  | .tokenBucketRefill => Sys2Proof.Machine.execTokenBucketRefill s
  | .servoLock => Sys2Proof.Machine.execServoLock s
  | .disciplineLost => Sys2Proof.Machine.execDisciplineLost s
  | .holdoverLimitPassed => Sys2Proof.Machine.execHoldoverLimitPassed s
  | .moduleReset => Sys2Proof.Machine.execModuleReset s
  | .selfTestComplete => Sys2Proof.Machine.execSelfTestComplete s
  | .selfTestFailure => Sys2Proof.Machine.execSelfTestFailure s
  | .secondTierTrained => Sys2Proof.Machine.execSecondTierTrained s
  | .hbmTrained => Sys2Proof.Machine.execHbmTrained s
  | .hbmTrainingFailure => Sys2Proof.Machine.execHbmTrainingFailure s
  | .clockSwitchComplete => Sys2Proof.Machine.execClockSwitchComplete s
  | .updateCommand => Sys2Proof.Machine.execUpdateCommand s
  | .attestCommand => Sys2Proof.Machine.execAttestCommand s
  | .powerLimitSet => Sys2Proof.Machine.execPowerLimitSet s
  | .throttleStart => Sys2Proof.Machine.execThrottleStart s
  | .throttleEnd => Sys2Proof.Machine.execThrottleEnd s
  | .criticalTemperature => Sys2Proof.Machine.execCriticalTemperature s
  | .telemetryRecord => Sys2Proof.Machine.execTelemetryRecord s
  | .scrubPass => Sys2Proof.Machine.execScrubPass s
  | .servoUpdate => Sys2Proof.Machine.execServoUpdate s
  | .commandDone => Sys2Proof.Machine.execCommandDone s
  | .powerLoss => Sys2Proof.Machine.execPowerLoss s

end Sys2Proof.Machine
end

