-- ==== Sys2Proof/Machine/Sched.lean ====
section
/-! DEFINITION. Which agent moves next (log 1): the environment's turns first, then the model's own fair order. -/

namespace Sys2Proof.Machine

/-- The event that an input is. -/
def inputInstr : Input → Option Instr
  | .none => none
  | .tailWrite _ _ _ => some .tailWrite
  | .cancelWrite _ _ _ => some .cancelWrite
  | .mailboxConfigWrite _ _ _ _ _ => some .mailboxConfigWrite
  | .eventRingConfigWrite _ _ _ _ _ => some .eventRingConfigWrite
  | .migGive _ _ => some .miggive
  | .migTake _ _ => some .migtake
  | .migHoldWrite _ _ => some .migholdWrite
  | .hostWindow _ _ => some .hostWindowRequest
  | .barRead _ _ _ => some .hostWindowRequest
  | .hostMemory _ => some .hostWindowRequest
  | .registerWrite _ _ => some .registerWrite
  | .compatSet _ _ _ => some .registerWrite
  | .functionReset _ => some .functionLevelReset
  | .debuggerHalt _ => some .debuggerHalt
  | .debuggerResume _ => some .debuggerResume
  | .flitCrc _ _ _ _ => some .flitCrcFailure
  | .narrowing _ _ _ => some .powerNarrowing
  | .widening _ _ _ => some .linkWidening
  | .renegotiated _ _ => some .renegotiationEnd
  | .routerFailure _ => some .routerFailure
  | .uePort _ _ => some .uePortStateChange
  | .packet _ => some .transportPacketArrival
  | .packetLost _ _ => some .packetResend
  | .congestion _ _ _ _ _ => some .congestionTableUpdate
  | .servoLock _ => some .servoLock
  | .disciplineLost _ => some .disciplineLost
  | .holdoverLimit _ => some .holdoverLimitPassed
  | .servoUpdate _ _ _ => some .servoUpdate
  | .announce _ _ => some .servoUpdate
  | .ptpEvent _ _ => some .servoUpdate
  | .boardTime _ => some .servoUpdate
  | .trainingFailure _ => some .hbmTrainingFailure
  | .powerLimit _ => some .powerLimitSet
  | .throttle _ => some .throttleStart
  | .critical _ _ => some .criticalTemperature
  | .telemetry _ => some .telemetryRecord
  | .scrub _ _ => some .scrubPass

/-- May a core issue: its cluster is in service (R419)? -/
def State.mayIssue (s : State) (c : Nat) : Bool := Tab.get 0 s.clusterState (clusterOf c) != 2

/-- Cores with a ready slot: the one after the core that issued last, in core order. -/
def State.readyCore (s : State) : Option Nat :=
  let r := (s.cores.filter (fun e => s.mayIssue e.1 && e.2.nextSlot.isSome)).map (·.1)
  match r.find? (fun c => decide (s.cur < c)) with
  | some c => some c
  | none => r.head?

/-- Timers that have come join the agenda. -/
def State.ripen (s : State) : State :=
  let due := s.timers.filter (fun t => decide (t.1 ≤ s.clock))
  { s.postAll (due.map (·.2)) with timers := s.timers.filter (fun t => decide (s.clock < t.1)) }

/-- Remove the n-th element. -/
def dropAt : List α → Nat → List α
  | [], _ => []
  | _ :: xs, 0 => xs
  | x :: xs, n + 1 => x :: dropAt xs n

/-- Who moves. -/
inductive Move where
  /-- an event happens -/
  | event (i : Instr) (s : State)
  /-- core c issues from slot n -/
  | issue (c n : Nat) (s : State)
  /-- a clock passes and nothing else happens -/
  | idle (s : State)

/-- The n-th event of the agenda. -/
def State.agendaMove (s : State) (n : Nat) : Move :=
  match s.agenda[n]? with
  | some i => .event i { s with agenda := dropAt s.agenda n }
  | none => .idle s

/-- Core c issues, if it can. -/
def State.issueMove (s : State) (c : Nat) : Move :=
  match s.mayIssue c, (s.core c).nextSlot with
  | true, some n => .issue c n s
  | _, _ => .idle s

/-! ### Events that the state itself makes due, whether or not anything has posted them (log 1) -/

def State.coreEvents (_ : State) (c : Nat) (k : Core) : List Instr :=
  [.firingStart c, .asyncTrapDelivery c, .recallHead c, .channelWordArrival c 0, .channelWordArrival c 1, .wordReoffer c 0, .wordReoffer c 1,
    .ringWordArrival c, .walkerMessageArrival c, .preemptionInterrupt c, .contextRestore c, .resetInterrupt c] ++
    (k.slots.filter (fun x => x.2.st == .stalled)).map (fun x => .stallResume c x.1) ++
    k.returns.map (fun x => .freeSlotReturn c x) ++ (if k.recallWait.isEmpty then [] else [.recallPlace c])

def State.clusterEvents (_ : State) (cl : Nat) (k : Cluster) : List Instr :=
  [.gangFormation cl, .arrayOperationForm cl, .rotationRun cl, .mswapApply cl] ++
    (if k.arrayOps.isEmpty then [] else (List.range 8).map (fun n => .arrayOperationComplete cl n)) ++
    k.waiters.map (fun w => .fullEmptyGrant cl w.addr) ++
    (k.warren.filter (fun e => !e.pending)).map (fun e => .holdReached cl e.serial) ++
    (k.setts.filter (fun x => x.st == .finishing)).map (fun x => .finishLimitPassed cl x.gen)

def State.launchEvents (_ : State) (l : Launch) : List Instr :=
  match l.phase with
  | .running => [.launchComplete l.number, .estimateArrival l.number, .seedSend l.number, .descheduledExpiry l.number] ++
      (if l.deadline = 0 then [] else l.cores.map (fun c => .deadlineExpiry l.number c))
  | .wrapping => [.wrapupQuietPoint l.number, .wallBudgetExpiry l.number] ++ l.cores.map (fun c => .deadlineExpiry l.number c)
  | .ending => [.completionRecordWrite l.number] ++
      (if l.status = 2 ∨ l.status = 3 then l.cores.map (fun c => .deadlineExpiry l.number c) else [])

def State.jobEvents (_ : State) (j : Job) : List Instr :=
  if j.waiting.isSome ∨ j.opcode = jobSeed then []
  else if (j.opcode = 0xC0 ∨ j.opcode = 0xC1) ∧ j.started = true then (List.range 64).map (fun ch => .searchListLand j.id ch)
  else [.jobPieceLand j.id]

def State.tenantEvents (s : State) (t : Nat) : List Instr :=
  [.requestPageInvalidate t, .requestTenantInvalidate t, .requestAllInvalidate t, .contextLoad t, .quotaChange t, .reclaim t, .tenantReset t,
    .sliceBoundary t, .quiescenceLimit t, .contextSaveComplete t] ++
    (if (s.sched? t).switching.isSome || s.resets.any (fun r => r.tenant == t) then
      (s.partitionCores t).flatMap (fun c => [.preemptionInterrupt c, .resetInterrupt c]) else [])

def State.deviceEvents (s : State) : List Instr :=
  [.launchNumberRelease, .launchAreaRelease, .refusalWindowEnd, .pageHoldEnd, .secondStageRecordMove, .functionLevelReset,
    .updateCommand, .attestCommand, .commandDone, .clockSwitchComplete, .throttleStart, .throttleEnd, .criticalTemperature, .telemetryRecord,
    .holdoverLimitPassed, .scrubPass, .renegotiationEnd, .requestResend, .congestionTableUpdate] ++
    s.mailboxes.map (fun e => .mailboxSlotConsume (e.1 / 64) (e.1 % 64)) ++
    s.queues.flatMap (fun e => [.placement e.1, .expiredInQueue e.1, .deadlineBeforePlacement e.1])

/-- Every event that the state could make due, without a bound (R408; DESIGN CHOICE, log 116). -/
def State.possible (s : State) : List Instr :=
  s.cores.flatMap (fun e => s.coreEvents e.1 e.2) ++ s.clusters.flatMap (fun e => s.clusterEvents e.1 e.2) ++
    s.launches.flatMap (fun e => s.launchEvents e.2) ++ s.jobs.flatMap s.jobEvents ++
    (0 :: (Tab.keys s.tenants).filter (· != 0)).flatMap s.tenantEvents ++ s.deviceEvents

/-- Does an event change the state? -/
def State.changes (s : State) (i : Instr) : Bool :=
  match exec i s with
  | .next s' => s' != s
  | _ => false

/-- Those that are due: to happen changes the state. -/
def State.standing (s : State) : List Instr := s.possible.filter s.changes

/-- The agenda's oldest event; else a standing one, each in turn. -/
def State.eventMove (s : State) (otherwise : Move) : Move :=
  if s.agenda ≠ [] then s.agendaMove 0
  else
    let xs := s.standing
    match xs[s.clock / 2 % max 1 xs.length]? with
    | some i => .event i s
    | none => otherwise

/-- The model's own order: on even clocks a core issues first, on odd clocks events go first. -/
def State.ownMove (s : State) : Move :=
  match s.readyCore with
  | some c => if s.clock % 2 = 0 then s.issueMove c else s.eventMove (s.issueMove c)
  | none => s.eventMove (.idle s)

/-- Does the module run: it has power, and no die met the critical temperature (R439)? -/
def State.alive (s : State) : Bool := s.health.powered && !s.health.stopped

/-- May an event of the environment's choice happen: nothing that a slot issues, and on a module that does not run only the loss of
power and a reset? -/
def State.mayHappen (s : State) (i : Instr) : Bool := i.word?.isNone && !(match i with | .illegalInstruction _ => true | _ => false) && (s.alive || i == .powerLoss || i == .moduleReset)

/-- Who moves next. -/
def State.move (s : State) : Move :=
  let s := s.ripen
  match s.turns with
  | [] => if s.alive then s.ownMove else .idle s
  | t :: r =>
    let s : State := { s with turns := r }
    match t with
    | .issue c => if s.alive then s.issueMove c else .idle s
    | .due n => if s.alive then s.agendaMove n else .idle s
    | .event i => if s.mayHappen i then .event i s else .idle s
    | .input x =>
      match inputInstr x with
      | some i => if s.alive then .event i { s with input := x } else .idle s
      | none => .idle s

end Sys2Proof.Machine
end

