-- ==== Sys2Proof/Machine/Step.lean ====
section
/-! DEFINITION. One step of the module: one agent moves, and one core clock passes (log 1, log 15). -/

namespace Sys2Proof.Machine

/-- The clock passes after a move. -/
def afterMove (o : Host.Outcome State Fault Refusal) : Host.Outcome State Fault Refusal :=
  match o with
  | .next s => .next s.pass
  | .fault r => .fault r
  | .refused r => .refused r

/-- A core has issued: the slice of a context begins with the first issue after its resumption (R397). -/
def afterIssue (before : State) (c n : Nat) (o : Host.Outcome State Fault Refusal) : Host.Outcome State Fault Refusal :=
  match o with
  | .next s => .next (before.noteIssue s c n)
  | .fault r => .fault r
  | .refused r => .refused r

/-- One step. -/
def step (s : State) : Host.Outcome State Fault Refusal :=
  match s.move with
  | .idle s' => .next s'.pass
  | .event i s' => afterMove (exec i s')
  | .issue c n s' =>
    match (s'.select c n).nextInstr with
    | .ok i => afterMove (afterIssue s' c n (exec i (s'.select c n)))
    | .error r => .fault r

/-- The instruction's bytes as the code of an image placed on core 0, whose slot 0 stands Running at offset 0 with nothing else on
the core, and core 0 to issue next (log 21). -/
def State.withFetchWord (s : State) (nbits w : Nat) : State :=
  let code := Mem.writeN [] 0 12 (if nbits ≤ 96 then w % 2 ^ nbits else w)
  let im : Image := {
    tenant := 0
    addr := 0
    code := code
    codeLen := 12
    handlers := []
    setts := []
    trap := none
    pool := (0, 0)
    cstore := (0, 0)
    partw := 0 }
  { s.setCore 0 { Core.initial with image := some 0, slots := [(0, { Slot.empty with st := .running })] } with
    images := Tab.set s.images 0 im
    turns := [.issue 0] }

end Sys2Proof.Machine
end

