-- ==== Sys2Proof/Safety.lean ====
section
/-! DEFINITION. What counts as a safe run, in the terms that claims use: what every step keeps, and what an instruction may change. -/

namespace Sys2Proof.Machine

/-- Memory is in its canonical form: addresses strictly rising, and no byte listed that an unlisted address reads as (log 2). -/
def State.Canonical (s : State) : Prop := s.mem.wf

/-- Checks 1 to 6 of R183 pass for an instruction of this opcode in the slot that issues, its guard holds (R177), and no port that it both
reads and writes is without room for the write (R174: D's test comes before the pops). -/
def State.issues (s : State) (op : Nat) (f : Fields) : Prop := s.preCheck op f = none ∧ s.me.guard f = true ∧ s.pushBlocked op f = none

/-- From s to t nothing changed but the slot that issues and its core's counters 0 to 4 (R313). -/
structure State.OnlySlot (s t : State) : Prop where
  rest : t = { s with cores := t.cores }
  cores : ∀ c, c ≠ s.cur → t.core c = s.core c
  here : t.here = { s.here with slots := t.here.slots, perf := t.here.perf }
  slots : ∀ n, n ≠ s.curSlot → t.slot s.cur n = s.slot s.cur n

/-- The slot that issues became x, and nothing else changed but its core's counters. -/
def State.Slotwise (s t : State) (x : Slot) : Prop := s.OnlySlot t ∧ t.me = x

/-- A slot whose instruction has completed: the pc is moved and the instruction counted (R127, R143, R172), and what a wait of it saw,
or a `SPILLNI` has begun, is forgotten. -/
def Slot.retired (x : Slot) (pc : Word) : Slot := { x with pc := pc, count := x.count + 1, met := none, spilling := false }

/-- What a firing holds in its registers. -/
def Slot.sameRegs (x y : Slot) : Prop := x.g = y.g ∧ x.v = y.v ∧ x.p = y.p ∧ x.w = y.w ∧ x.m = y.m

end Sys2Proof.Machine
end

