-- ==== Sys2Proof/Certificates/Slice0/Obligations.lean ====
section
/-! DEFINITION. The statements for the provers, with the spec-side functions that they compare the meanings with. -/

namespace Sys2Proof.Claims
open Sys2Proof.Machine Sys2Proof.Num

/-! ### Integer results on bit vectors (R188, R197 to R201) -/

/-- A w-bit value read as R188 says. -/
def value (u : Bool) (x : BitVec w) : Int := if u then (x.toNat : Int) else x.toInt
/-- A w-bit result extended to 64 bits (R188). -/
def widen (u : Bool) (x : BitVec w) : Word := if u then x.setWidth 64 else x.signExtend 64
/-- The least and the greatest w-bit value. -/
def least (u : Bool) (w : Nat) : Int := if u then 0 else -2 ^ (w - 1)
def greatest (u : Bool) (w : Nat) : Int := if u then 2 ^ w - 1 else 2 ^ (w - 1) - 1
/-- The nearest w-bit value. -/
def saturate (u : Bool) (w : Nat) (z : Int) : BitVec w := BitVec.ofInt w (max (least u w) (min (greatest u w) z))
/-- Position and length of a bit field (R200). -/
def fieldAt (c : Word) : Nat := c.toNat % 64
def fieldLen (w : Nat) (c : Word) : Nat := min (c.toNat / 64 % 64 + 1) (w - fieldAt c)
/-- The mask of that field. -/
def fieldMask (w : Nat) (c : Word) : BitVec w := (BitVec.allOnes (fieldLen w c)).setWidth w <<< fieldAt c
/-- hash64 (R201). -/
def hash (x seed : Word) : Word :=
  let h0 := x ^^^ (seed * 0x9E3779B97F4A7C15)
  let h1 := (h0 ^^^ (h0 >>> 30)) * 0xBF58476D1CE4E5B9
  let h2 := (h1 ^^^ (h1 >>> 27)) * 0x94D049BB133111EB
  h2 ^^^ (h2 >>> 31)

/-- An integer entry: its constructor and opcode, and its result on one lane from the old d, a and b at width w, unsigned or not; the
last argument is b as a shift count or a field reads it (R199, R200). -/
structure IntEntry where
  make : Fields → Instr
  op : Nat
  result : (w : Nat) → Bool → BitVec w → BitVec w → BitVec w → Word → BitVec w

/-- `ADD` to `CLAMP` (R197, R198). -/
def arithmetic : List IntEntry :=
  [⟨.add, 0x10, fun _ _ _ a b _ => a + b⟩,
   ⟨.sub, 0x11, fun _ _ _ a b _ => a - b⟩,
   ⟨.mul, 0x12, fun _ _ _ a b _ => a * b⟩,
   ⟨.mulh, 0x13, fun w u _ a b _ => BitVec.ofInt w (value u a * value u b / 2 ^ w)⟩,
   ⟨.mad, 0x14, fun _ _ d a b _ => d + a * b⟩,
   ⟨.div, 0x15, fun w u _ a b _ => if b = 0 then BitVec.allOnes w else if u then a.udiv b else a.sdiv b⟩,
   ⟨.rem, 0x16, fun _ u _ a b _ => if b = 0 then a else if u then a.umod b else a.srem b⟩,
   ⟨.abs, 0x17, fun _ _ _ a _ _ => if a.msb then -a else a⟩,
   ⟨.min, 0x18, fun _ u _ a b _ => if value u a ≤ value u b then a else b⟩,
   ⟨.max, 0x19, fun _ u _ a b _ => if value u a ≤ value u b then b else a⟩,
   ⟨.adds, 0x1A, fun w u _ a b _ => saturate u w (value u a + value u b)⟩,
   ⟨.subs, 0x1B, fun w u _ a b _ => saturate u w (value u a - value u b)⟩,
   ⟨.avg, 0x1C, fun w u _ a b _ => BitVec.ofInt w ((value u a + value u b + 1) / 2)⟩,
   ⟨.sad, 0x1D, fun w u d a b _ => d + BitVec.ofNat w (value u a - value u b).natAbs⟩,
   ⟨.clamp, 0x1E, fun _ u d a b _ =>
     let low := if value u d ≤ value u a then a else d
     if value u low ≤ value u b then low else b⟩]

/-- `AND` to `MIX` (R197, R199 to R201). -/
def logic : List IntEntry :=
  [⟨.and, 0x20, fun _ _ _ a b _ => a &&& b⟩,
   ⟨.or, 0x21, fun _ _ _ a b _ => a ||| b⟩,
   ⟨.xor, 0x22, fun _ _ _ a b _ => a ^^^ b⟩,
   ⟨.andn, 0x23, fun _ _ _ a b _ => a &&& ~~~b⟩,
   ⟨.shl, 0x24, fun w _ _ a _ c => if c.toNat < w then a <<< c.toNat else 0⟩,
   ⟨.shr, 0x25, fun w _ _ a _ c => if c.toNat < w then a >>> c.toNat else 0⟩,
   ⟨.sar, 0x26, fun w _ _ a _ c => a.sshiftRight (min c.toNat w)⟩,
   ⟨.rol, 0x27, fun _ _ _ a _ c => a.rotateLeft c.toNat⟩,
   ⟨.clz, 0x28, fun w _ _ a _ _ => BitVec.ofNat w (if a = 0 then w else w - 1 - Nat.log2 a.toNat)⟩,
   ⟨.popc, 0x29, fun w _ _ a _ _ => BitVec.ofNat w ((List.range w).countP a.getLsbD)⟩,
   ⟨.brev, 0x2A, fun _ _ _ a _ _ => a.reverse⟩,
   ⟨.ext, 0x2B, fun w u _ a _ c =>
     if w ≤ fieldAt c then 0 else
       let x := (a >>> fieldAt c).setWidth (fieldLen w c)
       if u then x.setWidth w else x.signExtend w⟩,
   ⟨.ins, 0x2C, fun w _ d a _ c =>
     if w ≤ fieldAt c then d else (d &&& ~~~fieldMask w c) ||| ((a <<< fieldAt c) &&& fieldMask w c)⟩,
   ⟨.hash, 0x2D, fun w _ _ a _ c => (hash (a.setWidth 64) c).setWidth w⟩,
   ⟨.mix, 0x2E, fun w _ d a _ c => (hash (d.setWidth 64 ^^^ a.setWidth 64) c).setWidth w⟩]

/-- Lane i of a v register at a width. -/
def lane (w : Nat) (x : Line) (i : Nat) : BitVec w := x.extractLsb' (w * i) w

/-- An entry's scalar shape: every source, every destination, ports included. -/
def scalarStep (e : IntEntry) : Prop :=
  ∀ (f : Fields) (s s1 s2 t : State) (a b : Word), s.issues e.op f → (∀ n, f.d ≠ .v n) →
    s.src f.a = .ok (a, s1) → s1.src f.b = .ok (b, s2) →
    s2.dst f.d (widen f.unsigned (e.result f.width f.unsigned ((s.oldG f.d).setWidth _) (a.setWidth _) (b.setWidth _) b)) = .ok t →
    exec (e.make f) s = .next t.retire

/-- An entry's vector shape, lane by lane. -/
def vectorStep (e : IntEntry) : Prop :=
  ∀ (f : Fields) (s s1 : State) (n : BitVec 5) (b : List Nat), s.issues e.op f → f.d = .v n → s.laneB f.b f.width = .ok (b, s1) →
    ∃ y : Line, exec (e.make f) s = .next (s1.setMe (s1.me.writeV n y)).retire ∧
      ∀ i, i < 512 / f.width →
        lane f.width y i = e.result f.width f.unsigned (lane f.width (s.me.readV n) i) (lane f.width (s.srcV f.a) i)
          (BitVec.ofNat _ (b.getD i 0)) (word (b.getD i 0))

end Sys2Proof.Claims

open Sys2Proof Sys2Proof.Machine Sys2Proof.Num Sys2Proof.Claims

/-- R187, R188, R197 to R201: every integer entry in the scalar shape. That `EXT` and `INS` of 8 bits read position and length from the
whole of B is the model's reading (log 122). -/
def Obligations.ScalarIntegerResults : Prop := ∀ e ∈ arithmetic ++ logic, scalarStep e
/-- R187, R188, R197 to R201: every integer entry acts lane by lane in the vector shape. That `EXT` and `INS` of 8-bit lanes read a length
of 0 is the model's reading (log 122). -/
def Obligations.VectorIntegerResults : Prop := ∀ e ∈ arithmetic ++ logic, vectorStep e

/-! ### Issue, faults and traps (R40, R172, R177, R182 to R184, R306) -/

/-- R40, R172, R313: completing moves the pc and counts, and changes nothing else; a stalled slot keeps every register, its pc and its
count. -/
def Obligations.RetiringAndStalling : Prop :=
  (∀ (s : State) (pc : Word), s.Slotwise (s.retireTo pc) (s.me.retired pc)) ∧
  (∀ (s : State) (w : Stall), ∃ w' b, (s.stallMe w).me = { s.me with st := .stalled, stall := some w', spilling := b } ∧
    (s.stallMe w).mem = s.mem ∧ (s.stallMe w).full = s.full)

/-- R174, R177, R183: whichever instruction it is, the first of checks 1 to 6 that fails is an exact fault; where none fails and the guard
does not hold, the instruction has no effect: it is counted, and the next one follows. One whose D names a port that it also reads, and
that has no room, stalls before it reads. -/
def Obligations.ChecksAtIssue : Prop :=
  ∀ (i : Instr) (op : BitVec 8) (f : Fields) (s : State), i.word? = some (op, f) →
    (∀ (c : Nat) (v a : Word), s.preCheck op.toNat f = some (c, v, a) → exec i s = .next (s.takeExact c v a)) ∧
    (s.preCheck op.toNat f = none → s.me.guard f = false → ∃ t, exec i s = .next t ∧ s.Slotwise t (s.me.retired (s.me.pc + 12))) ∧
    (∀ w, s.preCheck op.toNat f = none → s.me.guard f = true → s.pushBlocked op.toNat f = some w → exec i s = .next (s.stallMe w))

/-- R182, R183 check 1: a reserved opcode, or a privileged one in a firing that is not privileged, is a fault of cause 0x01 whose TRAPVAL
is the opcode. Where the manual gives no trap value (a fetch past the end of the code), it is a free value (log 17). -/
def Obligations.IllegalOpcodesFault : Prop :=
  (∀ (op : BitVec 8) (f : Fields) (s : State), formsOf op.toNat = [] →
    exec (.illegalInstruction (.reserved op f)) s = .next (s.takeExact 0x01 (word op.toNat) 0)) ∧
  (∀ (i : Instr) (op : BitVec 8) (f : Fields) (s : State), i.word? = some (op, f) → privilegedOp op.toNat f = true → s.privileged = false →
    exec i s = .next (s.takeExact 0x01 (word op.toNat) 0)) ∧
  (∀ s : State, exec (.illegalInstruction .pastEnd) s = .next (s.drew.takeExact 0x01 s.free s.me.pc))

/-- R40, R184: an exact fault of a firing that may trap enters the image's trap handler in the same slot. The trap registers are set, every
other register stands, and nothing but the slot changes; a full/empty access that the slot waited for is given up. -/
def Obligations.ExactFaultEntersTheTrapHandler : Prop :=
  ∀ (s : State) (h c : Nat) (v a : Word), s.privileged = false → s.me.kind ≠ .surrender → s.me.kind ≠ .wrapup → s.me.kind ≠ .trap →
    s.me.inTrap = false → s.trapHandler s.cur = some h →
    s.forgetWait.Slotwise (s.takeExact c v a) { s.me with
      inTrap := true
      spilling := false
      trapCause := word c
      trapPc := s.me.pc
      trapVal := v
      trapAddr := a
      pc := word (s.here.handler h).entry }

/-- R58, R59, R148: where no trap handler can run, an exact fault ends the launch with status 4 and the cause as its class. -/
def Obligations.ExactFaultEndsTheLaunch : Prop :=
  ∀ (s : State) (l : Launch) (c : Nat) (v a : Word), s.privileged = false → s.me.kind ≠ .surrender →
    (s.me.kind = .wrapup ∨ s.me.kind = .trap ∨ s.me.inTrap = true ∨ s.trapHandler s.cur = none) →
    s.launch? s.me.launch = some l → l.phase ≠ .ending →
    ∃ l', (s.takeExact c v a).launch? s.me.launch = some l' ∧ l'.phase = .ending ∧ l'.status = 4 ∧ l'.cls = c ∧ l'.place = s.cur ∧
      l'.value = faultValue c v a

/-- R306: `RFT` in an in-slot trap resumes at the trapped instruction, or after it under .skip or where the trap was `SENDT`'s, `TRAP`'s or
`BRK`'s; nothing but the slot changes. In a trap firing it ends the firing. -/
def Obligations.ReturnFromTrapResumes : Prop :=
  ∀ (f : Fields) (s : State), s.issues 0xE1 f →
    (s.me.inTrap = true → ∃ t, exec (.rft f) s = .next t ∧ s.Slotwise t (({ s.me with inTrap := false } : Slot).retired
      (if f.modf.getLsbD 0 = true ∨ s.me.trapCause = 0x11 ∨ s.me.trapCause = 0x14 then s.me.trapPc + 12 else s.me.trapPc))) ∧
    (s.me.inTrap = false → exec (.rft f) s = .next (s.retire.endFiring s.cur s.curSlot))

/-! ### Operands (R90, R173, R174, R187, R189) -/

/-- R90, R92, R173, R174, R189: what a source gives and a destination takes, for g, v, p, w and m registers, k ports, immediates, memory
operands and no operand; g0, p0 and w0 read as constants and discard writes. A tagged word at a channel with a light handler calls it, with
the word in g30 and the return address in g31. -/
def Obligations.OperandsReadAndWrite : Prop :=
  (∀ (s : State) (n : BitVec 5), s.src (.g n) = .ok (if n = 0 then 0 else s.me.g[n.toNat], s)) ∧
  (∀ (s : State) (x : BitVec 17), s.src (.imm x) = .ok (x.signExtend 64, s)) ∧
  (∀ s : State, s.src .none = .ok (0, s)) ∧
  (∀ (s : State) (p : BitVec 3), s.peekPort p.toNat = none → s.src (.port p) = .error (.stall (.portEmpty p.toNat))) ∧
  (∀ (s : State) (p : BitVec 3) (q : QWord), s.peekPort p.toNat = some q → (q.tag = false ∨ s.lightOf p.toNat = none) →
    s.src (.port p) = .ok (q.word, s.afterPop p.toNat)) ∧
  (∀ (s : State) (p : BitVec 3) (q : QWord) (h : Nat), s.peekPort p.toNat = some q → q.tag = true → s.lightOf p.toNat = some h →
    ∃ t, s.src (.port p) = .error (.light t) ∧ (let u := s.afterPop p.toNat
      u.Slotwise t (({ (u.me.writeG 31 (u.me.pc + 12)).writeG 30 q.word with light := true, lightRet := u.me.pc + 12 } : Slot).retired
        (word (u.here.handler h).entry)))) ∧
  (∀ (s : State) (n : BitVec 5), s.srcV (.v n) = s.me.v[n.toNat]) ∧
  (∀ (s : State) (n : BitVec 3), s.srcP (.p n) = if n = 0 then true else s.me.p[n.toNat]) ∧
  (∀ (s : State) (n : BitVec 3), s.srcW (.w n) = if n = 0 then BitVec.allOnes 64 else s.me.w[n.toNat]) ∧
  (∀ (s : State) (n : BitVec 2), s.srcM (.m n) = s.me.m[n.toNat]) ∧
  (∀ (s : State) (n : BitVec 5) (x : Word), ∃ t, s.dst (.g n) x = .ok t ∧ s.OnlySlot t ∧
    (∀ m, t.me.readG m = if m = n ∧ n ≠ 0 then x else s.me.readG m) ∧ t.me = { s.me with g := t.me.g }) ∧
  (∀ (s : State) (p : BitVec 3) (x : Word), s.dst (.port p) x = s.push p.toNat x) ∧
  (∀ (s : State) (x : Word), s.dst .none x = .ok s) ∧
  (∀ (s : State) (n : BitVec 5) (x : Line), ∃ t, s.dstV (.v n) x = t ∧ s.OnlySlot t ∧
    (∀ m, t.me.readV m = if m = n then x else s.me.readV m) ∧ t.me = { s.me with v := t.me.v }) ∧
  (∀ (s : State) (n : BitVec 3) (x : Bool), ∃ t, s.dstP (.p n) x = t ∧ s.OnlySlot t ∧
    (∀ m, t.me.readP m = if m = n ∧ n ≠ 0 then x else s.me.readP m) ∧ t.me = { s.me with p := t.me.p }) ∧
  (∀ (s : State) (n : BitVec 3) (x : Word), ∃ t, s.dstW (.w n) x = t ∧ s.OnlySlot t ∧
    (∀ m, t.me.readW m = if m = n ∧ n ≠ 0 then x else s.me.readW m) ∧ t.me = { s.me with w := t.me.w }) ∧
  (∀ (s : State) (n : BitVec 2) (x : Members), ∃ t, s.dstM (.m n) x = t ∧ s.OnlySlot t ∧
    (∀ m, t.me.readM m = if m = n then x else s.me.readM m) ∧ t.me = { s.me with m := t.me.m }) ∧
  (∀ (s : State) (b : BitVec 5) (o : BitVec 12) (n : Nat), s.addr (.mem b o) n = s.me.readG b + o.signExtend 64 * word n)

/-- R90, R91, R187, R271: what the ports k4 to k7 give and take. A pop takes the oldest word of its ring queue, of the completion queue, or
the firing's task word and then the oldest entry of its launch. A push at k4 or k5 with room sends the word, untagged, towards the neighbour;
one at k6 adds to the firing's command, which its last word issues; one at k7 enters a task. A push without room stalls. -/
def Obligations.RingPortsPopAndPush : Prop :=
  (∀ (s : State) (q : QWord) (r : List QWord), s.here.ring4 = q :: r → s.peekPort 4 = some q ∧ s.afterPop 4 = (s.setHere { s.here with ring4 := r }).acquired q.seen) ∧
  (∀ (s : State) (q : QWord) (r : List QWord), s.here.ring5 = q :: r → s.peekPort 5 = some q ∧ s.afterPop 5 = (s.setHere { s.here with ring5 := r }).acquired q.seen) ∧
  (∀ (s : State) (q : QWord) (r : List QWord), s.here.completions = q :: r → s.peekPort 6 = some q ∧
    s.afterPop 6 = (s.setHere { s.here with completions := r, complUsed := s.here.complUsed - 1 }).acquired q.seen) ∧
  (∀ (s : State) (w : Word), s.me.task = some w → s.peekPort 7 = some ⟨w, false, s.me.launch, []⟩ ∧
    s.afterPop 7 = s.setMe { s.me with task := none }) ∧
  (∀ (s : State) (x : Task), s.me.task = none → s.here.tasks.find? (fun t => t.launch == s.me.launch) = some x →
    s.peekPort 7 = some ⟨x.word, false, s.me.launch, x.seen⟩ ∧ (s.afterPop 7).here.tasks = s.here.tasks.erase x) ∧
  (∀ (s : State) (x : Word), s.here.ringOut4.length + (s.core (succOf s.cur)).ring5.length < 16 → ∃ t, s.push 4 x = .ok t ∧
    t.here = { s.here with ringOut4 := s.here.ringOut4 ++ [⟨x, false, s.me.launch, s.given⟩] }) ∧
  (∀ (s : State) (x : Word), ¬ s.here.ringOut4.length + (s.core (succOf s.cur)).ring5.length < 16 → s.push 4 x = .error (.stall (.portFull 4))) ∧
  (∀ (s : State) (x : Word), s.here.ringOut5.length + (s.core (predOf s.cur)).ring4.length < 16 → ∃ t, s.push 5 x = .ok t ∧
    t.here = { s.here with ringOut5 := s.here.ringOut5 ++ [⟨x, false, s.me.launch, s.given⟩] }) ∧
  (∀ (s : State) (x : Word), ¬ s.here.ringOut5.length + (s.core (predOf s.cur)).ring4.length < 16 → s.push 5 x = .error (.stall (.portFull 5))) ∧
  (∀ (s : State) (x : Word) (words : List Word), words = s.me.cmd ++ [x] → words.length ≤ 16 →
    (let m := (words.getD 1 0).toNat / 2 ^ 24 % 16
     ((words.length = 1 ∨ words.length < m + 3) → s.push 6 x = .ok (s.setMe { s.me with cmd := words })) ∧
     (∀ t, words.length ≠ 1 → m + 3 ≤ words.length → (s.setMe { s.me with cmd := [] }).sendCommand (words.getD 0 0) (words.getD 0 0 == 0) (words.getD 1 0)
       ((words.drop 2).take m) (words.getD (m + 2) 0) = .ok t → s.push 6 x = .ok t))) ∧
  (∀ (s : State) (x : Word), 16 ≤ s.me.cmd.length → s.push 6 x = .error (.stall (.portFull 6))) ∧
  (∀ (s : State) (x : Word), s.here.tasks.length < 32 → ∃ t, s.push 7 x = .ok t ∧
    t.here.tasks = s.here.tasks ++ [⟨s.me.handler, x, s.me.launch, s.given⟩] ∧ t.me = s.me ∧ t.mem = s.mem) ∧
  (∀ (s : State) (x : Word), ¬ s.here.tasks.length < 32 → s.push 7 x = .error (.stall (.portFull 7)))

/-! ### Control (R190 to R196) -/

namespace Sys2Proof.Claims

/-- An instruction completes and changes only its slot, to x with the pc past it. -/
def steps (i : Instr) (s : State) (x : Slot) : Prop := ∃ t, exec i s = .next t ∧ s.Slotwise t (x.retired (s.me.pc + 12))

/-- A transfer of control to an offset, with the slot's registers as x: a multiple of 12, else an exact fault (R172). -/
def transfers (i : Instr) (s : State) (x : Slot) (target : Int) : Prop :=
  if target % 12 = 0 then ∃ t, exec i s = .next t ∧ s.Slotwise t (x.retired (BitVec.ofInt 64 target))
  else exec i s = .next (s.takeExact 0x06 12 (BitVec.ofInt 64 target))

/-- PC + 12 × n. -/
def relative (s : State) (n : Int) : Int := s.me.pc.toNat + 12 * n

end Sys2Proof.Claims

/-- R190, R192, R247: `NOP` and `YIELD` change nothing but the pc; `FENCE` counts a demotion where R116 asks for one, and
orders what its modifier names; that this bears on path 0x1 alone is the model's reading (log 14). -/
def Obligations.NopYieldFence : Prop :=
  (∀ (f : Fields) (s : State), s.issues 0x00 f → steps (.nop f) s s.me) ∧
  (∀ (f : Fields) (s : State), s.issues 0x07 f → steps (.yield f) s s.me) ∧
  (∀ (f : Fields) (s : State), s.issues 0x94 f →
    exec (.fence f) s = .next ((s.demote (f.modf.getLsbD 6 && f.modf.extractLsb' 3 3 == 4)).fence f.modf.toNat).retire)

/-- R172, R190, R191: where each transfer goes, what it writes, and the fault of a target that is no multiple of 12. That a relative target
below 0 is taken modulo 2^64 is the model's reading (log 20). -/
def Obligations.ControlTransfers : Prop :=
  (∀ (f : Fields) (s : State) (x : BitVec 17), s.issues 0x01 f → f.a = .imm x → transfers (.bra f) s s.me (relative s x.toInt)) ∧
  (∀ (f : Fields) (s : State) (n : BitVec 5), s.issues 0x02 f → f.a = .g n → transfers (.jmp f) s s.me (s.me.readG n).toNat) ∧
  (∀ (f : Fields) (s : State) (d : BitVec 5) (x : BitVec 17), s.issues 0x03 f → f.d = .g d → f.a = .imm x →
    transfers (.call f) s (s.me.writeG d (s.me.pc + 12)) (relative s x.toInt)) ∧
  (∀ (f : Fields) (s : State) (d n : BitVec 5), s.issues 0x03 f → f.d = .g d → f.a = .g n →
    transfers (.call f) s (s.me.writeG d (s.me.pc + 12)) (s.me.readG n).toNat) ∧
  (∀ (f : Fields) (s : State) (n : BitVec 5), s.issues 0x04 f → (f.a = .g n ∨ (f.a = .none ∧ n = 31)) →
    transfers (.ret f) s (if s.me.light = true ∧ s.me.readG n = s.me.lightRet then { s.me with light := false } else s.me) (s.me.readG n).toNat) ∧
  (∀ (f : Fields) (s : State) (d : BitVec 5) (x : BitVec 17), s.issues 0x05 f → f.d = .g d → f.a = .imm x →
    if s.me.readG d - 1 = 0 then steps (.loop f) s (s.me.writeG d 0)
    else transfers (.loop f) s (s.me.writeG d (s.me.readG d - 1)) (relative s x.toInt)) ∧
  (∀ (f : Fields) (s : State) (n : BitVec 5) (x : BitVec 17), s.issues 0x08 f → f.a = .g n → f.b = .imm x →
    if x.toInt < 0 then exec (.jtab f) s = .next (s.takeExact 0x02 4 0)
    else transfers (.jtab f) s s.me (relative s (1 + (min (s.me.readG n).toNat x.toNat : Nat))))

/-- R39, R192, R193: `END` counts and ends its firing, whose slot is then Free; `TRAP` takes the exact fault of cause 0x14 with its operand
as TRAPVAL, and `BRK` with bit 63 set. -/
def Obligations.EndTrapAndBreak : Prop :=
  (∀ (f : Fields) (s : State), s.issues 0x06 f →
    exec (.endFiring f) s = .next (s.retire.endFiring s.cur s.curSlot) ∧ ((s.retire.endFiring s.cur s.curSlot).slot s.cur s.curSlot).st = .free) ∧
  (∀ (f : Fields) (s s1 : State) (a : Word), s.issues 0x09 f → s.src f.a = .ok (a, s1) → exec (.trap f) s = .next (s.takeExact 0x14 a 0)) ∧
  (∀ (f : Fields) (s : State) (x : BitVec 17), s.issues 0x0C f → (f.a = .imm x ∨ (f.a = .none ∧ x = 0)) →
    exec (.brk f) s = .next (s.takeExact 0x14 (x.signExtend 64 ||| 0x8000000000000000) 0))

/-- R146, R192, R194, R195: a wait whose condition holds, or was seen to hold while it stalled, completes; one whose condition does not
hold stalls its slot. A `WAITB` of a wrap-up firing that begins at a quiet point ends at once, its barrier marked cancelled. -/
def Obligations.WaitsCompleteOrStall : Prop :=
  (∀ (f : Fields) (s s1 t : State) (b w : Word) (a : Nat), s.issues 0x0A f → s.checkLocal (s.addr f.a 16) 16 16 = .ok a →
    s.src f.b = .ok (b, s1) → immOutside f.b 0 1 = false → s1.scoreboarded a 16 = false → s1.badWord a 16 = none →
    (s1.me.met = some w ∨ (s1.me.met = none ∧ w = s1.wordAt a ∧ w.getLsbD 48 = b.getLsbD 0)) →
    (s1.waited a).dst f.d w = .ok t → exec (.waitb f) s = .next t.retire) ∧
  (∀ (f : Fields) (s s1 : State) (b : Word) (a : Nat), s.issues 0x0A f → s.checkLocal (s.addr f.a 16) 16 16 = .ok a →
    s.src f.b = .ok (b, s1) → immOutside f.b 0 1 = false → (s1.badWord a 16 = none ∨ s1.scoreboarded a 16 = true) → s1.me.met = none →
    (s1.wordAt a).getLsbD 48 ≠ b.getLsbD 0 → s1.me.kind ≠ .wrapup → exec (.waitb f) s = .next (s.stallMe (.barrier a (b.getLsbD 0)))) ∧
  (∀ (f : Fields) (s s1 t : State) (b : Word) (a : Nat), s.issues 0x0A f → s.checkLocal (s.addr f.a 16) 16 16 = .ok a →
    s.src f.b = .ok (b, s1) → immOutside f.b 0 1 = false → s1.scoreboarded a 16 = false → s1.badWord a 16 = none → s1.me.met = none →
    (s1.wordAt a).getLsbD 48 ≠ b.getLsbD 0 → s1.me.kind = .wrapup → s1.outstanding s1.me.launch = [] → s1.arrayBusy s1.me.launch = false →
    (let w := s1.wordAt a ||| 0x400000000000000
     ((s1.pokeWord a w).waitedShort a).dst f.d w = .ok t) → exec (.waitb f) s = .next t.retire) ∧
  (∀ (f : Fields) (s t : State) (p : BitVec 3) (n c : Word), s.issues 0x0B f → f.a = .port p →
    ((∃ m, f.b = .g m ∧ n = s.me.readG m) ∨ (∃ x, f.b = .imm x ∧ n = x.signExtend 64)) →
    immOutside f.b 1 1024 = false → n.toNat ≤ s.portDepth p.toNat → (s.me.met = some c ∨ (s.me.met = none ∧ c = word (s.portCount p.toNat))) →
    n.toNat ≤ c.toNat → s.dst f.d c = .ok t → exec (.waitc f) s = .next t.retire) ∧
  (∀ (f : Fields) (s : State) (p : BitVec 3) (n : Word), s.issues 0x0B f → f.a = .port p →
    ((∃ m, f.b = .g m ∧ n = s.me.readG m) ∨ (∃ x, f.b = .imm x ∧ n = x.signExtend 64)) →
    immOutside f.b 1 1024 = false → n.toNat ≤ s.portDepth p.toNat → s.me.met = none → s.portCount p.toNat < n.toNat →
    exec (.waitc f) s = .next (s.stallMe (.words p.toNat n.toNat))) ∧
  (∀ (f : Fields) (s s1 : State) (a : Word), s.issues 0x0D f → s.src f.a = .ok (a, s1) → immOutside f.a 0 65535 = false →
    (s1.me.wake = none ∧ a = 0 ∨ ∃ w, s1.me.wake = some w ∧ w ≤ s1.now) →
    exec (.sleep f) s = .next (s1.setMe { s1.me with wake := none }).retire) ∧
  (∀ (f : Fields) (s s1 : State) (a : Word), s.issues 0x0D f → s.src f.a = .ok (a, s1) → immOutside f.a 0 65535 = false →
    s1.me.wake = none → a ≠ 0 →
    ∃ t, exec (.sleep f) s = .next t ∧ t.mem = s1.mem ∧
      t.me = { s1.me with wake := some (s1.now + a.toNat), st := .stalled, stall := some (.sleep (s1.now + a.toNat)) })

/-! ### Moves and compares (R202 to R210) -/

/-- R202: `MOV` copies within a register file, and from any scalar source to any scalar destination. -/
def Obligations.MovCopies : Prop :=
  (∀ (f : Fields) (s s1 t : State) (a : Word), s.issues 0x30 f → (∃ n, f.d = .g n) ∨ (∃ n, f.d = .port n) →
    s.src f.a = .ok (a, s1) → s1.dst f.d a = .ok t → exec (.mov f) s = .next t.retire) ∧
  (∀ (f : Fields) (s : State) (d a : BitVec 5), s.issues 0x30 f → f.d = .v d → f.a = .v a → steps (.mov f) s (s.me.writeV d (s.me.readV a))) ∧
  (∀ (f : Fields) (s : State) (d a : BitVec 3), s.issues 0x30 f → f.d = .p d → f.a = .p a → steps (.mov f) s (s.me.writeP d (s.me.readP a))) ∧
  (∀ (f : Fields) (s : State) (d a : BitVec 3), s.issues 0x30 f → f.d = .w d → f.a = .w a → steps (.mov f) s (s.me.writeW d (s.me.readW a))) ∧
  (∀ (f : Fields) (s : State) (d a : BitVec 2), s.issues 0x30 f → f.d = .m d → f.a = .m a → steps (.mov f) s (s.me.writeM d (s.me.readM a)))

/-- R203, R204: `MOVH` replaces one chunk of D, 17 bits from 17 × c, or 13 bits in chunk 3, and no other bit; `SEL` takes A where the
predicate holds, else B, lane by lane in the vector form. -/
def Obligations.ChunksAndSelections : Prop :=
  (∀ (f : Fields) (s : State) (d : BitVec 5) (x : BitVec 17), s.issues 0x31 f → f.d = .g d → f.a = .imm x →
    ∃ y : Word, steps (.movh f) s (s.me.writeG d y) ∧
      ∀ i, i < 64 → y.getLsbD i =
        if 17 * (f.modf.toNat % 4) ≤ i ∧ i < 17 * (f.modf.toNat % 4) + 17 then x.getLsbD (i - 17 * (f.modf.toNat % 4)) else (s.me.readG d).getLsbD i) ∧
  (∀ (f : Fields) (s s1 s2 t : State) (a b : Word), s.issues 0x32 f → (∃ n, f.d = .g n) ∨ (∃ n, f.d = .port n) →
    s.src f.a = .ok (a, s1) → s1.src f.b = .ok (b, s2) → s2.dst f.d (if s2.me.readP (f.modf.extractLsb' 0 3) then a else b) = .ok t →
    exec (.sel f) s = .next t.retire) ∧
  (∀ (f : Fields) (s : State) (d a b : BitVec 3), s.issues 0x32 f → f.d = .p d → f.a = .p a → f.b = .p b →
    steps (.sel f) s (s.me.writeP d (if s.me.readP (f.modf.extractLsb' 0 3) then s.me.readP a else s.me.readP b))) ∧
  (∀ (f : Fields) (s s1 : State) (d a : BitVec 5) (b : List Nat), s.issues 0x32 f → f.d = .v d → f.a = .v a → s.laneB f.b f.width = .ok (b, s1) →
    ∃ y : Line, exec (.sel f) s = .next (s1.setMe (s1.me.writeV d y)).retire ∧ ∀ i, i < 512 / f.width →
      lane f.width y i = if (s1.me.readW (f.modf.extractLsb' 0 3)).getLsbD i then lane f.width (s1.me.readV a) i else BitVec.ofNat _ (b.getD i 0))

namespace Sys2Proof.Claims

/-- SEED after a result, and the state that holds it. -/
def seeded (s : State) (l : BitVec 32) : State := s.setHere { s.here with seed := l }

/-- The conditions of R205 on two values of width w. -/
def condition (c : Nat) (u : Bool) (a b : BitVec w) : Bool :=
  match c with
  | 0 => a == b
  | 1 => a != b
  | 2 => decide (value u a < value u b)
  | 3 => decide (value u a ≤ value u b)
  | 4 => decide (value u b < value u a)
  | 5 => decide (value u b ≤ value u a)
  | _ => a &&& b != 0

end Sys2Proof.Claims

/-- R205: `CMP` sets its predicate, and `CMPV` one bit of its mask for each lane, by the condition on the low width of the operands; where
the modifier's [3:0] is no condition, an exact fault of cause 0x02. -/
def Obligations.ComparesSetPredicates : Prop :=
  (∀ e ∈ [(Instr.cmp, 0x33), (Instr.cmpv, 0x3E)], ∀ (f : Fields) (s : State), 7 ≤ f.modf.toNat % 16 → ∃ v, exec (e.1 f) s = .next (s.takeExact 0x02 v 0)) ∧
  (∀ (f : Fields) (s s1 s2 : State) (d : BitVec 3) (a b : Word), s.issues 0x33 f → f.d = .p d → s.src f.a = .ok (a, s1) → s1.src f.b = .ok (b, s2) →
    exec (.cmp f) s = .next (s2.setMe (s2.me.writeP d
      (condition (f.modf.toNat % 8) f.unsigned (a.setWidth f.width) (b.setWidth f.width)))).retire) ∧
  (∀ (f : Fields) (s s1 : State) (d : BitVec 3) (a : BitVec 5) (b : List Nat), s.issues 0x3E f → f.d = .w d → f.a = .v a →
    s.laneB f.b f.width = .ok (b, s1) → ∃ y : Word, exec (.cmpv f) s = .next (s1.setMe (s1.me.writeW d y)).retire ∧
      ∀ i, i < 64 → y.getLsbD i = (decide (i < 512 / f.width) &&
        condition (f.modf.toNat % 8) f.unsigned (lane f.width (s1.me.readV a) i) (BitVec.ofNat f.width (b.getD i 0))))

/-- R206: `PAND`, `POR` and `PXOR` on predicates and on lane masks, B complemented where the modifier asks; p0 and w0 discard writes. Mixed
files, and a modifier with a bit above [0], are an exact fault of cause 0x02. -/
def Obligations.PredicateLogic : Prop :=
  ∀ e ∈ [(Instr.pand, 0x34, and, (· &&& · : Word → Word → Word)), (Instr.por, 0x35, or, (· ||| ·)), (Instr.pxor, 0x36, xor, (· ^^^ ·))],
    ∀ (f : Fields) (s : State),
      (s.issues e.2.1 f → (∀ d a b : BitVec 3, f.d = .p d → f.a = .p a → f.b = .p b →
        steps (e.1 f) s (s.me.writeP d (e.2.2.1 (s.me.readP a) (s.me.readP b ^^ f.modf.getLsbD 0)))) ∧
      (∀ d a b : BitVec 3, f.d = .w d → f.a = .w a → f.b = .w b →
        steps (e.1 f) s (s.me.writeW d (e.2.2.2 (s.me.readW a) (if f.modf.getLsbD 0 then ~~~ s.me.readW b else s.me.readW b))))) ∧
      ((2 ≤ f.modf.toNat ∨ ((∀ d a b, f.d = .p d → f.a = .p a → f.b ≠ .p b) ∧ (∀ d a b, f.d = .w d → f.a = .w a → f.b ≠ .w b))) →
        ∃ v, exec (e.1 f) s = .next (s.takeExact 0x02 v 0))

/-- R166, R207 to R209: `LEA` gives the address; `MOVS` reads the listed registers and writes SEED, which is never 0; `MOVW` moves a word
between files. -/
def Obligations.MovesBetweenFiles : Prop :=
  (∀ (f : Fields) (s : State) (d b : BitVec 5) (o : BitVec 12), s.issues 0x37 f → f.d = .g d → f.a = .mem b o →
    steps (.lea f) s (s.me.writeG d (s.me.readG b + o.signExtend 64 * word (f.width / 8)))) ∧
  (∀ (f : Fields) (s : State) (d : BitVec 5) (n : BitVec 17), s.issues 0x38 f → f.d = .g d → f.a = .sys n →
    ∃ t x, exec (.movs f) s = .next t ∧ t.me = (s.me.writeG d x).retired (s.me.pc + 12) ∧ t.mem = s.mem ∧ ∀ v, s.sysRead n.toNat = some v → x = v) ∧
  (∀ (f : Fields) (s : State) (a : BitVec 5), s.issues 0x38 f → f.d = .sys 0x41 → f.a = .g a →
    ∃ t, exec (.movs f) s = .next t ∧ t.me = s.me.retired (s.me.pc + 12) ∧ t.mem = s.mem ∧
      t.here.seed = if (s.me.readG a).setWidth 32 = (0 : BitVec 32) then 1 else (s.me.readG a).setWidth 32) ∧
  (∀ (f : Fields) (s : State) (d : BitVec 5) (a : BitVec 3), s.issues 0x39 f → f.d = .g d →
    (f.a = .w a → steps (.movw f) s (s.me.writeG d (s.me.readW a))) ∧
    (f.a = .p a → steps (.movw f) s (s.me.writeG d (if s.me.readP a then 1 else 0)))) ∧
  (∀ (f : Fields) (s : State) (d : BitVec 3) (a : BitVec 5), s.issues 0x39 f → f.a = .g a → f.b = .none →
    (f.d = .w d → steps (.movw f) s (s.me.writeW d (s.me.readG a))) ∧
    (f.d = .p d → steps (.movw f) s (s.me.writeP d (s.me.readG a != 0)))) ∧
  (∀ (f : Fields) (s : State) (d : BitVec 5) (a : BitVec 2) (x : BitVec 17), s.issues 0x39 f → f.d = .g d → f.a = .m a → f.b = .imm x →
    x.toNat ≤ 3 → ∃ y : Word, steps (.movw f) s (s.me.writeG d y) ∧ ∀ i, i < 64 → y.getLsbD i = (s.me.readM a).getLsbD (64 * x.toNat + i)) ∧
  (∀ (f : Fields) (s : State) (d : BitVec 2) (a : BitVec 5) (x : BitVec 17), s.issues 0x39 f → f.d = .m d → f.a = .g a → f.b = .imm x →
    x.toNat ≤ 3 → ∃ y : Members, steps (.movw f) s (s.me.writeM d y) ∧
      ∀ i, i < 256 → y.getLsbD i = if i / 64 = x.toNat then (s.me.readG a).getLsbD (i % 64) else (s.me.readM d).getLsbD i) ∧
  (∀ (f : Fields) (s t : State), s.issues 0x37 f → s.dst f.d (s.addr f.a (f.width / 8)) = .ok t → exec (.lea f) s = .next t.retire) ∧
  (∀ (f : Fields) (s t : State) (n : BitVec 17) (v : Word), s.issues 0x38 f → f.a = .sys n → s.sysRead n.toNat = some v → s.dst f.d v = .ok t →
    exec (.movs f) s = .next t.retire) ∧
  (∀ (f : Fields) (s s1 : State) (n : BitVec 17) (a : Word), s.issues 0x38 f → f.d = .sys n → s.src f.a = .ok (a, s1) →
    ∃ l : BitVec 32, exec (.movs f) s = .next (seeded s1 l).retire ∧ l = if a.setWidth 32 = (0 : BitVec 32) then 1 else a.setWidth 32) ∧
  (∀ (f : Fields) (s t : State) (a : BitVec 3), s.issues 0x39 f → f.a = .w a → s.dst f.d (s.me.readW a) = .ok t → exec (.movw f) s = .next t.retire) ∧
  (∀ (f : Fields) (s t : State) (a : BitVec 3), s.issues 0x39 f → f.a = .p a → s.dst f.d (if s.me.readP a then 1 else 0) = .ok t →
    exec (.movw f) s = .next t.retire) ∧
  (∀ (f : Fields) (s s1 : State) (d : BitVec 3) (a : Word), s.issues 0x39 f → f.d = .w d → s.src f.a = .ok (a, s1) → f.b = .none →
    exec (.movw f) s = .next (s1.setMe (s1.me.writeW d a)).retire) ∧
  (∀ (f : Fields) (s s1 : State) (d : BitVec 3) (a : Word), s.issues 0x39 f → f.d = .p d → s.src f.a = .ok (a, s1) → f.b = .none →
    exec (.movw f) s = .next (s1.setMe (s1.me.writeP d (a != 0))).retire) ∧
  (∀ (f : Fields) (s s1 t : State) (a : BitVec 2) (b : Word), s.issues 0x39 f → f.a = .m a → s.src f.b = .ok (b, s1) → immOutside f.b 0 3 = false →
    s1.dst f.d ((s1.me.readM a).extractLsb' (64 * (b.toNat % 4)) 64) = .ok t → exec (.movw f) s = .next t.retire) ∧
  (∀ (f : Fields) (s s1 s2 : State) (d : BitVec 2) (a b : Word), s.issues 0x39 f → f.d = .m d → s.src f.a = .ok (a, s1) → s1.src f.b = .ok (b, s2) →
    immOutside f.b 0 3 = false → ∃ y : Members, exec (.movw f) s = .next (s2.setMe (s2.me.writeM d y)).retire ∧
      ∀ i, i < 256 → y.getLsbD i = if i / 64 = b.toNat % 4 then a.getLsbD (i % 64) else (s2.me.readM d).getLsbD i)

/-- R210: `IOTA`, `BCAST`, `EXTL` and `INSL`, lane by lane. -/
def Obligations.LaneMoves : Prop :=
  (∀ (f : Fields) (s s1 s2 : State) (d : BitVec 5) (a b : Word), s.issues 0x3A f → f.d = .v d → s.src f.a = .ok (a, s1) → s1.src f.b = .ok (b, s2) →
    ∃ y : Line, exec (.iota f) s = .next (s2.setMe (s2.me.writeV d y)).retire ∧
      ∀ i, i < 512 / f.width → lane f.width y i = (a + word i * (if f.b = .none then 1 else b)).setWidth f.width) ∧
  (∀ (f : Fields) (s s1 : State) (d : BitVec 5) (a : Word), s.issues 0x3B f → f.d = .v d → (∀ n, f.a ≠ .v n) → s.src f.a = .ok (a, s1) →
    ∃ y : Line, exec (.bcast f) s = .next (s1.setMe (s1.me.writeV d y)).retire ∧ ∀ i, i < 512 / f.width → lane f.width y i = a.setWidth f.width) ∧
  (∀ (f : Fields) (s s1 : State) (d a : BitVec 5) (b : Word), s.issues 0x3B f → f.d = .v d → f.a = .v a → s.src f.b = .ok (b, s1) →
    ∃ y : Line, exec (.bcast f) s = .next (s1.setMe (s1.me.writeV d y)).retire ∧
      ∀ i, i < 512 / f.width → lane f.width y i = lane f.width (s1.me.readV a) (b.toNat % (512 / f.width))) ∧
  (∀ (f : Fields) (s s1 t : State) (a : BitVec 5) (b : Word), s.issues 0x3C f → f.a = .v a → s.src f.b = .ok (b, s1) →
    s1.dst f.d (widen f.unsigned (lane f.width (s1.me.readV a) (b.toNat % (512 / f.width)))) = .ok t → exec (.extl f) s = .next t.retire) ∧
  (∀ (f : Fields) (s s1 s2 : State) (d : BitVec 5) (a b : Word), s.issues 0x3D f → f.d = .v d → s.src f.a = .ok (a, s1) → s1.src f.b = .ok (b, s2) →
    ∃ y : Line, exec (.insl f) s = .next (s2.setMe (s2.me.writeV d y)).retire ∧
      ∀ i, i < 512 / f.width → lane f.width y i =
        if i = b.toNat % (512 / f.width) then a.setWidth f.width else lane f.width (s2.me.readV d) i)

/-! ### Floating point (R211 to R223) -/

namespace Sys2Proof.Claims

/-- A float entry whose exact result is rounded: its exact value from the encodings of d, a and b. -/
structure FloatEntry where
  make : Fields → Instr
  op : Nat
  exact : Fields → Nat → Nat → Nat → XVal

/-- `FADD` to `FNMA`, and `FDIV` to `FTANH` (R211, R212). -/
def roundedEntries : List FloatEntry :=
  [⟨.fadd, 0x40, fun f _ a b => XVal.add (f.rnd == 2) (decodeFloat f.fmt a) (decodeFloat f.fmt b)⟩,
   ⟨.fsub, 0x41, fun f _ a b => XVal.add (f.rnd == 2) (decodeFloat f.fmt a) (decodeFloat f.fmt b).neg⟩,
   ⟨.fmul, 0x42, fun f _ a b => (decodeFloat f.fmt a).mul (decodeFloat f.fmt b)⟩,
   ⟨.fma, 0x43, fun f d a b => XVal.add (f.rnd == 2) ((decodeFloat f.fmt a).mul (decodeFloat f.fmt b)) (decodeFloat f.fmt d)⟩,
   ⟨.fms, 0x44, fun f d a b => XVal.add (f.rnd == 2) ((decodeFloat f.fmt a).mul (decodeFloat f.fmt b)) (decodeFloat f.fmt d).neg⟩,
   ⟨.fnma, 0x45, fun f d a b => XVal.add (f.rnd == 2) (decodeFloat f.fmt d) ((decodeFloat f.fmt a).mul (decodeFloat f.fmt b)).neg⟩,
   ⟨.fdiv, 0x4C, fun f _ a b => XVal.div (decodeFloat f.fmt a) (decodeFloat f.fmt b)⟩,
   ⟨.fsqrt, 0x4D, fun f _ a _ => (decodeFloat f.fmt a).sqrt⟩,
   ⟨.frcp, 0x4E, fun f _ a _ => (decodeFloat f.fmt a).recip⟩,
   ⟨.frsq, 0x4F, fun f _ a _ => (decodeFloat f.fmt a).rsqrt⟩,
   ⟨.fexp2, 0x50, fun f _ a _ => (decodeFloat f.fmt a).exp2⟩,
   ⟨.flog2, 0x51, fun f _ a _ => (decodeFloat f.fmt a).log2⟩,
   ⟨.ftanh, 0x52, fun f _ a _ => (decodeFloat f.fmt a).tanh⟩]

/-- A float entry whose result is an encoding as it stands. -/
structure RawEntry where
  make : Fields → Instr
  op : Nat
  result : Fields → Nat → Nat → Nat

/-- The sign bit of an encoding changed, NaN canonical and bf16 subnormals flushed (R213). -/
def signed (f : Fields) (a : Nat) (g : Bool → Bool) : Nat :=
  if isNanEnc f.fmt a then nanOf f.fmt
  else
    let x := BitVec.ofNat (fmtWidth f.fmt) (flush f.fmt a)
    x.toNat % 2 ^ (fmtWidth f.fmt - 1) + (g x.msb).toNat * 2 ^ (fmtWidth f.fmt - 1)

/-- `FMIN`, `FMAX`, `FABS`, `FNEG`, `FCLASS`, `FRND` (R213, R216, R219). -/
def rawEntries : List RawEntry :=
  [⟨.fmin, 0x46, fun f a b => fminmax f.fmt false a b⟩,
   ⟨.fmax, 0x47, fun f a b => fminmax f.fmt true a b⟩,
   ⟨.fabs, 0x48, fun f a _ => signed f a (fun _ => false)⟩,
   ⟨.fneg, 0x49, fun f a _ => signed f a not⟩,
   ⟨.fclass, 0x4B, fun f a _ => 2 ^ classOf f.fmt a⟩,
   ⟨.frnd, 0x57, fun f a _ => roundIntegral f.fmt f.rnd a⟩]

end Sys2Proof.Claims

/-- R164, R166, R211, R212: a rounded float entry's scalar result is its exact value rounded once, zero-extended, and SEED advances where
the mode is stochastic. The exact values of the transcendental entries are real functions, rounded as the model computes them (log 18). -/
def Obligations.ScalarFloatResults : Prop :=
  ∀ e ∈ roundedEntries, ∀ (f : Fields) (s s1 s2 t : State) (a b : Word), s.issues e.op f → (∀ n, f.d ≠ .v n) →
    s.src f.a = .ok (a, s1) → s1.src f.b = .ok (b, s2) →
    (seeded s2 (if f.rnd = 5 then advance s2.here.seed else s2.here.seed)).dst f.d
      (word (roundTo f.fmt f.rnd f.sat ((if f.rnd = 5 then advance s2.here.seed else s2.here.seed).toNat % 2 ^ 24)
        (e.exact f ((s2.oldG f.d).toNat % 2 ^ fmtWidth f.fmt) (a.toNat % 2 ^ fmtWidth f.fmt) (b.toNat % 2 ^ fmtWidth f.fmt)))) = .ok t →
    exec (e.make f) s = .next t.retire

/-- R164, R166, R211: in the vector shape every lane is rounded, in increasing order, SEED threaded through. The transcendental entries
are as log 18 says. -/
def Obligations.VectorFloatResults : Prop :=
  ∀ e ∈ roundedEntries, ∀ (f : Fields) (s s1 : State) (d a : BitVec 5) (b : List Nat), s.issues e.op f → f.d = .v d → f.a = .v a →
    s.laneB f.b (fmtWidth f.fmt) = .ok (b, s1) → b.length = 512 / fmtWidth f.fmt →
    exec (e.make f) s = .next
      (let r := roundAll f.fmt f.rnd f.sat s1.here.seed ((List.range (512 / fmtWidth f.fmt)).map (fun i =>
        e.exact f (lane (fmtWidth f.fmt) (s1.me.readV d) i).toNat (lane (fmtWidth f.fmt) (s1.me.readV a) i).toNat (b.getD i 0)));
       ((seeded s1 r.2).setMe ((seeded s1 r.2).me.writeV d (ofLanes (fmtWidth f.fmt) r.1))).retire)

/-- R213, R215, R216, R219: the float entries that round nothing or need no SEED, in both shapes; `FCMP` sets its predicate, or one mask
bit for each lane. -/
def Obligations.UnroundedFloatResults : Prop :=
  (∀ e ∈ rawEntries,
    (∀ (f : Fields) (s s1 s2 t : State) (a b : Word), s.issues e.op f → (∀ n, f.d ≠ .v n) → s.src f.a = .ok (a, s1) → s1.src f.b = .ok (b, s2) →
      s2.dst f.d (word (e.result f (a.toNat % 2 ^ fmtWidth f.fmt) (b.toNat % 2 ^ fmtWidth f.fmt))) = .ok t → exec (e.make f) s = .next t.retire) ∧
    (∀ (f : Fields) (s s1 : State) (d a : BitVec 5) (b : List Nat), s.issues e.op f → f.d = .v d → f.a = .v a →
      s.laneB f.b (fmtWidth f.fmt) = .ok (b, s1) → b.length = 512 / fmtWidth f.fmt → ∃ y : Line,
      exec (e.make f) s = .next (s1.setMe (s1.me.writeV d y)).retire ∧ ∀ i, i < 512 / fmtWidth f.fmt →
        lane (fmtWidth f.fmt) y i = BitVec.ofNat _ (e.result f (lane (fmtWidth f.fmt) (s1.me.readV a) i).toNat (b.getD i 0)))) ∧
  (∀ (f : Fields) (s s1 s2 : State) (d : BitVec 3) (a b : Word), s.issues 0x4A f → f.d = .p d → s.src f.a = .ok (a, s1) → s1.src f.b = .ok (b, s2) →
    exec (.fcmp f) s = .next (s2.setMe (s2.me.writeP d (floatCond (f.modf.toNat % 8) (f.modf.getLsbD 3) f.fmt
      (a.toNat % 2 ^ fmtWidth f.fmt) (b.toNat % 2 ^ fmtWidth f.fmt)))).retire) ∧
  (∀ (f : Fields) (s s1 : State) (d : BitVec 3) (a : BitVec 5) (b : List Nat), s.issues 0x4A f → f.d = .w d → f.a = .v a →
    s.laneB f.b (fmtWidth f.fmt) = .ok (b, s1) → b.length = 512 / fmtWidth f.fmt → ∃ y : Word,
    exec (.fcmp f) s = .next (s1.setMe (s1.me.writeW d y)).retire ∧ ∀ i, i < 64 → y.getLsbD i = (decide (i < 512 / fmtWidth f.fmt) &&
      floatCond (f.modf.toNat % 8) (f.modf.getLsbD 3) f.fmt (lane (fmtWidth f.fmt) (s1.me.readV a) i).toNat (b.getD i 0)))

namespace Sys2Proof.Claims

/-- One value rounded into a format by a modifier, from SEED as it stands; and SEED after it. -/
def roundOne (f : Fields) (fmt : Nat) (s : State) (v : XVal) : Nat × BitVec 32 := roundStep fmt f.rnd f.sat s.here.seed v

end Sys2Proof.Claims

/-- R214, R217, R218, R220, R232: scalar `FSCALE`, `FCVT`, `ITOF`, and `FDOT` and `VDIST`, by their exact values; and scalar `FTOI` within
range, rounded to an integer of 64 bits. -/
def Obligations.ScalarConversions : Prop :=
  (∀ (f : Fields) (s s1 s2 t : State) (a b : Word), s.issues 0x53 f → (∀ n, f.d ≠ .v n) → s.src f.a = .ok (a, s1) → s1.src f.b = .ok (b, s2) →
    (let r := roundOne f f.fmt s2 ((decodeFloat f.fmt (a.toNat % 2 ^ fmtWidth f.fmt)).scale b.toInt); (seeded s2 r.2).dst f.d (word r.1)) = .ok t →
    exec (.fscale f) s = .next t.retire) ∧
  (∀ (f : Fields) (s s1 t : State) (a : Word), s.issues 0x54 f → (∀ n, f.d ≠ .v n) → s.src f.a = .ok (a, s1) →
    (let r := roundOne f f.fmt s1 (decode (f.modf.toNat % 32) (a.toNat % 2 ^ fmtWidth (f.modf.toNat % 32))); (seeded s1 r.2).dst f.d (word r.1)) = .ok t →
    exec (.fcvt f) s = .next t.retire) ∧
  (∀ (f : Fields) (s s1 t : State) (a : Word), s.issues 0x56 f → (∀ n, f.d ≠ .v n) → s.src f.a = .ok (a, s1) →
    (let r := roundOne f f.fmt s1 (ofInt (value (f.modf.getLsbD 4) a)); (seeded s1 r.2).dst f.d (word r.1)) = .ok t →
    exec (.itof f) s = .next t.retire) ∧
  (∀ (f : Fields) (s s1 t : State) (a : Word), s.issues 0x55 f → (∀ n, f.d ≠ .v n) → s.src f.a = .ok (a, s1) →
    (let r := s1.roundedInts 64 (f.modf.getLsbD 4) f.rnd f.sat [decodeFloat f.fmt (a.toNat % 2 ^ fmtWidth f.fmt)]
     r.2.dst f.d (word (r.1.getD 0 0))) = .ok t → exec (.ftoi f) s = .next t.retire) ∧
  (∀ (f : Fields) (s t : State) (a b : BitVec 5), s.issues 0x58 f → f.a = .v a → f.b = .v b →
    (let r := roundOne f 0 s (xsum (f.rnd == 2) (f32 (s.oldG f.d).toNat :: (List.range (512 / fmtWidth f.fmt)).map (fun i =>
        (decodeFloat f.fmt (lane (fmtWidth f.fmt) (s.me.readV a) i).toNat).mul (decodeFloat f.fmt (lane (fmtWidth f.fmt) (s.me.readV b) i).toNat))))
     (seeded s r.2).dst f.d (word r.1)) = .ok t → exec (.fdot f) s = .next t.retire) ∧
  (∀ (f : Fields) (s t : State) (a b : BitVec 5), s.issues 0x6B f → f.a = .v a → f.b = .v b →
    (let terms := (List.range (512 / fmtWidth f.fmt)).map (fun i => distTerm (f.modf.getLsbD 0) f.fmt
        (lane (fmtWidth f.fmt) (s.me.readV a) i).toNat (lane (fmtWidth f.fmt) (s.me.readV b) i).toNat)
     let r := distChain f.rnd f.sat s.here.seed ((s.oldG f.d).toNat % 2 ^ 32) (groups terms.length (groupSize f.fmt f.fmt) terms)
     (seeded s r.2).dst f.d (word r.1)) = .ok t → exec (.vdist f) s = .next t.retire)

/-- R214, R217, R218: the vector forms of `FSCALE`, `FCVT`, `FTOI` and `ITOF`, lanes in increasing order; `FCVT` widens half j of A, or
narrows into half j of D and keeps the rest. -/
def Obligations.VectorConversions : Prop :=
  (∀ (f : Fields) (s : State) (d a : BitVec 5) (x : BitVec 17), s.issues 0x53 f → f.d = .v d → f.a = .v a → f.b = .imm x →
    exec (.fscale f) s = .next (let r := roundAll f.fmt f.rnd f.sat s.here.seed ((List.range (512 / fmtWidth f.fmt)).map (fun i =>
        (decodeFloat f.fmt (lane (fmtWidth f.fmt) (s.me.readV a) i).toNat).scale x.toInt));
      ((seeded s r.2).setMe ((seeded s r.2).me.writeV d (ofLanes (fmtWidth f.fmt) r.1))).retire)) ∧
  (∀ (f : Fields) (s s1 : State) (d a : BitVec 5) (b : List Nat), s.issues 0x53 f → f.d = .v d → f.a = .v a → (∀ x, f.b ≠ .imm x) →
    s.laneB f.b (fmtWidth f.fmt) = .ok (b, s1) → b.length = 512 / fmtWidth f.fmt →
    exec (.fscale f) s = .next (let r := roundAll f.fmt f.rnd f.sat s1.here.seed ((List.range (512 / fmtWidth f.fmt)).map (fun i =>
        (decodeFloat f.fmt (lane (fmtWidth f.fmt) (s1.me.readV a) i).toNat).scale (BitVec.ofNat (fmtWidth f.fmt) (b.getD i 0)).toInt));
      ((seeded s1 r.2).setMe ((seeded s1 r.2).me.writeV d (ofLanes (fmtWidth f.fmt) r.1))).retire)) ∧
  (∀ (f : Fields) (s s1 : State) (d a : BitVec 5) (b : Word), s.issues 0x54 f → f.d = .v d → f.a = .v a → s.src f.b = .ok (b, s1) →
    fmtWidth (f.modf.toNat % 32) < fmtWidth f.fmt →
    exec (.fcvt f) s = .next (let ws := fmtWidth (f.modf.toNat % 32)
      let n := 512 / fmtWidth f.fmt
      let r := roundAll f.fmt f.rnd f.sat s1.here.seed ((List.range n).map (fun i =>
        decode (f.modf.toNat % 32) (lane ws (s1.me.readV a) (b.toNat % (fmtWidth f.fmt / ws) * n + i)).toNat));
      ((seeded s1 r.2).setMe ((seeded s1 r.2).me.writeV d (ofLanes (fmtWidth f.fmt) r.1))).retire)) ∧
  (∀ (f : Fields) (s s1 : State) (d a : BitVec 5) (b : Word), s.issues 0x54 f → f.d = .v d → f.a = .v a → s.src f.b = .ok (b, s1) →
    fmtWidth f.fmt ≤ fmtWidth (f.modf.toNat % 32) →
    (let ws := fmtWidth (f.modf.toNat % 32)
     let wd := fmtWidth f.fmt
     let r := roundAll f.fmt f.rnd f.sat s1.here.seed ((List.range (512 / ws)).map (fun i =>
       decode (f.modf.toNat % 32) (lane ws (s1.me.readV a) i).toNat))
     ∃ y : Line, exec (.fcvt f) s = .next ((seeded s1 r.2).setMe ((seeded s1 r.2).me.writeV d y)).retire ∧
       ∀ i, i < 512 / wd → lane wd y i =
         if b.toNat % (ws / wd) * (512 / ws) ≤ i ∧ i < b.toNat % (ws / wd) * (512 / ws) + 512 / ws
         then BitVec.ofNat wd (r.1.getD (i - b.toNat % (ws / wd) * (512 / ws)) 0) else lane wd (s1.me.readV d) i)) ∧
  (∀ (f : Fields) (s : State) (d a : BitVec 5), s.issues 0x55 f → f.d = .v d → f.a = .v a →
    exec (.ftoi f) s = .next (let w := fmtWidth f.fmt
      let r := s.roundedInts w (f.modf.getLsbD 4) f.rnd f.sat ((List.range (512 / w)).map (fun i => decodeFloat f.fmt (lane w (s.me.readV a) i).toNat))
      (r.2.setMe (r.2.me.writeV d (ofLanes w r.1))).retire)) ∧
  (∀ (f : Fields) (s : State) (d a : BitVec 5), s.issues 0x56 f → f.d = .v d → f.a = .v a →
    exec (.itof f) s = .next (let w := fmtWidth f.fmt
      let r := roundAll f.fmt f.rnd f.sat s.here.seed ((List.range (512 / w)).map (fun i =>
        ofInt (value (f.modf.getLsbD 4) (lane w (s.me.readV a) i))));
      ((seeded s r.2).setMe ((seeded s r.2).me.writeV d (ofLanes w r.1))).retire))

/-- R221 to R223: `QNT`, `DQNT`, `PLSPLIT` and `PLJOIN`. -/
def Obligations.BlocksAndPlanes : Prop :=
  (∀ (f : Fields) (s : State) (d a : BitVec 5), s.issues 0x59 f → f.d = .v d → f.a = .v a → f.fmt ≠ 28 →
    (let ws := fmtWidth (f.modf.toNat % 32)
     let xs := (lanesOf ws (s.me.readV a) ++ (if f.modf.toNat % 32 = 0 then lanesOf ws (s.srcV f.b) else [])).map (decodeFloat (f.modf.toNat % 32))
     let r := s.quantise f.fmt f.rnd xs
     ∃ y : Line, exec (.qnt f) s = .next (r.2.2.setMe (r.2.2.me.writeV d y)).retire ∧ y.toNat / 2 ^ 504 = r.1 % 256 ∧
       y.toNat % 2 ^ 504 = pack (fmtWidth (elemFmt f.fmt)) r.2.1)) ∧
  (∀ (f : Fields) (s : State) (d a : BitVec 5), s.issues 0x59 f → f.d = .v d → f.a = .v a → f.fmt = 28 →
    (let ws := fmtWidth (f.modf.toNat % 32)
     let xs := (lanesOf ws (s.me.readV a) ++ (if f.modf.toNat % 32 = 0 then lanesOf ws (s.srcV f.b) else [])).map (decodeFloat (f.modf.toNat % 32))
     let r := s.quantise 28 f.rnd (xs.take 16)
     let q := r.2.2.quantise 28 f.rnd (xs.drop 16)
     ∃ y : Line, exec (.qnt f) s = .next (q.2.2.setMe (q.2.2.me.writeV d y)).retire ∧ y.toNat / 2 ^ 504 = q.1 % 256 ∧
       y.toNat / 2 ^ 496 % 256 = r.1 % 256 ∧ y.toNat % 2 ^ 496 = pack (fmtWidth (elemFmt 28)) (r.2.1 ++ q.2.1))) ∧
  (∀ (f : Fields) (s s1 : State) (d a : BitVec 5) (b : Word), s.issues 0x5A f → f.d = .v d → f.a = .v a → s.src f.b = .ok (b, s1) → immOutside f.b 0 1 = false →
    ∃ (r : List Nat × BitVec 32), exec (.dqnt f) s = .next ((seeded s1 r.2).setMe ((seeded s1 r.2).me.writeV d (ofLanes (fmtWidth f.fmt) r.1))).retire ∧
      r = roundAll f.fmt f.rnd f.sat s1.here.seed ((List.range (512 / fmtWidth f.fmt)).map (fun i =>
        let j := if f.fmt = 0 then 16 * (b.toNat % 2) + i else i
        (decode (elemFmt (f.modf.toNat % 32)) (elem (fmtWidth (elemFmt (f.modf.toNat % 32))) (s1.me.readV a).toNat j)).mul
          (decodeScale (f.modf.toNat % 32) (elem 8 (s1.me.readV a).toNat (if f.modf.toNat % 32 = 28 then 62 + j / 16 else 63)))))) ∧
  (∀ (f : Fields) (s s1 t : State) (a : BitVec 5) (b y : Word), s.issues 0x5B f → f.a = .v a → s.src f.b = .ok (b, s1) → immOutside f.b 0 7 = false →
    (∀ i, i < 64 → y.getLsbD i = (s1.me.readV a).getLsbD (8 * i + 7 - b.toNat % 8)) → s1.dst f.d y = .ok t → exec (.plsplit f) s = .next t.retire) ∧
  (∀ (f : Fields) (s s1 s2 : State) (d : BitVec 5) (a b : Word), s.issues 0x5C f → f.d = .v d → s.src f.a = .ok (a, s1) → s1.src f.b = .ok (b, s2) →
    immOutside f.b 0 7 = false → ∃ y : Line, exec (.pljoin f) s = .next (s2.setMe (s2.me.writeV d y)).retire ∧
      ∀ i, i < 512 → y.getLsbD i = if i % 8 = 7 - b.toNat % 8 then a.getLsbD (i / 8) else (s2.me.readV d).getLsbD i)

/-! ### Vectors and memberships (R224 to R234) -/

namespace Sys2Proof.Claims

/-- A vector entry that writes D lane by lane, from the lanes of d, a and b at the modifier's width: lane i of the result. -/
structure LaneEntry where
  make : Fields → Instr
  op : Nat
  lane : (f : Fields) → (d a b : Nat → Nat) → Nat → Nat

/-- Lanes of a v register as numbers. -/
def lanes (w : Nat) (x : Line) (i : Nat) : Nat := (lane w x i).toNat

/-- `VSHUF`, `VPERM2`, `VZIP` and `VUNZIP` (R225): an index with its top bit set gives 0, and others count modulo the table's length. -/
def permutes : List LaneEntry :=
  [⟨.vshuf, 0x60, fun f _ a b i => if (b i).testBit (f.width - 1) then 0 else a (b i % (512 / f.width))⟩,
   ⟨.vperm2, 0x61, fun f d a b i => if (d i).testBit (f.width - 1) then 0 else
     let j := d i % (2 * (512 / f.width))
     if j < 512 / f.width then a j else b (j - 512 / f.width)⟩,
   ⟨.vzip, 0x63, fun f _ a b i => (if i % 2 = 0 then a else b) ((f.modf.getLsbD 0).toNat * (512 / f.width / 2) + i / 2)⟩,
   ⟨.vunzip, 0x64, fun f _ a b i => if i < 512 / f.width / 2 then a (2 * i + (f.modf.getLsbD 0).toNat)
     else b (2 * (i - 512 / f.width / 2) + (f.modf.getLsbD 0).toNat)⟩]

/-- The lanes that a mask selects, lowest first. -/
def chosen (m : Word) (n : Nat) : List Nat := (List.range n).filter m.getLsbD

end Sys2Proof.Claims

/-- R225, R226: the permutes of two registers lane by lane; `VROT`, `VCOMP`, `VEXP` and `VMATCH`. -/
def Obligations.LanePermutes : Prop :=
  (∀ e ∈ permutes, ∀ (f : Fields) (s : State) (d a b : BitVec 5), s.issues e.op f → f.d = .v d → f.a = .v a → f.b = .v b →
    ∃ y : Line, steps (e.make f) s (s.me.writeV d y) ∧ ∀ i, i < 512 / f.width →
      lanes f.width y i = e.lane f (lanes f.width (s.me.readV d)) (lanes f.width (s.me.readV a)) (lanes f.width (s.me.readV b)) i) ∧
  (∀ (f : Fields) (s s1 : State) (d a : BitVec 5) (b : Word), s.issues 0x62 f → f.d = .v d → f.a = .v a → s.src f.b = .ok (b, s1) →
    ∃ y : Line, exec (.vrot f) s = .next (s1.setMe (s1.me.writeV d y)).retire ∧ ∀ i, i < 512 / f.width → lanes f.width y i =
      if f.modf.getLsbD 0 then
        (if 0 ≤ (i : Int) + b.toInt ∧ (i : Int) + b.toInt < (512 / f.width : Nat) then lanes f.width (s1.me.readV a) ((i : Int) + b.toInt).toNat else 0)
      else lanes f.width (s1.me.readV a) ((i + b.toNat) % (512 / f.width))) ∧
  (∀ (f : Fields) (s : State) (d a : BitVec 5) (m : BitVec 3), s.issues 0x65 f → f.d = .v d → f.a = .v a → f.b = .w m →
    ∃ y : Line, steps (.vcomp f) s (s.me.writeV d y) ∧ ∀ i, i < 512 / f.width → lanes f.width y i =
      match (chosen (s.me.readW m) (512 / f.width))[i]? with
      | some j => lanes f.width (s.me.readV a) j
      | none => 0) ∧
  (∀ (f : Fields) (s : State) (d a : BitVec 5) (m : BitVec 3), s.issues 0x66 f → f.d = .v d → f.a = .v a → f.b = .w m →
    ∃ y : Line, steps (.vexp f) s (s.me.writeV d y) ∧ ∀ i, i < 512 / f.width → lanes f.width y i =
      if (s.me.readW m).getLsbD i then lanes f.width (s.me.readV a) (chosen (s.me.readW m) i).length
      else if f.modf.getLsbD 0 then 0 else lanes f.width (s.me.readV d) i) ∧
  (∀ (f : Fields) (s : State) (d : BitVec 3) (a : BitVec 5), s.issues 0x6C f → f.d = .w d → f.a = .v a →
    ∃ y : Word, steps (.vmatch f) s (s.me.writeW d y) ∧ ∀ i, i < 64 → (y.getLsbD i = true ↔ i < 512 / f.width ∧
      ((∃ b j, f.b = .v b ∧ j < 512 / f.width ∧ lanes f.width (s.me.readV b) j = lanes f.width (s.me.readV a) i) ∨
       (f.b = .none ∧ ∃ j, j < i ∧ lanes f.width (s.me.readV a) j = lanes f.width (s.me.readV a) i))))

/-- R227 to R231: `VRED` over the integer sums and bitwise operations gives the reduction of the lanes that the mask selects; `VSCAN` and
`VSEG` complete with SEED and D as their chain leaves them; `VSORT` writes its lanes in the order of their keys, or the lanes' numbers
with equal keys in lane order; `VTOPK` keeps the best k pairs, and faults on a k outside 1 to 16. That a reduction's lanes are canonical
encodings, and that k above 16 faults for an odd D too, are the model's readings (log 22, log 124). -/
def Obligations.ReductionsAndSorts : Prop :=
  (∀ (f : Fields) (s t : State) (a : BitVec 5), s.issues 0x67 f → f.a = .v a → f.modf.toNat % 8 = 0 →
    s.dst f.d (widen f.unsigned (((List.range (512 / f.width)).filter (s.srcW f.b).getLsbD).foldl
      (fun x i => x + lane f.width (s.me.readV a) i) (0 : BitVec f.width))) = .ok t → exec (.vred f) s = .next t.retire) ∧
  (∀ (f : Fields) (s t : State) (a : BitVec 5), s.issues 0x67 f → f.a = .v a → f.modf.toNat % 8 = 3 →
    s.dst f.d (widen f.unsigned (((List.range (512 / f.width)).filter (s.srcW f.b).getLsbD).foldl
      (fun x i => x &&& lane f.width (s.me.readV a) i) (BitVec.allOnes f.width))) = .ok t → exec (.vred f) s = .next t.retire) ∧
  (∀ (f : Fields) (s t : State) (a : BitVec 5), s.issues 0x67 f → f.a = .v a →
    (let r := redTree f 7 s.here.seed (maskedLanes f (s.srcW f.b).toNat (lanesOf (redWidth f) (s.me.readV a)))
     let v := (r.1.headD none).getD (redIdentity f)
     (seeded s r.2).dst f.d (if 5 ≤ f.modf.toNat % 8 then word v else ext64 (redWidth f) f.unsigned v)) = .ok t → exec (.vred f) s = .next t.retire) ∧
  (∀ (f : Fields) (s : State) (d a : BitVec 5), s.issues 0x68 f → f.d = .v d → f.a = .v a →
    exec (.vscan f) s = .next (let r := redScan f (fun _ => false) 0 s.here.seed none (maskedLanes f (s.srcW f.b).toNat (lanesOf (redWidth f) (s.me.readV a)));
      ((seeded s r.2).setMe ((seeded s r.2).me.writeV d (ofLanes (redWidth f) r.1))).retire)) ∧
  (∀ (f : Fields) (s : State) (d a : BitVec 5), s.issues 0x6D f → f.d = .v d → f.a = .v a →
    exec (.vseg f) s = .next (let r := redScan f (fun i => i == 0 || (s.srcW f.b).getLsbD i) 0 s.here.seed none (maskedLanes f (2 ^ 64 - 1) (lanesOf (redWidth f) (s.me.readV a)));
      ((seeded s r.2).setMe ((seeded s r.2).me.writeV d (ofLanes (redWidth f) r.1))).retire)) ∧
  (∀ (f : Fields) (s : State) (d a : BitVec 5), s.issues 0x6A f → f.d = .v d → f.a = .v a → f.modf.getLsbD 2 = false →
    ∃ l : List Nat, steps (.vsort f) s (s.me.writeV d (ofLanes f.width l)) ∧ l.Perm ((List.range (512 / f.width)).map (lanes f.width (s.me.readV a))) ∧
      l.Pairwise (fun x y => (if f.modf.getLsbD 3 then sortLe f y x else sortLe f x y) = true)) ∧
  (∀ (f : Fields) (s : State) (d a : BitVec 5), s.issues 0x6A f → f.d = .v d → f.a = .v a → f.modf.getLsbD 2 = true →
    ∃ l : List Nat, steps (.vsort f) s (s.me.writeV d (ofLanes f.width l)) ∧ l.Perm (List.range (512 / f.width)) ∧
      (let le := fun x y => if f.modf.getLsbD 3 then sortLe f (lanes f.width (s.me.readV a) y) (lanes f.width (s.me.readV a) x)
          else sortLe f (lanes f.width (s.me.readV a) x) (lanes f.width (s.me.readV a) y);
        l.Pairwise (fun x y => le x y = true ∧ (le y x = true → x < y)))) ∧
  (∀ (f : Fields) (s s1 : State) (d a : BitVec 5) (k : Word), s.issues 0x69 f → f.d = .v d → f.a = .v a → s.src f.b = .ok (k, s1) →
    1 ≤ k.toNat → k.toNat ≤ 8 → exec (.vtopk f) s = .next (s1.setMe (s1.me.writeV d (ofLanes 64
      (topK k.toNat (f.modf.getLsbD 0) (lanesOf 64 (s1.me.readV d)) (lanesOf 64 (s1.me.readV a)) ++ List.replicate (8 - k.toNat) emptyPair)))).retire) ∧
  (∀ (f : Fields) (s s1 : State) (d a : BitVec 5) (k : Word), s.issues 0x69 f → f.d = .v d → f.a = .v a → s.src f.b = .ok (k, s1) →
    9 ≤ k.toNat → k.toNat ≤ 16 → d.toNat % 2 = 0 → ∃ y z : Line, exec (.vtopk f) s = .next (s1.setMe ((s1.me.writeV d y).writeV (d + 1) z)).retire ∧
      lanesOf 64 y ++ lanesOf 64 z = (topK k.toNat (f.modf.getLsbD 0) (lanesOf 64 (s1.me.readV d) ++ lanesOf 64 (s1.me.readV (d + 1)))
        (lanesOf 64 (s1.me.readV a)) ++ List.replicate (16 - k.toNat) emptyPair).map (· % 2 ^ 64)) ∧
  (∀ (f : Fields) (s s1 : State) (k : Word), s.issues 0x69 f → s.src f.b = .ok (k, s1) → (k = 0 ∨ 16 < k.toNat) →
    exec (.vtopk f) s = .next (s.takeExact 0x02 4 0))

/-- R233: `MSET`, `MAND`, `MOR`, `MANDN`, `MCNT`, `MFIND` and `MSPLIT` on sets of query slots. -/
def Obligations.MembershipLogic : Prop :=
  (∀ (f : Fields) (s s1 : State) (d : BitVec 2) (b : Word), s.issues 0x70 f → f.d = .m d → s.src f.b = .ok (b, s1) →
    ∃ y : Members, exec (.mset f) s = .next (s1.setMe (s1.me.writeM d y)).retire ∧ ∀ i, i < 256 → y.getLsbD i =
      match f.modf.toNat with
      | 0 => false
      | 1 => true
      | 2 => decide (i = b.toNat % 256) || (s1.me.readM d).getLsbD i
      | 3 => !decide (i = b.toNat % 256) && (s1.me.readM d).getLsbD i
      | _ => decide (i < b.toNat)) ∧
  (∀ e ∈ [(Instr.mand, 0x71, (fun a b : Bool => a && b)), (Instr.mor, 0x72, (fun a b => a || b)), (Instr.mandn, 0x73, (fun a b => a && !b))],
    ∀ (f : Fields) (s : State) (d a : BitVec 2), s.issues e.2.1 f → f.d = .m d → f.a = .m a →
      ∃ y : Members, steps (e.1 f) s (s.me.writeM d y) ∧ ∀ i, i < 256 → y.getLsbD i =
        e.2.2 ((s.me.readM a).getLsbD i) (match f.b with
          | .v b => (s.me.readV b).getLsbD i
          | .m b => (s.me.readM b).getLsbD i
          | _ => false)) ∧
  (∀ (f : Fields) (s s1 t : State) (a : BitVec 2) (b : Word), s.issues 0x74 f → f.a = .m a → s.src f.b = .ok (b, s1) →
    s1.dst f.d (word ((List.range (if f.b = .none then 256 else min b.toNat 256)).countP (s1.me.readM a).getLsbD)) = .ok t →
    exec (.mcnt f) s = .next t.retire) ∧
  (∀ (f : Fields) (s s1 t : State) (a : BitVec 2) (b : Word) (r : Nat), s.issues 0x75 f → f.a = .m a → s.src f.b = .ok (b, s1) →
    f.modf.getLsbD 0 = false →
    ((r < 256 ∧ b.toNat ≤ r ∧ (s1.me.readM a).getLsbD r = true ∧ ∀ i, b.toNat ≤ i → i < r → (s1.me.readM a).getLsbD i = false) ∨
     (r = 256 ∧ ∀ i, b.toNat ≤ i → i < 256 → (s1.me.readM a).getLsbD i = false)) →
    s1.dst f.d (word r) = .ok t → exec (.mfind f) s = .next t.retire) ∧
  (∀ (f : Fields) (s s1 t : State) (a : BitVec 2) (b : Word) (r : Nat), s.issues 0x75 f → f.a = .m a → s.src f.b = .ok (b, s1) →
    f.modf.getLsbD 0 = true →
    ((r ≤ (if f.b = .none then 255 else min b.toNat 255) ∧ (s1.me.readM a).getLsbD r = true ∧
        ∀ i, r < i → i ≤ (if f.b = .none then 255 else min b.toNat 255) → (s1.me.readM a).getLsbD i = false) ∨
     (r = 256 ∧ ∀ i, i ≤ (if f.b = .none then 255 else min b.toNat 255) → (s1.me.readM a).getLsbD i = false)) →
    s1.dst f.d (word r) = .ok t → exec (.mfind f) s = .next t.retire) ∧
  (∀ (f : Fields) (s : State) (d a b : BitVec 2), s.issues 0x76 f → f.d = .m d → f.a = .m a → f.b = .m b → d.toNat % 2 = 0 →
    steps (.msplit f) s ((s.me.writeM d (s.me.readM a &&& s.me.readM b)).writeM (d + 1) (s.me.readM a &&& ~~~ s.me.readM b))) ∧
  (∀ (f : Fields) (s : State) (d : BitVec 2), s.issues 0x76 f → f.d = .m d → d.toNat % 2 = 1 → exec (.msplit f) s = .next (s.takeExact 0x02 2 0))

/-- R234: `MPRED`, `MTOV` and `VTOM` between memberships, masks and lanes. -/
def Obligations.MembershipMoves : Prop :=
  (∀ (f : Fields) (s : State) (d a : BitVec 2) (m : BitVec 3), s.issues 0x77 f → f.d = .m d → f.a = .m a → f.b = .w m →
    ∃ y : Members, steps (.mpred f) s (s.me.writeM d y) ∧ ∀ x, x < 256 → y.getLsbD x =
      if (s.me.readM a).getLsbD x = true ∧ f.modf.toNat % 32 * (512 / f.width) ≤ (List.range x).countP (s.me.readM a).getLsbD ∧
          (List.range x).countP (s.me.readM a).getLsbD < f.modf.toNat % 32 * (512 / f.width) + 512 / f.width
      then (s.me.readW m).getLsbD ((List.range x).countP (s.me.readM a).getLsbD - f.modf.toNat % 32 * (512 / f.width))
      else (s.me.readM d).getLsbD x) ∧
  (∀ (f : Fields) (s s1 : State) (d : BitVec 5) (a : BitVec 2) (b : Word), s.issues 0x7B f → f.d = .v d → f.a = .m a → s.src f.b = .ok (b, s1) →
    f.modf.getLsbD 0 = false → exec (.mtov f) s = .next (s1.setMe (s1.me.writeV d ((s1.me.readM a).setWidth 512))).retire) ∧
  (∀ (f : Fields) (s s1 : State) (d : BitVec 5) (a : BitVec 2) (b : Word), s.issues 0x7B f → f.d = .v d → f.a = .m a → s.src f.b = .ok (b, s1) →
    f.modf.getLsbD 0 = true → ∃ y : Line, exec (.mtov f) s = .next (s1.setMe (s1.me.writeV d y)).retire ∧ ∀ i, i < 512 / f.width → lanes f.width y i =
      match ((List.range 256).filter (s1.me.readM a).getLsbD)[b.toNat % (max 1 (256 / (512 / f.width))) * (512 / f.width) + i]? with
      | some x => x
      | none => 2 ^ f.width - 1) ∧
  (∀ (f : Fields) (s : State) (d : BitVec 2) (a : BitVec 5), s.issues 0x7C f → f.d = .m d → f.a = .v a → f.modf.getLsbD 0 = false →
    steps (.vtom f) s (s.me.writeM d ((s.me.readV a).setWidth 256))) ∧
  (∀ (f : Fields) (s : State) (d : BitVec 2) (a : BitVec 5), s.issues 0x7C f → f.d = .m d → f.a = .v a → f.modf.getLsbD 0 = true →
    ∃ y : Members, steps (.vtom f) s (s.me.writeM d y) ∧ ∀ x, x < 256 →
      (y.getLsbD x = true ↔ (s.me.readM d).getLsbD x = true ∨ ∃ i, i < 512 / f.width ∧ lanes f.width (s.me.readV a) i = x))

/-! ### Local memory (R87, R94, R183, R235, R239 to R244) -/

namespace Sys2Proof.Claims

/-- No byte of memory and no full/empty bit changed. -/
def memoryKept (s t : State) : Prop := t.mem = s.mem ∧ t.full = s.full
/-- Only n bytes from a changed, to those of x, the lowest first; and no full/empty bit. -/
def stores (s t : State) (a n x : Nat) : Prop :=
  (∀ i, t.mem.read i = if a ≤ i ∧ i < a + n then BitVec.ofNat 8 (x / 256 ^ (i - a)) else s.mem.read i) ∧ t.full = s.full
/-- The running slot is x, but for the order that its reads have learnt (R106, R107). -/
def becomes (t : State) (x : Slot) : Prop := t.me = { x with order := t.me.order }
/-- What operation op leaves in a word that held x, with operands b and c (R244). -/
def atomicResult (op : Nat) (x b c : Word) : Word :=
  match op with
  | 0 => x + b
  | 1 => x &&& b
  | 2 => x ||| b
  | 3 => x ^^^ b
  | 4 => if x.toNat ≤ b.toNat then x else b
  | 5 => if x.toNat ≤ b.toNat then b else x
  | 6 => if x.toInt ≤ b.toInt then x else b
  | 7 => if x.toInt ≤ b.toInt then b else x
  | 8 => b
  | _ => if x = c then b else x
/-- Only the full/empty bit of the word at a changed, to b. -/
def marks (s t : State) (a : Nat) (b : Bool) : Prop := t.mem = s.mem ∧ ∀ w, t.isFull (8 * w) = if w = a / 8 then b else s.isFull (8 * w)

end Sys2Proof.Claims

/-- R81, R83, R84, R183 check 8: where an access of n bytes to the own scratchpad or the store lands, and its faults by path, alignment and
bounds, in that order. -/
def Obligations.LocalAddressesAreChecked : Prop :=
  (∀ (s : State) (a : Word) (n k : Nat), pathOf a ≠ 4 → pathOf a ≠ 5 → s.checkLocal a n k = .error (.trap 0x04 (word (pathOf a)) a)) ∧
  (∀ (s : State) (a : Word) (n k : Nat), (pathOf a = 4 ∨ pathOf a = 5) → a.toNat % k ≠ 0 → s.checkLocal a n k = .error (.trap 0x06 (word k) a)) ∧
  (∀ (s : State) (a : Word) (n k : Nat), pathOf a = 4 → a.toNat % k = 0 → a.toNat < 4 * 2 ^ 60 + 2 ^ 17 → 0 < n →
    s.poolLimit s.cur < a.toNat - 4 * 2 ^ 60 + n → s.checkLocal a n k = .error (.trap 0x05 (word (s.poolLimit s.cur)) a)) ∧
  (∀ (s : State) (a : Word) (n k : Nat), pathOf a = 4 → a.toNat % k = 0 → a.toNat < 4 * 2 ^ 60 + 2 ^ 17 → 0 < n →
    a.toNat - 4 * 2 ^ 60 + n ≤ s.poolLimit s.cur → s.checkLocal a n k = .ok (poolAt s.cur (a.toNat - 4 * 2 ^ 60))) ∧
  (∀ (s : State) (a : Word) (n k : Nat), pathOf a = 5 → a.toNat % k = 0 → a.toNat < 5 * 2 ^ 60 + 2 ^ 19 → 524288 < a.toNat - 5 * 2 ^ 60 + n →
    s.checkLocal a n k = .error (.trap 0x05 524288 a)) ∧
  (∀ (s : State) (a : Word) (n k : Nat), pathOf a = 5 → a.toNat % k = 0 → a.toNat < 5 * 2 ^ 60 + 2 ^ 19 → a.toNat - 5 * 2 ^ 60 + n ≤ 524288 →
    (∀ g ∈ granulesOf (a.toNat - 5 * 2 ^ 60) n, Tab.get .free (s.cluster (clusterOf s.cur)).granules g = .image) →
    s.checkLocal a n k = .ok (storeAt (clusterOf s.cur) (a.toNat - 5 * 2 ^ 60)))

/-- R235, R240, R242: loads into registers read the addressed bytes, the lowest first, and change no byte and no full/empty bit. -/
def Obligations.LoadsReadMemory : Prop :=
  (∀ (f : Fields) (s : State) (d : BitVec 5) (a : Nat), s.issues 0x80 f → f.d = .g d → s.reach (s.addr f.a 8) 8 8 = .ok a →
    ∃ t, exec (.ld f) s = .next t ∧ memoryKept s t ∧
      becomes t ((s.me.writeG d (BitVec.ofNat 64 (s.mem.readN a 8))).retired (s.me.pc + 12))) ∧
  (∀ (f : Fields) (s : State) (d : BitVec 5) (a : Nat), s.issues 0x82 f → f.d = .v d → s.reach (s.addr f.a 64) 64 8 = .ok a →
    ∃ t, exec (.ldv f) s = .next t ∧ memoryKept s t ∧
      becomes t ((s.me.writeV d (BitVec.ofNat 512 (s.mem.readN a 64))).retired (s.me.pc + 12))) ∧
  (∀ (f : Fields) (s s1 : State) (d : BitVec 5) (b : Word) (a : Nat), s.issues 0x78 f → f.d = .v d → s.src f.b = .ok (b, s1) →
    s1.reach (s1.addr f.a 64 + word (b.toNat % 256 * 2 ^ (6 + f.modf.toNat % 16))) 64 64 = .ok a →
    exec (.qld f) s = .next ((s1.setMe (s1.me.writeV d (BitVec.ofNat 512 (s1.mem.readN a 64)))).loadOrder 0 a 64).retire) ∧
  (∀ (f : Fields) (s : State) (d b : BitVec 5) (l : List (Option Nat)), s.issues 0x84 f → f.d = .v d → f.b = .v b → s.laneReach f = .ok l →
    ∃ (t : State) (y : Line), exec (.ldx f) s = .next t ∧
      s.Slotwise t { (s.me.writeV d y).retired (s.me.pc + 12) with order := (s.lanesLoaded l (f.width / 8)).me.order } ∧ ∀ i, i < 512 / f.width → lanes f.width y i =
      match l.getD i none with
      | some a => s.mem.readN a (f.width / 8)
      | none => 0) ∧
  (∀ (f : Fields) (s : State) (d : BitVec 3) (a : Nat), s.issues 0x8B f → f.d = .p d → s.reach (s.addr f.a 8) 8 8 = .ok a →
    steps (.fepoll f) s (s.me.writeP d (s.isFull a))) ∧
  (∀ (f : Fields) (s t : State) (a : Nat), s.issues 0x80 f → s.reach (s.addr f.a 8) 8 8 = .ok a → (s.loaded f a 8).dst f.d (s.wordAt a) = .ok t →
    exec (.ld f) s = .next t.retire) ∧
  (∀ (s : State) (m a n : Nat), s.OnlySlot (s.loadOrder m a n) ∧ becomes (s.loadOrder m a n) s.me)

/-- R235 to R242: plain stores write the addressed bytes and no others, the lowest first, and touch no full/empty bit; `STX` stores its
lanes in increasing order. -/
def Obligations.StoresWriteOnlyTheirBytes : Prop :=
  (∀ (f : Fields) (s s1 : State) (b : Word) (a : Nat), s.issues 0x81 f → s.reach (s.addr f.a 8) 8 8 = .ok a → s.src f.b = .ok (b, s1) →
    ∃ t, exec (.st f) s = .next t ∧ stores s1 t a 8 b.toNat ∧ t.me = s1.me.retired (s1.me.pc + 12)) ∧
  (∀ (f : Fields) (s : State) (b : BitVec 5) (a : Nat), s.issues 0x83 f → f.b = .v b → s.reach (s.addr f.a 64) 64 8 = .ok a →
    ∃ t, exec (.stv f) s = .next t ∧ stores s t a 64 (s.me.readV b).toNat ∧ t.me = s.me.retired (s.me.pc + 12)) ∧
  (∀ (f : Fields) (s : State) (d b : BitVec 5) (l : List (Option Nat)), s.issues 0x85 f → f.d = .v d → f.b = .v b → s.laneReach f = .ok l →
    ∃ t, exec (.stx f) s = .next t ∧ t.me = s.me.retired (s.me.pc + 12) ∧ t.full = s.full ∧
      (∀ i, (∀ (k a : Nat), l[k]? = some (some a) → ¬ (a ≤ i ∧ i < a + f.width / 8)) → t.mem.read i = s.mem.read i) ∧
      (∀ (k a : Nat), l[k]? = some (some a) → (∀ (j b' : Nat), k < j → l[j]? = some (some b') → b' ≠ a) → t.mem.readN a (f.width / 8) = lanes f.width (s.me.readV d) k))

/-- R87, R88, R242, R243: full/empty accesses. A full load proceeds at a full word and `LDFE` leaves it empty; `STEF` proceeds at an empty
word and leaves it full, `STXF` at any word; one that may not proceed stalls. -/
def Obligations.FullEmptyAccesses : Prop :=
  (∀ (f : Fields) (s t : State) (a : Nat), s.issues 0x86 f → s.reach (s.addr f.a 8) 8 8 = .ok a → s.feReady a true = true →
    (s.loaded f a 8).dst f.d (s.wordAt a) = .ok t → exec (.ldfe f) s = .next (t.feDone.markWord a false).retire ∧
      (Operand.portNum f.d = none → marks s (t.feDone.markWord a false).retire a false)) ∧
  (∀ (f : Fields) (s t : State) (a : Nat), s.issues 0x87 f → s.reach (s.addr f.a 8) 8 8 = .ok a → s.feReady a true = true →
    (s.loaded f a 8).dst f.d (s.wordAt a) = .ok t → exec (.ldff f) s = .next t.feDone.retire ∧ (Operand.portNum f.d = none → memoryKept s t.feDone.retire)) ∧
  (∀ (f : Fields) (s s1 : State) (b : Word) (a : Nat), s.issues 0x88 f → s.reach (s.addr f.a 8) 8 8 = .ok a → s.src f.b = .ok (b, s1) →
    s.feReady a false = true → ∃ t, exec (.stef f) s = .next t ∧ t.mem = Mem.writeN s1.mem a 8 b.toNat ∧
      (∀ w, t.isFull (8 * w) = if w = a / 8 then true else s1.isFull (8 * w)) ∧ t.me = s1.me.retired (s1.me.pc + 12)) ∧
  (∀ (f : Fields) (s s1 : State) (b : Word) (a : Nat), s.issues 0x89 f → s.reach (s.addr f.a 8) 8 8 = .ok a → s.src f.b = .ok (b, s1) →
    ∃ t, exec (.stxf f) s = .next t ∧ t.mem = Mem.writeN s1.mem a 8 b.toNat ∧
      (∀ w, t.isFull (8 * w) = if w = a / 8 then true else s1.isFull (8 * w)) ∧ t.me = s1.me.retired (s1.me.pc + 12)) ∧
  (∀ (f : Fields) (s : State) (a : Nat), s.issues 0x8A f → s.reach (s.addr f.a 8) 8 8 = .ok a →
    ∃ t, exec (.femark f) s = .next t ∧ marks s t a (f.modf.getLsbD 0) ∧ t.me = s.me.retired (s.me.pc + 12)) ∧
  (∀ e ∈ [(Instr.ldfe, 0x86), (Instr.ldff, 0x87)], ∀ (f : Fields) (s : State) (a : Nat), s.issues e.2 f →
    s.checkLocal (s.addr f.a 8) 8 8 = .ok a →
    (s.dstReady f.d = .ok () → s.feReady a true = false → exec (e.1 f) s = .next (s.stallMe (.feBit a true))) ∧
    (∀ w, s.dstReady f.d = .error (.stall w) → exec (e.1 f) s = .next (s.stallMe w))) ∧
  (∀ (f : Fields) (s s1 : State) (b : Word) (a : Nat), s.issues 0x88 f → s.checkLocal (s.addr f.a 8) 8 8 = .ok a → s.src f.b = .ok (b, s1) →
    s.feReady a false = false → exec (.stef f) s = .next (s.stallMe (.feBit a false)))

/-- R244: `LATOM` gives the old word and stores the operation's result, and changes no other byte and no full/empty bit; operation 10 or
above, or another modifier bit, is an exact fault of cause 0x02. -/
def Obligations.LocalAtomics : Prop :=
  (∀ (f : Fields) (s : State), 10 ≤ f.modf.toNat → ∃ v, exec (.latom f) s = .next (s.takeExact 0x02 v 0)) ∧
  ∀ (f : Fields) (s s1 : State) (d : BitVec 5) (b : Word) (a : Nat), s.issues 0x8C f → f.d = .g d → s.reach (s.addr f.a 8) 8 8 = .ok a →
    s.src f.b = .ok (b, s1) → ∃ t, exec (.latom f) s = .next t ∧
      becomes t ((s1.me.writeG d (s1.wordAt a)).retired (s1.me.pc + 12)) ∧
      stores s1 t a 8 (atomicResult f.modf.toNat (s1.wordAt a) b (s1.me.readG d)).toNat

/-! ### Barriers, channels, gangs, handlers (R95, R96, R245 to R257) -/

namespace Sys2Proof.Claims

/-- What the two words of a barrier hold (R95). -/
structure Barrier where
  remaining : Nat
  reload : Nat
  arrivals : Nat
  phase : Bool
  overrun : Bool

def barrierOf (w0 w1 : Word) : Barrier := ⟨w0.toNat % 2 ^ 48, w1.toNat % 2 ^ 48, w1.toNat / 2 ^ 48, w0.getLsbD 48, w0.getLsbD 59⟩
/-- The barrier at an address. -/
def barrierAt (s : State) (a : Nat) : Barrier := barrierOf (s.wordAt a) (s.wordAt (a + 8))
/-- An arrival of n bytes (R96). -/
def Barrier.arrive (b : Barrier) (n : Nat) : Barrier :=
  if n = 0 then b
  else if n < b.remaining then { b with arrivals := (b.arrivals + 1) % 65536, remaining := b.remaining - n }
  else
    let extra := n - b.remaining
    let flips := if b.reload = 0 then 1 else 1 + extra / b.reload
    { b with
      arrivals := (b.arrivals + 1) % 65536
      overrun := b.overrun || decide (0 < extra)
      phase := b.phase ^^ decide (flips % 2 = 1)
      remaining := if b.reload = 0 then 0 else b.reload - extra % b.reload }
/-- n more bytes expected, in this phase, and with rl in each later one (R246). -/
def Barrier.expect (b : Barrier) (n : Nat) (rl : Bool) : Barrier :=
  { b with
    remaining := min (b.remaining + n) (2 ^ 48 - 1)
    reload := if rl then min (b.reload + n) (2 ^ 48 - 1) else b.reload
    overrun := b.overrun || decide (2 ^ 48 ≤ b.remaining + n) || (rl && decide (2 ^ 48 ≤ b.reload + n)) }
/-- From s to t only the 16 bytes of the barrier at a changed, and of its flags and reserved bits only the overrun flag. -/
def onlyBarrier (s t : State) (a : Nat) : Prop :=
  (∀ i, (i < a ∨ a + 16 ≤ i) → t.mem.read i = s.mem.read i) ∧ t.full = s.full ∧
    ∀ i, 49 ≤ i → i < 64 → i ≠ 59 → (t.wordAt a).getLsbD i = (s.wordAt a).getLsbD i

end Sys2Proof.Claims

/-- R95, R96, R106, R116, R245, R246: `BINIT` sets count and reload, `BEXPECT` adds and saturates, `BARRIVE` arrives, `BPOLL` reads; each by the
two words at its address, and no other byte changes. That the .acq form counts a demotion where R116 asks for one, whether or not its read
observes a flip, is the model's reading (log 63). -/
def Obligations.BarrierOperations : Prop :=
  (∀ (f : Fields) (s s1 : State) (b : Word) (a : Nat), s.issues 0x90 f → s.reach (s.addr f.a 16) 16 16 = .ok a → s.src f.b = .ok (b, s1) →
    b.toNat < 2 ^ 48 → ∃ t, exec (.binit f) s = .next t ∧ stores s1 t a 16 (b.toNat + 2 ^ 64 * b.toNat) ∧ t.me = s1.me.retired (s1.me.pc + 12)) ∧
  (∀ (f : Fields) (s s1 : State) (b : Word) (a : Nat), s.issues 0x91 f → s.reach (s.addr f.a 16) 16 16 = .ok a → s.src f.b = .ok (b, s1) →
    b.toNat < 2 ^ 48 → ∃ t, exec (.bexpect f) s = .next t ∧ barrierAt t a = (barrierAt s1 a).expect b.toNat (f.modf.getLsbD 0) ∧
      onlyBarrier s1 t a ∧ t.me = s1.me.retired (s1.me.pc + 12)) ∧
  (∀ (f : Fields) (s s1 : State) (b : Word) (a : Nat), s.issues 0x92 f → s.reach (s.addr f.a 16) 16 16 = .ok a → s.src f.b = .ok (b, s1) →
    b.toNat < 2 ^ 48 → s1.me.st ≠ .stalled → ∃ t, exec (.barrive f) s = .next t ∧ barrierAt t a = (barrierAt s1 a).arrive b.toNat ∧
      onlyBarrier s1 t a ∧ t.me = s1.me.retired (s1.me.pc + 12)) ∧
  (∀ (f : Fields) (s t : State) (a : Nat), s.issues 0x93 f → s.reach (s.addr f.a 16) 16 16 = .ok a →
    (s.polled f a).dst f.d (s.wordAt a) = .ok t →
    exec (.bpoll f) s = .next t.retire ∧ (Operand.portNum f.d = none → memoryKept s t.retire)) ∧
  (∀ (f : Fields) (s s1 : State) (b : Word) (a : Nat), s.issues 0x90 f → s.reach (s.addr f.a 16) 16 16 = .ok a → s.src f.b = .ok (b, s1) →
    2 ^ 48 ≤ b.toNat → exec (.binit f) s = .next (s.takeExact 0x02 4 0))

/-- R249 to R254: `SEND`, `SENDT`, `TRYSEND` and `CTRL` enter their word in the queue when nothing blocks them; blocked, `SEND` and `CTRL`
stall, `SENDT` traps with cause 0x11, and `TRYSEND` says so in its predicate. -/
def Obligations.SendsEnterOrBlock : Prop :=
  (∀ e ∈ [(Instr.send, 0x95), (Instr.sendt, 0x96)], ∀ (f : Fields) (s s1 s2 : State) (d : Dest) (b : Word), s.issues e.2 f →
    s.sendDest e.2 f.a = .ok (d, s1) → s1.src f.b = .ok (b, s2) → s2.sendBlocked d (f.modf.toNat % 4) = none →
    exec (e.1 f) s = .next (s2.sendWord e.2 d (f.modf.toNat % 4) b false).retire) ∧
  (∀ (f : Fields) (s s1 s2 : State) (d : Dest) (b : Word) (p : BitVec 3), s.issues 0x97 f → f.d = .p p →
    s.sendDest 0x97 f.a = .ok (d, s1) → s1.src f.b = .ok (b, s2) →
    exec (.trysend f) s = .next (match s2.sendBlocked d (f.modf.toNat % 4) with
      | none => (let u := s2.sendWord 0x97 d (f.modf.toNat % 4) b false; u.setMe (u.me.writeP p true)).retire
      | some _ => (s2.setMe (s2.me.writeP p false)).retire)) ∧
  (∀ (f : Fields) (s s1 s2 : State) (d : Dest) (v : Word), s.issues 0x9A f → f.d = .none → s.sendDest 0x9A f.a = .ok (d, s1) →
    s1.src f.b = .ok (v, s2) → controlValue v = true → s2.sendBlocked d (f.modf.toNat % 4) = none →
    exec (.ctrl f) s = .next (s2.sendWord 0x9A d (f.modf.toNat % 4) v true).retire) ∧
  (∀ (f : Fields) (s s1 t : State) (p : BitVec 3) (v : Word), s.issues 0x9A f → f.d = .port p → p.toNat < 6 → s.src f.a = .ok (v, s1) →
    controlValue v = true → s1.pushRing p.toNat v true = .ok t → exec (.ctrl f) s = .next t.retire) ∧
  (∀ (f : Fields) (s : State) (p : BitVec 3), s.issues 0x9A f → f.d = .port p → 6 ≤ p.toNat → exec (.ctrl f) s = .next (s.takeExact 0x02 2 0)) ∧
  (∀ (f : Fields) (s s1 s2 : State) (d : Dest) (b : Word) (w : Stall), s.issues 0x95 f → s.sendDest 0x95 f.a = .ok (d, s1) →
    s1.src f.b = .ok (b, s2) → s2.sendBlocked d (f.modf.toNat % 4) = some w → exec (.send f) s = .next (s.stallMe w)) ∧
  (∀ (f : Fields) (s s1 s2 : State) (d : Dest) (b : Word) (w : Stall), s.issues 0x96 f → s.sendDest 0x96 f.a = .ok (d, s1) →
    s1.src f.b = .ok (b, s2) → s2.sendBlocked d (f.modf.toNat % 4) = some w →
    exec (.sendt f) s = .next (s.takeExact 0x11 (word (f.modf.toNat % 4)) (s2.destAddr d))) ∧
  (∀ (f : Fields) (s s1 s2 : State) (d : Dest) (v : Word) (w : Stall), s.issues 0x9A f → f.d = .none → s.sendDest 0x9A f.a = .ok (d, s1) →
    s1.src f.b = .ok (v, s2) → controlValue v = true → s2.sendBlocked d (f.modf.toNat % 4) = some w → exec (.ctrl f) s = .next (s.stallMe w)) ∧
  (∀ (f : Fields) (s s1 : State) (p : BitVec 3) (v : Word) (w : Stall), s.issues 0x9A f → f.d = .port p → p.toNat < 6 → s.src f.a = .ok (v, s1) →
    controlValue v = true → s1.pushRing p.toNat v true = .error (.stall w) → exec (.ctrl f) s = .next (s.stallMe w))

/-- R254: `RECV` takes the next word of a port, `PEEK` leaves it there, and `CHCNT` counts; the .t forms give the tag in a predicate, and an
empty port stalls. -/
def Obligations.ReceivesAndCounts : Prop :=
  (∀ (f : Fields) (s t : State) (p : BitVec 3) (w : QWord), s.issues 0x98 f → f.a = .port p → f.modf = 0 → s.peekPort p.toNat = some w → w.tag = false →
    (s.afterPop p.toNat).dst f.d w.word = .ok t → exec (.recv f) s = .next t.retire) ∧
  (∀ (f : Fields) (s t : State) (p : BitVec 3) (w : QWord), s.issues 0x98 f → f.a = .port p → f.modf.getLsbD 3 = true → s.peekPort p.toNat = some w →
    (let u := s.afterPop p.toNat; (u.setMe (u.me.writeP (f.modf.extractLsb' 0 3) w.tag)).dst f.d w.word) = .ok t → exec (.recv f) s = .next t.retire) ∧
  (∀ (f : Fields) (s t : State) (p : BitVec 3) (w : QWord), s.issues 0x99 f → f.a = .port p → s.peekPort p.toNat = some w →
    (let u := s.acquired w.seen; if f.modf.getLsbD 3 then u.setMe (u.me.writeP (f.modf.extractLsb' 0 3) w.tag) else u).dst f.d w.word = .ok t →
    exec (.peek f) s = .next t.retire) ∧
  (∀ (f : Fields) (s : State) (p : BitVec 3), f.a = .port p → s.peekPort p.toNat = none →
    (s.issues 0x98 f → exec (.recv f) s = .next (s.stallMe (.portEmpty p.toNat))) ∧
    (s.issues 0x99 f → exec (.peek f) s = .next (s.stallMe (.portEmpty p.toNat)))) ∧
  (∀ (f : Fields) (s t : State) (p : BitVec 3), s.issues 0x9B f → f.a = .port p → s.dst f.d (word (s.portCount p.toNat)) = .ok t →
    exec (.chcnt f) s = .next t.retire) ∧
  (∀ (f : Fields) (s t : State) (x : BitVec 17), s.issues 0x9B f → f.a = .imm x → (x = 4 ∨ x = 5) →
    outPresent ((s.here.handler s.me.handler).output x.toNat) = true → s.dst f.d (word (s.outFree x.toNat + s.me.reserved x.toNat)) = .ok t →
    exec (.chcnt f) s = .next t.retire)

/-- R255 to R257: `GANG` posts the core's request and waits; `HMASK` and `HPRIO` change one field of a handler entry; `SPAWN` enters a task
in the queue of its own core, or of a neighbour, where it has room, and says so. That a token stays in its port until the gang forms is the
model's reading (log 105); whether a neighbour's queue shows its room is a free value (log 17). -/
def Obligations.GangsHandlersAndSpawns : Prop :=
  (∀ (f : Fields) (s s1 : State) (a : Word), s.issues 0x9C f → s.src f.a = .ok (a, s1) → s.here.gang = none →
    ∃ t port, exec (.gang f) s = .next t ∧ t.here.gang = some ⟨s.me.launch, a, s.curSlot, false, port⟩ ∧
      (∀ p w, f.a = .port p → s.peekPort p.toNat = some w → port = some (p.toNat, w)) ∧
      t.me = { s.me with st := .stalled, stall := some .gang }) ∧
  (∀ (f : Fields) (s s1 : State) (a : Word) (g : GangReq), s.issues 0x9C f → s.src f.a = .ok (a, s1) → s.here.gang = some g →
    exec (.gang f) s = .next (if g.slot = s.curSlot ∧ g.formed = true then s.takeExact 0x08 0 0 else s.stallMe .gang)) ∧
  (∀ (f : Fields) (s s1 : State) (a : Word), s.issues 0x9D f → s.src f.a = .ok (a, s1) → a.toNat ≤ 31 → (s1.here.handler a.toNat).kindBits ≤ 1 →
    ∃ e : Handler, exec (.hmask f) s = .next (s1.setHere { s1.here with handlers := Tab.set s1.here.handlers a.toNat e }).retire ∧
      e.mask = f.modf.getLsbD 0 ∧ e = { s1.here.handler a.toNat with w0 := e.w0 } ∧
      ∀ i, i ≠ 21 → e.w0.getLsbD i = (s1.here.handler a.toNat).w0.getLsbD i) ∧
  (∀ (f : Fields) (s s1 s2 : State) (a b : Word), s.issues 0x9E f → s.src f.a = .ok (a, s1) → s1.src f.b = .ok (b, s2) → a.toNat ≤ 31 → b.toNat ≤ 3 →
    (s2.here.handler a.toNat).kindBits ≤ 1 →
    ∃ e : Handler, exec (.hprio f) s = .next (s2.setHere { s2.here with handlers := Tab.set s2.here.handlers a.toNat e }).retire ∧
      e.cls = b.toNat ∧ e = { s2.here.handler a.toNat with w0 := e.w0 } ∧
      ∀ i, i ≠ 19 → i ≠ 20 → e.w0.getLsbD i = (s2.here.handler a.toNat).w0.getLsbD i) ∧
  (∀ (f : Fields) (s s1 : State) (a : Word) (p : BitVec 3), s.issues 0x9F f → f.d = .p p → s.src f.a = .ok (a, s1) → f.modf.toNat % 4 = 0 →
    (s.here.handler (f.modf.toNat / 4)).kindBits = 0 → s1.here.tasks.length < 32 → s1.stopped s1.cur s1.me.launch = false →
    ∃ t, exec (.spawn f) s = .next t ∧ t.here.tasks = s1.here.tasks ++ [⟨f.modf.toNat / 4, a, s1.me.launch, s1.given⟩] ∧
      t.me = (s1.me.writeP p true).retired (s1.me.pc + 12)) ∧
  (∀ (f : Fields) (s s1 : State) (a : Word) (p : BitVec 3), s.issues 0x9F f → f.d = .p p → s.src f.a = .ok (a, s1) → f.modf.toNat % 4 = 0 →
    (s.here.handler (f.modf.toNat / 4)).kindBits = 0 → ¬ s1.here.tasks.length < 32 → exec (.spawn f) s = .next (s1.setMe (s1.me.writeP p false)).retire) ∧
  (∀ (f : Fields) (s s1 : State) (a : Word) (p : BitVec 3), s.issues 0x9F f → f.d = .p p → s.src f.a = .ok (a, s1) → f.modf.toNat % 4 = 0 →
    (s.here.handler (f.modf.toNat / 4)).kindBits = 0 → s1.here.tasks.length < 32 → s1.stopped s1.cur s1.me.launch = true →
    exec (.spawn f) s = .next ((s1.countWords s1.me.launch 1).setMe (s1.me.writeP p true)).retire) ∧
  (∀ (f : Fields) (s s1 : State) (a : Word) (p : BitVec 3) (c : Nat), s.issues 0x9F f → f.d = .p p → s.src f.a = .ok (a, s1) →
    (s.here.handler (f.modf.toNat / 4)).kindBits = 0 → (f.modf.toNat % 4 = 1 ∧ c = succOf s1.cur ∨ f.modf.toNat % 4 = 2 ∧ c = predOf s1.cur) →
    ∃ r t, exec (.spawn f) s = .next t ∧ t.me = (s1.me.writeP p r).retired (s1.me.pc + 12) ∧ t.mem = s1.mem ∧
      (r = true → (s1.core c).tasks.length < 32) ∧
      (t.core c).tasks = if r = true ∧ s1.stopped c s1.me.launch = false then (s1.core c).tasks ++ [⟨f.modf.toNat / 4, a, s1.me.launch, s1.given⟩]
        else (s1.core c).tasks)

/-! ### Engine commands, messages and searches (R259 to R275, R308) -/

namespace Sys2Proof.Claims

/-- The commands that become jobs: constructor, opcode and run length (R260). -/
def commands : List ((Fields → Instr) × Nat × Nat) :=
  [(.copy, 0xA0, 3), (.copy2, 0xA1, 5), (.get, 0xA2, 3), (.put, 0xA3, 3), (.getx, 0xA4, 5), (.putx, 0xA5, 5), (.amo, 0xA6, 6), (.amox, 0xA7, 5),
   (.amof, 0xA8, 7), (.xsend, 0xAC, 6), (.xpost, 0xAD, 3), (.xget, 0xAE, 4), (.srch, 0xC0, 6), (.srchf, 0xC1, 7)]

/-- From s a command became the job j, and its slot went on: no memory changed, the job names its run and its barrier, and a job card
covers one command less. -/
def issued (s t : State) (op : Nat) (f : Fields) (run : List Word) (b : Nat) : Prop :=
  t.mem = s.mem ∧ t.full = s.full ∧ t.nextJob = s.nextJob + 1 ∧
  t.me = ({ s.me with cover := s.me.cover - 1 } : Slot).retired (s.me.pc + 12) ∧
  ∃ j : Job, t.jobs = s.jobs ++ [j] ∧ j.id = s.nextJob ∧ j.opcode = op ∧ j.modf = f.modf.toNat ∧ j.run = run ∧ j.barrier = b ∧
    j.core = s.cur ∧ j.slot = s.curSlot ∧ j.fid = s.me.fid ∧ j.launch = s.me.launch ∧ j.pc = s.me.pc ∧ j.declared = declaredBytes op run ∧
    j.arrived = 0 ∧ j.next = 0 ∧ j.refused = false

end Sys2Proof.Claims

/-- R260, R262 to R266, R272, R274: a command whose checks pass and that nothing stalls becomes a job; what stalls it stalls its slot; a
failed check is an exact fault. That a command is one job whose pieces land later, in index order, is the model's reading (log 16). -/
def Obligations.CommandsBecomeJobs : Prop :=
  ∀ e ∈ commands, ∀ (f : Fields) (s : State), s.issues e.2.1 f →
    (∀ (b : Nat) (rs : List Reach), s.checkCommand e.2.1 f.modf.toNat (s.run f.b e.2.2) (s.addr f.a 16) = .ok (b, rs) →
      s.commandStall rs (isPosted e.2.1 (s.run f.b e.2.2)) (f.modf.getLsbD 0) = none → s.sourceBad e.2.1 (s.run f.b e.2.2) = none →
      s.sourceWriters e.2.1 (s.run f.b e.2.2) = [] →
      ∃ t, exec (e.1 f) s = .next t ∧ issued s t e.2.1 f (s.run f.b e.2.2) b) ∧
    (∀ (b : Nat) (rs : List Reach) (w : Stall), s.checkCommand e.2.1 f.modf.toNat (s.run f.b e.2.2) (s.addr f.a 16) = .ok (b, rs) →
      s.commandStall rs (isPosted e.2.1 (s.run f.b e.2.2)) (f.modf.getLsbD 0) = some w → exec (e.1 f) s = .next (s.stallMe w)) ∧
    (∀ (b : Nat) (rs : List Reach), s.checkCommand e.2.1 f.modf.toNat (s.run f.b e.2.2) (s.addr f.a 16) = .ok (b, rs) →
      s.commandStall rs (isPosted e.2.1 (s.run f.b e.2.2)) (f.modf.getLsbD 0) = none → s.sourceWriters e.2.1 (s.run f.b e.2.2) ≠ [] →
      exec (e.1 f) s = .next (s.stallMe (.footprint (s.sourceWriters e.2.1 (s.run f.b e.2.2))))) ∧
    (∀ (c : Nat) (v a : Word), s.checkCommand e.2.1 f.modf.toNat (s.run f.b e.2.2) (s.addr f.a 16) = .error (.trap c v a) →
      exec (e.1 f) s = .next (s.takeExact c v a))

/-- R268, R269, R270, R273, R308: `ROTATE`, `JOB`, `EMSG` and `MPATH`, and the frame commands `CSAVE` and `CREST`. That reserved bits of a
card's lengths are refused, and the order of the checks of a carried command, are the model's readings (log 24, log 104). -/
def Obligations.OtherEngineInstructions : Prop :=
  (∀ (f : Fields) (s : State) (b : Nat) (rs : List Reach), s.issues 0xA9 f → s.inGang = true →
    s.checkCommand 0xA9 f.modf.toNat (s.run f.b 3) (s.addr f.a 16) = .ok (b, rs) → s.commandStall rs false (f.modf.getLsbD 0) = none →
    ∃ t, exec (.rotate f) s = .next t ∧ t.mem = s.mem ∧ t.here.gang = none ∧ t.nextJob = s.nextJob + 1 ∧
      (t.cluster (clusterOf s.cur)).rotIssued = (s.cluster (clusterOf s.cur)).rotIssued ++
        [⟨s.cur, ((s.run f.b 3).getD 0 0).toNat % 2 ^ 17, ((s.run f.b 3).getD 1 0).toNat % 2 ^ 17, ((s.run f.b 3).getD 2 0).toNat, s.nextJob⟩]) ∧
  (∀ (f : Fields) (s : State) (b : Nat) (rs : List Reach), s.issues 0xA9 f → s.inGang = false →
    s.checkCommand 0xA9 f.modf.toNat (s.run f.b 3) (s.addr f.a 16) = .ok (b, rs) → exec (.rotate f) s = .next (s.takeExact 0x08 0 0)) ∧
  (∀ (f : Fields) (s s1 : State) (c : Word) (a : Nat), s.issues 0xAA f → s.reach (s.addr f.a 16) 96 8 = .ok a → s.src f.b = .ok (c, s1) →
    1 ≤ c.toNat → c.toNat ≤ 16 → (∃ i, i < 6 ∧ 2 ^ 48 ≤ (s1.wordAt (a + 16 * i + 8)).toNat) → exec (.job f) s = .next (s.takeExact 0x02 3 0)) ∧
  (∀ (f : Fields) (s s1 : State) (c : Word) (a : Nat), s.issues 0xAA f → s.reach (s.addr f.a 16) 96 8 = .ok a → s.src f.b = .ok (c, s1) →
    1 ≤ c.toNat → c.toNat ≤ 16 → (∀ i, i < 6 → (s1.wordAt (a + 16 * i + 8)).toNat < 2 ^ 48) → exec (.job f) s = .next (s1.setMe { s1.me with
      card := (List.range 6).map (fun i => (s1.wordAt (a + 16 * i), (s1.wordAt (a + 16 * i + 8)).toNat % 2 ^ 48))
      cover := c.toNat }).retire) ∧
  (∀ (f : Fields) (s t : State) (n : BitVec 5), s.issues 0xAB f → f.b = .g n →
    (let m := ((s.run f.b 2).getD 1 0).toNat / 2 ^ 24 % 16
     let run := s.run f.b (m + 2)
     n.toNat + m + 2 ≤ 32 ∧ s.sendCommand (run.getD 0 0) false (run.getD 1 0) (run.drop 2) (s.addr f.a 16) = .ok t) →
    exec (.emsg f) s = .next t.retire) ∧
  (∀ (f : Fields) (s t : State) (i : Nat), s.issues 0xC2 f → ((s.run f.b 2).getD 0 0).toNat < 2 ^ 32 →
    (let n := ((s.run f.b 2).getD 1 0).toNat % 2 ^ 32
     let z := ((s.run f.b 2).getD 1 0).toNat / 2 ^ 32
     let d := min ((s.run f.b 2).getD 0 0).toNat (n + z)
     n ≠ 0 ∧ s.checkReach ⟨s.addr f.a 4, [4, 5], 4, 1, 0, 4 * n, false⟩ = .ok () ∧
       pathSearch (s.readElement (s.addr f.a 4)) d 33 (d - z) (min d n) = .ok i ∧ s.dst f.d (word i) = .ok t) →
    exec (.mpath f) s = .next t.retire) ∧
  (∀ (f : Fields) (s t : State), s.issues 0xC2 f → ((s.run f.b 2).getD 0 0).toNat < 2 ^ 32 → ((s.run f.b 2).getD 1 0).toNat % 2 ^ 32 = 0 →
    pathOf (s.addr f.a 4) = 4 ∨ pathOf (s.addr f.a 4) = 5 → s.dst f.d 0 = .ok t → exec (.mpath f) s = .next t.retire) ∧
  (∀ e ∈ [(Instr.csave, 0xE2, SlotSt.frozen), (Instr.crest, 0xE3, SlotSt.free)], ∀ (f : Fields) (s : State) (b : Nat) (rs : List Reach),
    s.issues e.2.1 f → s.checkCommand e.2.1 0 (s.run f.b 2) (s.addr f.a 16) = .ok (b, rs) →
    ((s.run f.b 2).getD 0 0).toNat < s.here.frames →
    (s.slot s.cur ((s.run f.b 2).getD 0 0).toNat).st = e.2.2 → ((s.run f.b 2).getD 0 0).toNat ≠ s.curSlot → s.commandStall rs false false = none →
    ∃ t, exec (e.1 f) s = .next t ∧ t.mem = s.mem ∧ t.nextJob = s.nextJob + 1 ∧
      ∃ j : Job, t.jobs = s.jobs ++ [j] ∧ j.opcode = e.2.1 ∧ j.run = s.run f.b 2 ∧ j.barrier = b ∧ j.declared = 4096)

/-! ### The matrix array (R277 to R291) -/

/-- R279, R281, R283: `MLDS` puts a tile in the shadow plane; `MSWAP`, `MMA` and `MMAG` join what their gang has issued. -/
def Obligations.MatrixIssue : Prop :=
  (∀ (f : Fields) (s : State) (a p q r : Nat), s.issues 0xB0 f → s.checkGangSett = .ok () → s.checkPool (s.addr f.a 64) 64 64 = .ok a →
    s.scoreboarded a 64 = false → s.badWord a 64 = none → (∀ i, 3 ≤ i → i ≤ 7 → s.wordAt (a + 8 * i) = 0) → f.modf.getLsbD 0 = true →
    0 < scaleBytes f.fmt true →
    s.checkPool (s.wordAt a) (tileBytes f.fmt) 8 = .ok p → s.checkPool (s.wordAt (a + 8)) (scaleBytes f.fmt true) 1 = .ok q →
    s.checkPool (s.wordAt (a + 16)) (4 * sliceDepth f.fmt) 1 = .ok r →
    s.scoreboarded p (tileBytes f.fmt) = false → s.scoreboarded q (scaleBytes f.fmt true) = false → s.scoreboarded r (4 * sliceDepth f.fmt) = false →
    s.badWord p (tileBytes f.fmt) = none → s.badWord q (scaleBytes f.fmt true) = none → s.badWord r (4 * sliceDepth f.fmt) = none →
    s.swapPending s.cur = false → risingEntries (sliceDepth f.fmt) (s.mem.readN r (4 * sliceDepth f.fmt)) = true →
    ∃ t, exec (.mlds f) s = .next t ∧ t.plane s.cur 1 = some ⟨f.fmt, true, s.mem.readN p (tileBytes f.fmt), s.mem.readN q (scaleBytes f.fmt true),
      s.mem.readN r (4 * sliceDepth f.fmt)⟩ ∧ t.mem = s.mem ∧ t.me = s.me.retired (s.me.pc + 12)) ∧
  (∀ (f : Fields) (s : State) (a p : Nat), s.issues 0xB0 f → s.checkGangSett = .ok () → s.checkPool (s.addr f.a 64) 64 64 = .ok a →
    s.scoreboarded a 64 = false → s.badWord a 64 = none → (∀ i, 1 ≤ i → i ≤ 7 → s.wordAt (a + 8 * i) = 0) → f.modf.getLsbD 0 = false →
    scaleBytes f.fmt false = 0 → s.checkPool (s.wordAt a) (tileBytes f.fmt) 8 = .ok p → s.scoreboarded p (tileBytes f.fmt) = false →
    s.badWord p (tileBytes f.fmt) = none → s.badWord 0 0 = none → s.swapPending s.cur = false →
    ∃ t, exec (.mlds f) s = .next t ∧ t.plane s.cur 1 = some ⟨f.fmt, false, s.mem.readN p (tileBytes f.fmt), 0, 0⟩ ∧ t.mem = s.mem ∧
      t.me = s.me.retired (s.me.pc + 12)) ∧
  (∀ (f : Fields) (s : State), s.issues 0xB1 f → s.checkGangSett = .ok () → s.inGang = true →
    exec (.mswap f) s = .next (s.joinArray (s.newPart 0xB1)).retire) ∧
  (∀ e ∈ [(Instr.mma, 0xB2, false), (Instr.mmag, 0xB3, true)], ∀ (f : Fields) (s : State) (row : BitVec 11) (a b : Nat), s.issues e.2.1 f →
    f.d = .row row → s.checkPool (s.addr f.a 64) 64 64 = .ok a → s.checkLocal (s.addr f.b 16) 16 16 = .ok b → s.checkGangSett = .ok () →
    s.inGang = true → s.scoreboarded a 64 = false → s.badWord a 64 = none →
    (let w := (List.range 8).map (fun i => s.wordAt (a + 8 * i))
     streamOk e.2.2 (s.stationarySoon s.cur) w = true → s.checkAccRows row.toNat (if e.2.2 then 1 else streamM (w.getD 2 0)) = .ok () →
     s.checkReaches (streamReaches e.2.2 w) = .ok () →
     (e.2.2 = true → s.scoreboarded (poolAt s.cur ((w.getD 6 0).toNat % 2 ^ 17)) (2 * streamM (w.getD 2 0)) = false) →
     ∃ t p, exec (e.1 f) s = .next t ∧ (t.cluster (clusterOf s.cur)).gangIssued = (s.cluster (clusterOf s.cur)).gangIssued ++ [p] ∧
       p.core = s.cur ∧ p.row = row.toNat ∧ p.acc = f.modf.getLsbD 0 ∧ p.barrier = b ∧ p.opcode = e.2.1 ∧
       p.bytes = streamM (w.getD 2 0) * streamN (w.getD 2 0) * 4 ∧ t.here.gang = none ∧ t.mem = s.mem ∧ t.me = s.me.retired (s.me.pc + 12))) ∧
  (∀ (f : Fields) (s : State), s.issues 0xB1 f → s.checkGangSett = .ok () → s.inGang = false → exec (.mswap f) s = .next (s.takeExact 0x08 0 0))

/-- R288 to R291: `MACC`, `MRDA`, `MWRA`, `MCVT` and `MSTAT` on accumulator rows that no operation has still to write. -/
def Obligations.AccumulatorRows : Prop :=
  (∀ (f : Fields) (s s1 : State) (r : BitVec 11) (n : Word), s.issues 0xB4 f → f.d = .row r → s.src f.a = .ok (n, s1) → 1 ≤ n.toNat → n.toNat ≤ 1280 →
    s1.checkAccRows r.toNat n.toNat = .ok () → s1.rowsBusy s1.cur r.toNat n.toNat = false →
    ∃ t, exec (.macc f) s = .next t ∧ t.mem = s1.mem ∧ t.me = s1.me.retired (s1.me.pc + 12) ∧ ∀ i, t.accRow s1.cur i =
      if r.toNat ≤ i ∧ i < r.toNat + n.toNat then ⟨0, f.modf.getLsbD 0, false⟩ else s1.accRow s1.cur i) ∧
  (∀ (f : Fields) (s : State) (d : BitVec 5) (r : BitVec 11), s.issues 0xB6 f → f.d = .v d → f.a = .row r → s.checkAccRows r.toNat 1 = .ok () →
    s.rowsBusy s.cur r.toNat 1 = false → steps (.mrda f) s (s.me.writeV d (s.accRow s.cur r.toNat).lanes)) ∧
  (∀ (f : Fields) (s : State) (a : BitVec 5) (r : BitVec 11), s.issues 0xB7 f → f.d = .row r → f.a = .v a → s.checkAccRows r.toNat 1 = .ok () →
    s.rowsBusy s.cur r.toNat 1 = false → ∃ t, exec (.mwra f) s = .next t ∧ t.mem = s.mem ∧ t.me = s.me.retired (s.me.pc + 12) ∧
      ∀ i, t.accRow s.cur i = if i = r.toNat then ⟨s.me.readV a, f.modf.getLsbD 0, false⟩ else s.accRow s.cur i) ∧
  (∀ (f : Fields) (s : State) (r : BitVec 11) (a : Nat), s.issues 0xB5 f → f.b = .row r → s.checkLocal (s.addr f.a (cvtBytes f.fmt)) (cvtBytes f.fmt) (cvtBytes f.fmt) = .ok a →
    s.checkAccRows r.toNat 1 = .ok () → s.scoreboarded a (cvtBytes f.fmt) = false → s.badWord a (cvtBytes f.fmt) = none → s.rowsBusy s.cur r.toNat 1 = false →
    ∃ t, exec (.mcvt f) s = .next t ∧
      (let q := roundAll f.fmt f.rnd f.sat s.here.seed ((List.range 16).map (fun i =>
          (if (s.accRow s.cur r.toNat).s32 then ofInt (lane 32 (s.accRow s.cur r.toNat).lanes i).toInt
           else decodeFloat 0 (lane 32 (s.accRow s.cur r.toNat).lanes i).toNat).mul
            (match f.d with | .g x => f32 (s.me.readG x).toNat | _ => .fin false 1 1)))
       stores s t a (cvtBytes f.fmt) (pack (fmtWidth f.fmt) q.1) ∧ t.here.seed = q.2 ∧ t.me = s.me.retired (s.me.pc + 12))) ∧
  (∀ (f : Fields) (s : State) (d : BitVec 5) (r : BitVec 11), s.issues 0xB8 f → f.d = .g d → f.a = .row r → s.checkAccRows r.toNat 1 = .ok () →
    s.rowsBusy s.cur r.toNat 1 = false → steps (.mstat f) s (s.me.writeG d
      ((if (s.accRow s.cur r.toNat).s32 then 2 else 0) + (if (s.accRow s.cur r.toNat).ovf then 1 else 0)))) ∧
  (∀ (f : Fields) (s t : State), s.issues 0xB8 f → f.a = .none → s.dst f.d (word (s.unwritten s.cur % 65536 * 65536 +
    planeStatus (s.plane s.cur 1) * 256 + planeStatus (s.plane s.cur 0))) = .ok t → exec (.mstat f) s = .next t.retire) ∧
  (∀ (f : Fields) (s : State) (d : BitVec 5) (r : BitVec 11), s.issues 0xB6 f → f.d = .v d → f.a = .row r → s.here.rows ≤ r.toNat →
    exec (.mrda f) s = .next (s.takeExact 0x05 (word s.here.rows) (word r.toNat)))

/-! ### Queries and walkers (R236 to R238) -/

/-- R236 to R238: `QST` becomes a job for every cluster of the field; `WALK` sends one walker message, one deeper than the firing, and none
for an empty set; `MMEET` takes the entry that stands for its key into the firing, its carries merged into g3 and g4; in another kind of
firing it is illegal. That `MMEET` in a wrap-up firing is the illegal form is the model's reading (log 23). -/
def Obligations.QueriesAndWalkers : Prop :=
  (∀ (f : Fields) (s : State) (a b : Nat), s.issues 0x79 f → pathOf (s.addr f.a 8) = 5 → s.checkLocal (s.addr f.a 8) 8 8 = .ok a →
    s.checkLocal (s.addr f.b 16) 16 16 = .ok b → s.here.outReq.length < 16 →
    ∃ t j, exec (.qst f) s = .next t ∧ t.jobs = s.jobs ++ [j] ∧ t.nextJob = s.nextJob + 1 ∧ j.id = s.nextJob ∧ j.opcode = 0x79 ∧
      j.modf = 0 ∧ j.run = [s.addr f.a 8, s.oldG f.d, word (f.modf.toNat % 4)] ∧ j.barrier = b ∧ j.launch = s.me.launch ∧ j.fid = s.me.fid ∧
      t.mem = s.mem ∧ t.me = s.me.retired (s.me.pc + 12)) ∧
  (∀ (f : Fields) (s : State), s.issues 0x79 f → pathOf (s.addr f.a 8) ≠ 5 →
    exec (.qst f) s = .next (s.takeExact 0x04 (word (pathOf (s.addr f.a 8))) (s.addr f.a 8))) ∧
  (∀ (f : Fields) (s s1 : State) (a : Word) (d : BitVec 5) (m : BitVec 2), s.issues 0x7A f → (s.here.handler (f.modf.toNat % 32)).kindBits = 1 →
    s.src f.a = .ok (a, s1) → f.d = .v d → f.b = .m m → s1.me.readM m ≠ 0 → s1.here.outWalk.length < 16 →
    ∃ t w, exec (.walk f) s = .next t ∧ t.here.outWalk = s1.here.outWalk ++ [w] ∧ w.depth = min (s1.me.depth + 1) 2047 ∧
      w.handler = f.modf.toNat % 32 ∧ w.key = a.toNat % 2 ^ 48 ∧ w.launch = s1.me.launch % 4096 ∧ w.members = s1.me.readM m ∧
      w.block = (lane 64 (s1.me.readV d) 2).toNat % 256 ∧ w.carry6 = lane 64 (s1.me.readV d) 0 ∧ w.carry7 = lane 64 (s1.me.readV d) 1 ∧
      t.mem = s1.mem ∧ t.me = s1.me.retired (s1.me.pc + 12)) ∧
  (∀ (f : Fields) (s s1 : State) (a : Word) (m : BitVec 2), s.issues 0x7A f → (s.here.handler (f.modf.toNat % 32)).kindBits = 1 →
    s.src f.a = .ok (a, s1) → f.b = .m m →
    (s1.me.readM m = 0 → exec (.walk f) s = .next s1.retire) ∧
    (s1.me.readM m ≠ 0 → ¬ s1.here.outWalk.length < 16 → exec (.walk f) s = .next (s.stallMe (.outQueue 2)))) ∧
  (∀ (f : Fields) (s : State), s.issues 0x7A f → (s.here.handler (f.modf.toNat % 32)).kindBits ≠ 1 → exec (.walk f) s = .next (s.takeExact 0x02 5 0)) ∧
  (∀ (f : Fields) (s : State), s.issues 0x7D f → s.me.kind ≠ .walker → s.me.kind ≠ .wrapup → exec (.mmeet f) s = .next (s.takeExact 0x01 0x7D 0)) ∧
  (∀ (f : Fields) (s s1 : State) (a : Word), s.issues 0x7D f → s.me.kind = .walker → s.src f.a = .ok (a, s1) →
    (let found := fun (e : WarrenEntry) => e.msg.launch == s1.me.launch && e.msg.handler == s1.me.handler && e.msg.block == s1.me.qblock &&
       e.msg.key == a.toNat % 2 ^ 48 && e.owner == s1.cur
     let k := s1.cluster (clusterOf s1.cur)
     (∀ d : BitVec 2, f.d = .m d → k.warren.find? found = none → exec (.mmeet f) s = .next (s1.modCluster (clusterOf s1.cur) (fun y => { y with
       absorb := some ⟨s1.fabric, s1.cur, s1.curSlot, s1.me.fid, d, s1.me.launch, s1.me.handler, s1.me.qblock, a.toNat % 2 ^ 48⟩ })).retire) ∧
     (∀ (d : BitVec 2) (e : WarrenEntry), f.d = .m d → k.warren.find? found = some e → k.overflow = [] → k.spill = [] →
       ∃ t, exec (.mmeet f) s = .next t ∧ (t.cluster (clusterOf s1.cur)).warren = k.warren.filter (fun y => y.serial != e.serial) ∧
         t.me.readM d = s1.me.readM d ||| e.msg.members ∧ t.me.readG 3 = carryMerge ((s1.here.handler s1.me.handler).carryRule true) (s1.me.readG 3) e.msg.carry6 ∧
         t.me.readG 4 = carryMerge ((s1.here.handler s1.me.handler).carryRule false) (s1.me.readG 4) e.msg.carry7 ∧
         t.me.meets = min (s1.me.meets + e.meets) 65535 ∧ t.me.pc = s1.me.pc + 12 ∧ t.mem = s1.mem)))

/-! ### Setts (R119 to R132, R294 to R301) -/

/-- R119 to R131, R294 to R301: acquiring, releasing, shrinking, naming a routine for, deciding on and asking about a sett. A handle that
names no sett of the firing's launch is an exact fault of cause 0x08 that shows it. That a run waits while a job or an operation may still
write it (log 66), and that of two requests of one clock the lower core's is served first (log 125), are the model's readings; that `SREL` of
a Surrendering sett ends it, its routine's verdict then counting nothing (log 153), is its choice. -/
def Obligations.SettInstructions : Prop :=
  (∀ (f : Fields) (s s1 : State) (a : Word) (im : Image) (l : Launch), s.issues 0xD0 f → s.src f.a = .ok (a, s1) → s.image? s.cur = some im →
    a.toNat ≤ 15 → s.myLaunch = some l →
    (let e := Tab.get 0 im.setts a.toNat
     let cl := clusterOf s.cur
     let who := some (s.cur, s.curSlot, s.me.fid)
     let r := s.newRequest who l e (f.modf.getLsbD 0)
     e.getLsbD 4 = true → (s.cluster cl).setts.any (fun y => y.launch == s.me.launch && y.index == a.toNat) = false →
     (entryGang e && ctxGangDenied (s.ctx l.tenant)) = false → (s.cluster cl).requests.find? (fun r => r.who == who) = none →
     (s.requestFirst cl r = false → exec (.sacq f) s = .next ((s.putRequest cl r).stallMe .request)) ∧
     (s.requestFirst cl r = true →
     (∀ (g : Nat) (t : State), s.request cl r = .run g →
       (let o := (s1.dropRequest cl who).grantSett s.cur l a.toNat e g
        o.1.dst f.d (o.2.handle cl) = .ok t → exec (.sacq f) s = .next t.retire ∧ o.2.size = entryGranules e ∧ o.2.index = a.toNat ∧
          o.2.launch = l.number ∧ o.2.st = .current ∧ o.2.holder = s.cur ∧ (o.2.gang = false → o.2.first = g))) ∧
     (s.request cl r = .lands → exec (.sacq f) s = .next ((s.putRequest cl r).stallMe .request)) ∧
     (∀ lent recalls ending, s.request cl r = .asks lent recalls ending → (f.modf.getLsbD 0 = false ∨ (ending = [] ∧ s.recallRoom recalls = true)) →
       (let o := s.pursue cl r lent recalls ending
        exec (.sacq f) s = .next ((o.1.putRequest cl o.2).stallMe .request))) ∧
     (s.request cl r = .waits → f.modf.getLsbD 0 = false →
       exec (.sacq f) s = .next ((s.putRequest cl { r with seen := some (s.cluster cl).releases }).stallMe .request)) ∧
     (∀ t : State, s.request cl r = .waits → f.modf.getLsbD 0 = true → (s1.dropRequest cl who).dst f.d 0 = .ok t → exec (.sacq f) s = .next t.retire)))) ∧
  (∀ (f : Fields) (s s1 : State) (a : Word), s.issues 0xD0 f → s.src f.a = .ok (a, s1) → 15 < a.toNat → exec (.sacq f) s = .next (s.takeExact 0x02 3 0)) ∧
  (∀ (f : Fields) (s s1 : State) (h : Word) (x : Sett), s.issues 0xD1 f → s.src f.a = .ok (h, s1) → s1.handleSett h = .ok x → x.st ≠ .stripping →
    (x.st = .displaced ∨ s1.settWriters (clusterOf s1.cur) x 0 = false) →
    exec (.srel f) s = .next (s1.settGone (clusterOf s1.cur) x.gen).retire ∧
      ∀ y ∈ ((s1.settGone (clusterOf s1.cur) x.gen).cluster (clusterOf s1.cur)).setts, y.gen ≠ x.gen) ∧
  (∀ (f : Fields) (s s1 : State) (h : Word) (e : (Fields → Instr) × Nat), e ∈ [(Instr.srel, 0xD1), (.sqry, 0xD5)] → s.issues e.2 f →
    s.src f.a = .ok (h, s1) → (∀ x, s1.settOf (clusterOf s1.cur) h = some x → x.launch ≠ s1.me.launch) →
    exec (e.1 f) s = .next (s.takeExact 0x08 h 0)) ∧
  (∀ (f : Fields) (s s1 s2 : State) (h b : Word) (e : (Fields → Instr) × Nat), e ∈ [(Instr.sshrink, 0xD2), (.surr, 0xD3)] → s.issues e.2 f →
    s.src f.a = .ok (h, s1) → s1.src f.b = .ok (b, s2) → (∀ x, s2.settOf (clusterOf s2.cur) h = some x → x.launch ≠ s2.me.launch) →
    exec (e.1 f) s = .next (s.takeExact 0x08 h 0)) ∧
  (∀ (f : Fields) (s s1 s2 : State) (h n : Word) (x : Sett), s.issues 0xD2 f → s.src f.a = .ok (h, s1) → s1.src f.b = .ok (n, s2) →
    s2.handleSett h = .ok x → x.isDisplaced = false → 0 < n.toNat → n.toNat ≤ x.size → x.st ≠ .finishing →
    s2.settWriters (clusterOf s2.cur) x n.toNat = false →
    exec (.sshrink f) s = .next (s2.settShrink (clusterOf s2.cur) x.gen n.toNat).retire ∧
      ∀ y ∈ ((s2.settShrink (clusterOf s2.cur) x.gen n.toNat).cluster (clusterOf s2.cur)).setts, y.gen = x.gen → y.gang = false → y.size ≤ n.toNat) ∧
  (∀ (f : Fields) (s s1 s2 : State) (h n : Word) (x : Sett), s.issues 0xD2 f → s.src f.a = .ok (h, s1) → s1.src f.b = .ok (n, s2) →
    s2.handleSett h = .ok x → x.isDisplaced = false → 0 < n.toNat → n.toNat ≤ x.size → x.st = .finishing →
    s2.settWriters (clusterOf s2.cur) x n.toNat = false →
    ∃ t, exec (.sshrink f) s = .next t ∧ t.me = s2.me.retired (s2.me.pc + 12) ∧
      ∀ y ∈ (t.cluster (clusterOf s2.cur)).setts, y.gen = x.gen → y.st = .current ∧ y.finishEnd = none ∧ (y.gang = false → y.size ≤ n.toNat)) ∧
  (∀ (f : Fields) (s s1 s2 : State) (h n : Word) (x : Sett), s.issues 0xD2 f → s.src f.a = .ok (h, s1) → s1.src f.b = .ok (n, s2) →
    s2.handleSett h = .ok x → x.isDisplaced = false → 0 < n.toNat → n.toNat ≤ x.size → s2.settWriters (clusterOf s2.cur) x n.toNat = true →
    exec (.sshrink f) s = .next (s.stallMe (.release x.gen n.toNat))) ∧
  (∀ (f : Fields) (s s1 : State) (h : Word) (x : Sett), s.issues 0xD1 f → s.src f.a = .ok (h, s1) → s1.handleSett h = .ok x →
    (x.st = .stripping ∨ (x.st ≠ .displaced ∧ s1.settWriters (clusterOf s1.cur) x 0 = true)) →
    exec (.srel f) s = .next (s.stallMe (.release x.gen 0))) ∧
  (∀ (f : Fields) (s s1 s2 : State) (h n : Word) (x : Sett), s.issues 0xD2 f → s.src f.a = .ok (h, s1) → s1.src f.b = .ok (n, s2) →
    s2.handleSett h = .ok x → (n = 0 ∨ x.size < n.toNat) → exec (.sshrink f) s = .next (s.takeExact 0x08 h 0)) ∧
  (∀ (f : Fields) (s s1 s2 : State) (h b : Word) (x : Sett), s.issues 0xD3 f → s.src f.a = .ok (h, s1) → s1.src f.b = .ok (b, s2) →
    s2.handleSett h = .ok x → b.toNat ≤ 31 → (s2.here.handler b.toNat).kindBits = 4 → x.cls = .negotiated → x.holder = s2.cur → x.isDisplaced = false →
    exec (.surr f) s = .next (s2.modSett (clusterOf s2.cur) x.gen (fun y => { y with routine := some b.toNat })).retire) ∧
  (∀ (f : Fields) (s : State) (x : Sett), s.issues 0xD4 f → f.modf = 0 ∨ f.modf = 2 → s.me.verdict = false →
    s.settOf (clusterOf s.cur) s.me.surrSett = some x → x.launch = s.me.launch → x.st = .surrendering →
    ∃ t, exec (.sverd f) s = .next t ∧ (t.slot s.cur s.curSlot).st = .free ∧
      ∀ y ∈ (t.cluster (clusterOf s.cur)).setts, y.gen = x.gen → y.st = if f.modf = 0 then .finishing else .current) ∧
  (∀ (f : Fields) (s s1 : State) (n : Word) (x : Sett), s.issues 0xD4 f → f.modf = 1 → s.src f.a = .ok (n, s1) → n.toNat ≤ 64 →
    s1.me.verdict = false → s1.settOf (clusterOf s1.cur) s1.me.surrSett = some x → x.launch = s1.me.launch → x.st = .surrendering → x.gang = false →
    n.toNat < x.size →
    ∃ t, exec (.sverd f) s = .next t ∧ (t.slot s.cur s.curSlot).st = .free ∧
      ∀ y ∈ (t.cluster (clusterOf s1.cur)).setts, y.gen = x.gen → n ≠ 0 ∧ y.st = .current ∧ (y.gang = false → y.size ≤ n.toNat)) ∧
  (∀ (f : Fields) (s s1 : State) (n : Word) (x : Sett), s.issues 0xD4 f → f.modf = 1 → s.src f.a = .ok (n, s1) → n.toNat ≤ 64 →
    s1.me.verdict = false → s1.settOf (clusterOf s1.cur) s1.me.surrSett = some x →
    (∀ y ∈ (s1.cluster (clusterOf s1.cur)).setts, y.gen = x.gen → y = x) → x.launch = s1.me.launch → x.st = .surrendering → x.gang = false → x.size ≤ n.toNat →
    ∃ t, exec (.sverd f) s = .next t ∧ (t.slot s.cur s.curSlot).st = .free ∧
      ∀ y ∈ (t.cluster (clusterOf s1.cur)).setts, y.gen = x.gen →
        y.st = .current ∧ y.size = x.size ∧ t.windowRefusals y = s1.windowRefusals x + 1) ∧
  (∀ (f : Fields) (s : State), s.issues 0xD4 f → f.modf ≠ 1 → s.me.verdict = true → exec (.sverd f) s = .next (s.takeExact 0x08 s.me.surrSett 0)) ∧
  (∀ (f : Fields) (s s1 t : State) (h : Word) (x : Sett), s.issues 0xD5 f → s.src f.a = .ok (h, s1) → s1.handleSett h = .ok x →
    s1.dst f.d (if f.modf.getLsbD 0 = false then s1.settStatus x h
      else if x.isDisplaced then (match s1.myLaunch with
        | some l => s1.areaAddr l (settSlotOff (clusterOf s1.cur - l.base) x.index)
        | none => 0)
      else if x.gang then 0 else word (5 * 2 ^ 60 + 8192 * x.first)) = .ok t →
    exec (.sqry f) s = .next t.retire)

/-! ### Estimates, results, launches, and the privileged instructions (R302 to R313) -/

/-- R302 to R305: `ESTSET` sends its estimate towards the hub; `COMMIT` adds to the result map once the firing's operations have landed;
`WUEND` ends the firing and the wrap-up; `LAUNCH` publishes its message in a mailbox of its tenant, or says that it could not. -/
def Obligations.EstimatesResultsLaunches : Prop :=
  (∀ (f : Fields) (s s1 : State) (a : Word), s.issues 0xD6 f → s.src f.a = .ok (a, s1) → a.toNat < 2 ^ 32 → immOutside f.a 0 65535 = false →
    s1.here.expired.contains s1.me.launch = false →
    exec (.estset f) s = .next ((s1.modLaunch s1.me.launch (fun l => { l with estMsgs := l.estMsgs ++ [(s1.cur, a.toNat)] })).post
      (.estimateArrival s1.me.launch)).retire) ∧
  (∀ (f : Fields) (s s1 : State) (a : Word), s.issues 0xD6 f → s.src f.a = .ok (a, s1) → 2 ^ 32 ≤ a.toNat → exec (.estset f) s = .next (s.takeExact 0x02 3 0)) ∧
  (∀ (f : Fields) (s s1 s2 : State) (a b : Word), s.issues 0xD7 f → f.modf = 0 → s.src f.a = .ok (a, s1) → s1.src f.b = .ok (b, s2) →
    (s.ownLanded s.cur s.me.fid = true → (∀ l, s.myLaunch = some l → l.phase ≠ .ending) →
      exec (.commit f) s = .next ((s2.modLaunch s.me.launch (fun l => { l with map := l.map ||| (b ++ a) })).demote true).retire) ∧
    (s.ownLanded s.cur s.me.fid = false → exec (.commit f) s = .next (s.stallMe .commit))) ∧
  (∀ (f : Fields) (s s1 : State) (a : Word), s.issues 0xD7 f → f.modf = 1 → s.src f.a = .ok (a, s1) →
    (a.toNat ≤ 127 → s.ownLanded s.cur s.me.fid = true → (∀ l, s.myLaunch = some l → l.phase ≠ .ending) →
      exec (.commit f) s = .next ((s1.modLaunch s.me.launch (fun l => { l with map := l.map ||| BitVec.ofNat 128 (2 ^ a.toNat) })).demote true).retire) ∧
    (127 < a.toNat → exec (.commit f) s = .next (s.takeExact 0x02 3 0))) ∧
  (∀ (f : Fields) (s : State), s.issues 0xD8 f → exec (.wuend f) s = .next ((s.retire.endFiring s.cur s.curSlot).endWrapup s.me.launch false)) ∧
  (∀ (f : Fields) (s s1 : State) (b : Word) (a : Nat) (l : Launch), s.issues 0xD9 f → s.src f.b = .ok (b, s1) → s.reach (s.addr f.a 64) 128 128 = .ok a →
    s.myLaunch = some l → b.toNat ≤ 63 → (s.mailbox l.tenant b.toNat).enable = true → pathOf (s.mailbox l.tenant b.toNat).base ≠ 3 →
    s.mailboxBad l.tenant b.toNat = none →
    (let m := (List.range 16).map (fun i => s.wordAt (a + 8 * i))
     (∀ t, s1.publish l.tenant b.toNat m l.prio = some t → exec (.launch f) s = .next ((t.giveLaunch l.tenant b.toNat s1.given).dstP f.d true).retire) ∧
     (s1.publish l.tenant b.toNat m l.prio = none → exec (.launch f) s = .next (s1.dstP f.d false).retire)))

/-- R307, R309 to R313: the privileged registers read as they were written, FEATALLOW in its four bits; what each of the system
instructions answers. The counters' reset values are the model's choice (log 12). That an event of a disabled
or full ring is not posted and its predicate says so (log 72), the trap value 3 of `MOVSW` (log 73), the queue of 16 invalidations (log 74), and
that `SPILLNI` writes all in one step (log 75), are its readings. -/
def Obligations.PrivilegedInstructions : Prop :=
  (∀ (f : Fields) (s s1 : State) (n : BitVec 17) (a : Word), s.issues 0xE0 f → f.d = .sys n → s.src f.a = .ok (a, s1) →
    (privOutside n.toNat a.toNat = false → ∃ t, exec (.movsw f) s = .next t ∧ t.privRead n.toNat = (if n.toNat = 0x804 then a &&& 0xF else a) ∧
      t.mem = s1.mem ∧ ∀ m, privRegister m = true → m ≠ n.toNat → t.privRead m = s1.privRead m) ∧
    (privOutside n.toNat a.toNat = true → exec (.movsw f) s = .next (s.takeExact 0x02 3 0))) ∧
  (∀ (f : Fields) (s : State) (n : BitVec 17) (d : BitVec 5), s.issues 0xE0 f → f.d = .g d → f.a = .sys n →
    steps (.movsw f) s (s.me.writeG d (s.privRead n.toNat))) ∧
  (∀ (f : Fields) (s s1 s2 : State) (a b : Word), s.issues 0xE4 f → s.src f.a = .ok (a, s1) → s1.src f.b = .ok (b, s2) → (b.toNat ≤ 64 ∨ f.modf.toNat % 4 = 2) →
    s.here.niinvs.length < 16 → exec (.niinv f) s = .next (s2.setHere { s2.here with
      niinvs := s2.here.niinvs ++ [(f.modf.toNat % 4, (f.modf.getLsbD 2).toNat, b.toNat, a)] }).retire) ∧
  (∀ (f : Fields) (s : State), s.issues 0xE5 f → if s.here.niinvs = [] then steps (.nisync f) s s.me else exec (.nisync f) s = .next (s.stallMe .nisync)) ∧
  (∀ (f : Fields) (s s1 t : State) (a : Word), s.issues 0xE6 f → s.src f.a = .ok (a, s1) → a.toNat ≤ 31 →
    (let e := Tab.get JournalEntry.free s1.here.journal a.toNat
     let e := if e.inUse ∧ e.launch = s1.me.launch then e else JournalEntry.free
     (f.modf = 0 → s1.dst f.d (word e.status) = .ok t → exec (.jrnl f) s = .next t.retire) ∧
     (f.modf = 1 → s1.dst f.d e.addr = .ok t → exec (.jrnl f) s = .next t.retire) ∧
     (f.modf = 2 → exec (.jrnl f) s = .next (s1.dstV f.d (BitVec.ofNat 512 (e.data.toNat % 2 ^ (8 * e.len)))).retire))) ∧
  (∀ (f : Fields) (s s1 : State) (a : Word), s.issues 0xE6 f → s.src f.a = .ok (a, s1) → 31 < a.toNat → exec (.jrnl f) s = .next (s.takeExact 0x02 3 0)) ∧
  (∀ (f : Fields) (s s1 : State) (a : Word) (b : BitVec 5) (p : BitVec 3), s.issues 0xE7 f → f.d = .p p → f.b = .v b → s.src f.a = .ok (a, s1) →
    0x8000 ≤ a.toNat → a.toNat ≤ 0xFFFF →
    (let r := s1.eventRing s1.myRing.1 s1.myRing.2
     let room := r.enable && s1.ringRoom (s1.ringPlace s1.myRing.1 r) (2 ^ r.log2)
     exec (.evpost f) s = .next ((s1.postEvent s1.myRing.1 s1.myRing.2 a.toNat (0x4000 + s1.cur)
       (lane 64 (s1.me.readV b) 0) (lane 64 (s1.me.readV b) 1)).dstP (.p p) room).retire)) ∧
  (∀ (f : Fields) (s s1 : State) (a : Word), s.issues 0xE7 f → s.src f.a = .ok (a, s1) → s1.privileged = false → (a.toNat < 0x8000 ∨ 0xFFFF < a.toNat) →
    exec (.evpost f) s = .next (s.takeExact 0x02 3 0)) ∧
  (∀ (f : Fields) (s s1 t : State) (a : Word), s.issues 0xE8 f → f.modf = 0 → s.src f.a = .ok (a, s1) → a.toNat ≤ 6 →
    s1.dst f.d (if a.toNat = 6 then word s1.me.count else s1.perfOf s1.here a.toNat) = .ok t → exec (.perf f) s = .next t.retire) ∧
  (∀ (f : Fields) (s s1 : State) (a : Word), s.issues 0xE8 f → f.modf = 1 → s.src f.a = .ok (a, s1) → a.toNat ≤ 4 →
    exec (.perf f) s = .next (s1.setHere { s1.here with perf := Tab.set s1.here.perf a.toNat 0 }).retire) ∧
  (∀ (f : Fields) (s : State), s.issues 0xE9 f → exec (.idle f) s = .next (s.stallMe .idle)) ∧
  (∀ (f : Fields) (s s1 t : State) (a : Word), s.issues 0xEA f → s.src f.a = .ok (a, s1) → pathOf a = 0 → a.toNat % 64 = 0 →
    (let x := s1.niBytes (clusterOf s1.cur) 0 []
     s1.spilling = false → s1.pagesPresent s1.here.tenant.toNat a x.2 = true → (s1.putBytes s1.here.tenant.toNat a x.1 x.2).dst f.d (word x.2) = .ok t →
     exec (.spillni f) s = .next t.retire))

/-! ### Events: firings and arrays (R36 to R47, R57, R88, R93, R146, R186, R255, R281 to R286) -/

/-- R37 to R43, R59, R88, R139, R186: a free slot starts the selected firing with its registers set; buckets are recomputed and estimates
stand; a stall that is over ends; the oldest full/empty access that may proceed does; an asynchronous trap becomes a trap firing. The
order in which events happen is the model's (log 1); that a running firing's extra words and slots cost the youngest pending firing its
own is its choice (log 100). -/
def Obligations.FiringEvents : Prop :=
  (∀ (c n : Nat) (p : Pending) (s : State), (s.core c).halted = false → (s.core c).freeSlot = some n → s.selected c = some (.firing p) →
    (p.source = .channel → ∃ l, s.launch? p.launch = some l ∧ s.fits c [] (s.needs c p.handler l) = true) →
    ∃ t, exec (.firingStart c) s = .next t ∧ (t.slot c n).st = .running ∧ (t.slot c n).launch = p.launch ∧ (t.slot c n).handler = p.handler ∧
      (t.slot c n).kind = ((s.core c).handler p.handler).kind ∧ (t.slot c n).pc = word ((s.core c).handler p.handler).entry ∧ (t.slot c n).count = 0 ∧
      (∀ lo hi, p.source = .field lo hi → (t.slot c n).readG 1 = lo ∧ (t.slot c n).readG 2 = hi) ∧
      (∀ w, p.source = .spawn w → (t.slot c n).task = some w) ∧
      (∀ ca pc v a, p.source = .trap ca pc v a → (t.slot c n).trapCause = word ca ∧ (t.slot c n).trapPc = pc ∧ (t.slot c n).trapVal = v ∧
        (t.slot c n).trapAddr = a)) ∧
  (∀ (c n : Nat) (e : WarrenEntry) (s : State), (s.core c).halted = false → (s.core c).freeSlot = some n → s.selected c = some (.walker e) →
    e.late s.fabric = [] → (s.cluster (clusterOf c)).overflow = [] → (s.cluster (clusterOf c)).spill = [] →
    ∃ t, exec (.firingStart c) s = .next t ∧ (t.slot c n).st = .running ∧ (t.slot c n).launch = e.msg.launch ∧ (t.slot c n).readM 0 = e.msg.members ∧
      (t.slot c n).readG 1 = word e.msg.key ∧ (t.slot c n).readG 2 = word e.msg.depth ∧ (t.slot c n).readG 3 = e.msg.carry6 ∧
      (t.slot c n).readG 4 = e.msg.carry7 ∧ (t.slot c n).meets = e.meets ∧ ∀ x ∈ (t.cluster (clusterOf c)).warren, x.serial ≠ e.serial) ∧
  (∀ (c : Nat) (s : State), ∃ t, exec (.bucketRecompute c) s = .next t ∧ t.mem = s.mem ∧
    (t.core c).buckets = (s.launches.filter (fun e => e.2.inField (clusterOf c))).map (fun e =>
      (e.1, s.bucket e.2 (Tab.get e.2.estimate (s.core c).estimates e.1)))) ∧
  (∀ (l c0 v : Nat) (x : Launch) (r : List (Nat × Nat)) (s : State), s.launch? l = some x → x.estMsgs = (c0, v) :: r →
    ¬ (x.estLast.1 = s.fabric ∧ c0 < x.estLast.2) →
    ∃ t, exec (.estimateArrival l) s = .next t ∧ (t.launch? l).map (·.estimate) = some v ∧ (t.launch? l).map (·.estMsgs) = some r ∧
      ∀ c ∈ x.cores, (Tab.find s.cores c).isSome → Tab.get 0 (t.core c).estimates l = v) ∧
  (∀ (l c0 v : Nat) (x : Launch) (r : List (Nat × Nat)) (s : State), s.launch? l = some x → x.estMsgs = (c0, v) :: r →
    x.estLast.1 = s.fabric → c0 < x.estLast.2 →
    ∃ t, exec (.estimateArrival l) s = .next t ∧ (t.launch? l).map (·.estimate) = some x.estimate ∧ (t.launch? l).map (·.estMsgs) = some r) ∧
  (∀ (c n : Nat) (s : State), (s.slot c n).st = .stalled → ({ s with cur := c, curSlot := n } : State).stallOver = true →
    ∃ t, exec (.stallResume c n) s = .next t ∧ t.slot c n = { s.slot c n with st := .running, stall := none } ∧ t.mem = s.mem) ∧
  (∀ (cl a : Nat) (w : Waiter) (s : State), s.grantee cl a = some w →
    (let u := s.runWaiting w.core w.slot
     ∃ t, exec (.fullEmptyGrant cl a) s = .next t ∧ t.mem = u.mem ∧ t.full = u.full ∧ t.cores = u.cores)) ∧
  (∀ (c h : Nat) (x : AsyncTrap) (r : List AsyncTrap) (s : State), (s.core c).halted = false → (s.core c).asyncTraps = x :: r →
    s.overdue c x.launch = false → s.trapHandler c = some h → ∃ t, exec (.asyncTrapDelivery c) s = .next t ∧ (t.core c).asyncTraps = r ∧
      (t.core c).pending = (s.core c).pending ++ [⟨.trap x.cause x.pc x.val x.addr, h, x.launch, s.now, s.serial, 0, 0⟩])

namespace Sys2Proof.Claims

/-- The eight jobs of a rotation end, once its bytes have moved: each arrives at its barrier, and a member whose range holds an error that
cannot be corrected ends its launch (R93, R185). -/
def rotationEnds (rs : List RotPart) (s : State) : State :=
  rs.foldl (fun s r => match s.job? r.job with
    | some j => (s.endJob j j.engineFault false).meetRanges j.launch r.core ((poolAt r.core r.src, poolAt r.core (r.src + r.len)) ::
        (if j.engineFault then [] else [(poolAt r.core r.dst, poolAt r.core (r.dst + r.len))]))
    | none => s) s

/-- The accumulator row for row m of a member's operation (R284, R285). -/
def accRowFor (s : State) (p : ArrayPart) (m : Nat) : Nat :=
  if p.gathered then p.row + s.mem.readN (poolAt p.core (p.accList.toNat % 2 ^ 17 + 2 * m)) 2 else p.row + m

/-- The K elements of a row of A in the bytes x, with the scales y of a scaled format (R159, R160). -/
def rowOf (o : ArrayOp) (x y : Nat) : List XVal :=
  (List.range o.k).map (fun e => scaledValue o.afmt (x / 2 ^ (fmtWidth (elemFmt o.afmt) * e) % 2 ^ fmtWidth (elemFmt o.afmt))
    (y / 256 ^ (e / groupOf o.afmt) % 256))
/-- Row m of A that an MMA streams, from base + m × stride (R282). -/
def streamedRow (s : State) (o : ArrayOp) (cl m : Nat) : List XVal :=
  rowOf o (s.mem.readN (storeAt cl (o.base.toNat % 2 ^ 19 + m * o.stride)) (rowBytes o.afmt o.k))
    (if isBlock o.afmt then s.mem.readN (storeAt cl (o.ascales.toNat % 2 ^ 19 + m * o.sstride)) (rowScales o.afmt o.k) else 0)
/-- Row m that an MMAG streams: entry m of the row list names row j; bit 31 gives zeros, and a row or scales that may not be read nothing
(R285). -/
def listedRow (s : State) (o : ArrayOp) (cl l m : Nat) : Option (List XVal) :=
  let j := s.mem.readN (storeAt cl (o.rowList.toNat % 2 ^ 19 + 4 * m)) 4
  if 2 ^ 31 ≤ j then some (List.replicate o.k (.fin false 0 1))
  else
    match s.storeRead cl l (o.base + word (j * o.stride)) (rowBytes o.afmt o.k),
      (if isBlock o.afmt then s.storeRead cl l (o.ascales + word (j * o.sstride)) (rowScales o.afmt o.k) else some 0) with
    | some x, some y => some (rowOf o x y)
    | _, _ => none

/-- Both formats are unscaled integers (R169, R284). -/
def integerPair (afmt wfmt : Nat) : Bool := decide (8 ≤ afmt ∧ afmt ≤ 15 ∧ 8 ≤ wfmt ∧ wfmt ≤ 15)

/-- Row x becomes row y where a is applied to n columns of a tile (R168, R169, R284): the first n lanes take the chain's results, the others
stand, the kind follows the formats, and a clamp sets the flag, which overwriting clears first. -/
def rowApplied (t : Tile) (afmt n : Nat) (acc : Bool) (a : List XVal) (x y : AccRow) : Prop :=
  let ints := integerPair afmt t.fmt
  let g := groupSize afmt t.fmt
  let terms := fun c => (List.range a.length).map (fun k => (t.weight c k).map (fun w => (a.getD k .nan).mul w))
  let chain := fun c => s32Acc g (if acc then (lane 32 x.lanes c).toInt else 0) ((terms c).map (fun z => (z.map XVal.int).getD 0))
  y.s32 = ints ∧ (∀ c, n ≤ c → c < 16 → lane 32 y.lanes c = lane 32 x.lanes c) ∧
    (∀ c, c < n → lane 32 y.lanes c = if ints then BitVec.ofInt 32 (chain c).1
      else BitVec.ofNat 32 (groupAccGaps g (if acc then (lane 32 x.lanes c).toNat else 0x80000000) (terms c))) ∧
    (y.ovf = true ↔ (acc = true ∧ x.ovf = true) ∨ (ints = true ∧ ∃ c, c < n ∧ (chain c).2 = true))

end Sys2Proof.Claims

/-- R57, R93, R146, R255, R268, R281 to R286: a gang forms and each `GANG` completes; eight agreeing parts form one array operation, which
then runs in order: of each member's rows the first N lanes take the chain's results (R168, R169), one arrival follows; an MSWAP exchanges
the planes; a rotation moves each core's bytes to its successor and completes its eight jobs; a wrap-up wait ends at a quiet point. The
order in which events happen is the model's (log 1); that the other members' operations end with the engine-fault flag when one leaves, that
a token stays in its port until the gang forms, and that rows are F32 where K is 0 and no tile stands, are its readings (log 41, log 105,
log 78). -/
def Obligations.GangAndArrayEvents : Prop :=
  (∀ (cl : Nat) (s : State), s.gangReady cl = true →
    ∃ t, exec (.gangFormation cl) s = .next t ∧ (t.cluster cl).gangMembers = coresOf cl ∧
      ∀ c ∈ coresOf cl, ∃ g, (s.core c).gang = some g ∧ (t.core c).gang = some { g with formed := true } ∧ (t.slot c g.slot).st = .running ∧
        (t.slot c g.slot).pc = (s.slot c g.slot).pc + 12) ∧
  (∀ (cl : Nat) (p : ArrayPart) (ps : List ArrayPart) (s : State), (s.cluster cl).gangIssued = p :: ps → (s.cluster cl).rotIssued = [] → ps.length = 7 →
    (let u := s.modCluster cl (fun k => { k with gangIssued := [], rotIssued := [], gangMembers := [] })
     ∃ t, exec (.arrayOperationForm cl) s = .next t ∧ (t.cluster cl).gangIssued = [] ∧ (t.cluster cl).arrayOps =
       if ps.all (fun x => x.opcode == p.opcode && x.desc == p.desc) && !(p :: ps).any u.tileMissing
       then (s.cluster cl).arrayOps ++ [arrayOpOf (p :: ps) p] else (s.cluster cl).arrayOps)) ∧
  (∀ (cl : Nat) (o : ArrayOp) (r : List ArrayOp) (s : State), (s.cluster cl).arrayOps = o :: r → o.swap = true →
    ∃ t, exec (.mswapApply cl) s = .next t ∧ (t.cluster cl).arrayOps = r ∧ (t.cluster cl).planes = swapPlanes (s.cluster cl).planes ∧ t.mem = s.mem) ∧
  (∀ (cl n : Nat) (o : ArrayOp) (p : ArrayPart) (r : List ArrayOp) (s : State), (s.cluster cl).arrayOps = o :: r → s.partDue cl n = some (o, p) →
    s.opBlocked cl o = false → s.health.bad = [] →
    ∃ t, exec (.arrayOperationComplete cl n) s = .next t ∧ (t.cluster cl).arrayOps =
      if ((s.readRows o p).finish p.core).parts.all (·.done) then r else (s.readRows o p).finish p.core :: r) ∧
  (∀ (cl n : Nat) (o : ArrayOp) (p : ArrayPart) (r : List ArrayOp) (s : State), (s.cluster cl).arrayOps = o :: r → s.partDue cl n = some (o, p) →
    s.opBlocked cl o = false → s.health.bad = [] → p.n ≤ 16 → p.bytes < 2 ^ 48 →
    (∀ i j, i < o.m → j < o.m → accRowFor s p i = accRowFor s p j → i = j) →
    ∃ t, exec (.arrayOperationComplete cl n) s = .next t ∧ barrierAt t p.barrier = (barrierAt s p.barrier).arrive p.bytes ∧
      (∀ c i, (c ≠ p.core ∨ p.n = 0 ∨ (s.core c).rows ≤ i ∨ ∀ m, m < o.m → accRowFor s p m ≠ i) → t.accRow c i = s.accRow c i) ∧
      (∀ m, m < o.m → 0 < p.n → accRowFor s p m < (s.core p.core).rows →
        (let x := s.accRow p.core (accRowFor s p m)
         let y := t.accRow p.core (accRowFor s p m)
         (o.k = 0 → p.acc = true → y = x) ∧
         (o.k = 0 → p.acc = false → y.ovf = false ∧ (∀ w, s.plane p.core 0 = some w → y.s32 = integerPair o.afmt w.fmt) ∧
           (s.plane p.core 0 = none → y.s32 = false) ∧
           ∀ c, c < 16 → lane 32 y.lanes c = if c < p.n then 0 else lane 32 x.lanes c) ∧
         (0 < o.k → s.plane p.core 0 = none → y = x) ∧
         (0 < o.k → (s.readRows o p).row m = none → y = x) ∧
         (∀ w a, 0 < o.k → s.plane p.core 0 = some w → (s.readRows o p).row m = some a → rowApplied w o.afmt p.n p.acc a x y))) ∧
      (∀ m, m < o.m → 0 < o.k → o.rows = none → (s.readRows o p).row m =
        if p.gathered then listedRow s o (clusterOf p.core) p.launch m else some (streamedRow s o (clusterOf p.core) m))) ∧
  (∀ (cl : Nat) (rs : List RotPart) (r : List (List RotPart)) (s : State), (s.cluster cl).gangIssuedAll = false → (s.cluster cl).rotations = rs :: r →
    s.rotationBlocked rs = false → s.health.bad = [] →
    ∃ t, exec (.rotationRun cl) s = .next t ∧ (t.cluster cl).rotations = r ∧ ∀ x ∈ rs, t.job? x.job = none) ∧
  (∀ (cl : Nat) (rs : List RotPart) (r : List (List RotPart)) (s : State), (s.cluster cl).gangIssuedAll = false → (s.cluster cl).rotations = rs :: r →
    s.rotationBlocked rs = false → (rs.map (·.core)).Nodup → (∀ x ∈ rs, clusterOf x.core = cl ∧ x.dst + x.len ≤ 2 ^ 17 ∧ x.len % 8 = 0) →
    (∀ x ∈ rs, ∀ y ∈ rs, x.len = y.len) → (∀ x ∈ rs, ∀ j, s.job? x.job = some j → j.engineFault = false) →
    ∃ u : State, exec (.rotationRun cl) s = .next (rotationEnds rs u) ∧
      (∀ x ∈ rs, ∀ y ∈ rs, succOf x.core = y.core → u.mem.readN (poolAt y.core y.dst) y.len = s.mem.readN (poolAt x.core x.src) x.len) ∧
      (∀ i, (∀ y ∈ rs, ¬ (poolAt y.core y.dst ≤ i ∧ i < poolAt y.core y.dst + y.len)) → u.mem.read i = s.mem.read i)) ∧
  (∀ (l c n : Nat) (x : Launch) (r : List (Nat × Nat)) (s : State), s.launch? l = some x → s.quietWaiters l = (c, n) :: r → x.phase = .wrapping →
    s.quiet l = true →
    ∃ t, exec (.wrapupQuietPoint l) s = .next t ∧ t.mem = (s.runWaiting c n).mem ∧ t.cores = (s.runWaiting c n).cores)

/-! ### Events: words, walkers and jobs (R45 to R47, R64 to R68, R78, R90, R251, R261, R384) -/

namespace Sys2Proof.Claims

/-- Job x may land its next piece: it has started, nothing holds it back, and its barrier, which is local, stands where it names it. -/
structure Lands (s : State) (n : Nat) (x : Job) : Prop where
  job : s.job? n = some x
  waiting : x.waiting = none
  unfilled : x.unfilled = false
  paused : x.paused = false
  resend : x.resendAt = none
  clear : s.blocked x = false
  started : x.started = true
  more : x.next < x.total
  sound : s.health.bad = []
  here : s.awayOf x.launch (clusterOf x.core) = none
  path : pathOf x.barAddr = 4 ∨ pathOf x.barAddr = 5
  barrier : s.barrierWords x = (x.barrier, x.barrier + 8)

/-- The next piece of job n lands, and of memory only n bytes from a change, to those of v, the lowest first, and its barrier. -/
def landsBytes (s : State) (n : Nat) (x : Job) (a m v : Nat) : Prop :=
  ∃ t, exec (.jobPieceLand n) s = .next t ∧ ∀ i, (i < x.barrier ∨ x.barrier + 16 ≤ i) →
    t.mem.read i = if a ≤ i ∧ i < a + m then BitVec.ofNat 8 (v / 256 ^ (i - a)) else s.mem.read i

end Sys2Proof.Claims

/-- R45 to R47, R65 to R68, R78, R90, R251, R261, R384: a channel word is accepted or turned back, a freed slot returns to its mirror, ring
words pass to the neighbour, walker messages merge or make an entry, a hold ends; a piece of a job lands, of a copy, a `GET` or a `PUT` the
bytes of its source, of an `AMO`, `AMOX` or `QST` the operation's result (R244, R262, R264, R265, R236), and a waiting job retries. The
order in which events happen is the model's (log 1); a copy takes its bytes as each piece lands, in index order (log 16), the clusters of a
`QST` in index order too (log 156), a free value chooses among several walker messages (log 83), and what marks a job for a retry (log 34),
and that a covered search skips vectors outside its card (log 137), are its readings. -/
def Obligations.ArrivalAndJobEvents : Prop :=
  (∀ (c net : Nat) (w : OutWord) (q : List OutWord) (l : Launch) (s : State), (s.core c).outQueue net = w :: q → w.turned = false →
    (∀ x ∈ (s.core c).outQueue (1 - net), x.dest = w.dest → w.seq ≤ x.seq) → s.wordHeld c net w = false → s.wordRefused w = false → s.launch? w.launch = some l → s.away l (clusterOf w.core) = none →
    s.stopped w.core w.launch = false →
    ((w.credited = true ∨ (s.core w.core).roomFor w = true) → ∃ t, exec (.channelWordArrival c net) s = .next t ∧
      (t.core w.core).channels = (s.core w.core).channels ++ [w.arrived] ∧ (t.core c).outQueue net = q) ∧
    (w.credited = false → (s.core w.core).roomFor w = false → ∃ t, exec (.channelWordArrival c net) s = .next t ∧
      (t.core w.core).channels = (s.core w.core).channels ∧
      (t.core c).outQueue net = (w :: q).map (fun x => if x == w then { x with turned := true } else x))) ∧
  (∀ (c net : Nat) (w : OutWord) (r : List OutWord) (s u : State), ((s.core c).outQueue net).filter (fun w => w.turned) = w :: r →
    s.wordRefused w = false → (s.modCore c (fun k => k.setOutQueue net (removeFirst w ((s.core c).outQueue net)))).accept w = some u →
    ∃ t, exec (.wordReoffer c net) s = .next t ∧ t.cores = u.cores ∧ t.mem = u.mem) ∧
  (∀ (c ch : Nat) (s : State), (s.core c).returns.contains ch = true →
    ∃ t, exec (.freeSlotReturn c ch) s = .next t ∧ (t.core c).returns = removeFirst ch (s.core c).returns ∧
      Tab.get 0 (t.core c).mirrors ch = Tab.get 0 (s.core c).mirrors ch - 1) ∧
  (∀ (c : Nat) (w : QWord) (r : List QWord) (s : State), (s.core c).ringOut4 = w :: r → (s.core c).ringOut5 = [] → s.stopped (succOf c) w.launch = false →
    ∃ t, exec (.ringWordArrival c) s = .next t ∧ (t.core (succOf c)).ring5 = (s.core (succOf c)).ring5 ++ [w] ∧ (t.core c).ringOut4 = r) ∧
  (∀ (c : Nat) (w : QWord) (r : List QWord) (s : State), (s.core c).ringOut5 = w :: r → (s.core c).ringOut4 = [] → s.stopped (predOf c) w.launch = false →
    ∃ t, exec (.ringWordArrival c) s = .next t ∧ (t.core (predOf c)).ring4 = (s.core (predOf c)).ring4 ++ [w] ∧ (t.core c).ringOut5 = r) ∧
  (∀ (c : Nat) (w : Walker) (l : Launch) (s : State), (s.core c).outWalk[s.walkerPick (s.core c).outWalk.length]? = some w →
    s.launch? w.launch = some l → l.phase = .running →
    (let r := (s.core c).outWalk.eraseIdx (s.walkerPick (s.core c).outWalk.length)
     let owner := ownerCore (word w.key) l.hashSeed l.base l.size
     let cl := clusterOf owner
     let h := (s.core owner).handler w.handler
     s.away l cl = none → s.absorber cl w = none →
     ((s.cluster cl).warren.any (fun e => e.msg.sameKey w) = true → ∃ t, exec (.walkerMessageArrival c) s = .next t ∧ (t.core c).outWalk = r ∧
       (t.cluster cl).warren = (s.cluster cl).warren.map (fun e => if e.msg.sameKey w then e.meet s.fabric h w else e)) ∧
     ((s.cluster cl).warren.any (fun e => e.msg.sameKey w) = false → (s.cluster cl).warren.length < 128 →
       ∃ t e, exec (.walkerMessageArrival c) s = .next t ∧ (t.core c).outWalk = r ∧ (t.cluster cl).warren = (s.cluster cl).warren ++ [e] ∧
         e.msg = w ∧ e.owner = owner ∧ e.meets = 1 ∧ e.pending = (h.hold == 0)))) ∧
  (∀ (cl n : Nat) (x : WarrenEntry) (s : State), (s.cluster cl).warren.find? (fun x => x.serial == n && !x.pending) = some x → x.holdEnd ≤ s.fabric →
    ∃ t, exec (.holdReached cl n) s = .next t ∧ ∀ y ∈ (t.cluster cl).warren, y.serial = n → y.pending = true) ∧
  (∀ (n : Nat) (x y : Job) (r : Done) (s : State), s.job? n = some x → x.opcode ∈ [0x79, 0xA0, 0xA1, 0xA2, 0xA3, 0xA4, 0xA5, 0xA6, 0xA7, 0xA8, 0xE2] →
    x.waiting = none → x.unfilled = false → x.paused = false → x.resendAt = none → s.blocked x = false → x.started = true → x.next + 1 < x.total →
    s.piece x = .ok r → r.s.job? n = some y → y.next + 1 < y.total →
    ∃ t, exec (.jobPieceLand n) s = .next t ∧ (t.job? n).map (·.next) = some (y.next + 1) ∧ (t.job? n).map (·.arrived) = some (if y.journal.isSome then y.arrived else y.arrived + r.n)) ∧
  (∀ (n lo m : Nat) (x : Job) (s : State), Lands s n x → x.opcode = 0xA0 → pathOf (rw x.run 0) = 4 → pathOf (rw x.run 1) = 4 →
    x.journal = none → pieceOf (rn x.run 0) (rn x.run 2) x.next = (lo, m) →
    rn x.run 0 % 2 ^ 17 + rn x.run 2 ≤ 2 ^ 17 → rn x.run 1 % 2 ^ 17 + rn x.run 2 ≤ 2 ^ 17 →
    (let p := poolAt x.core (rn x.run 1 % 2 ^ 17 + lo)
     let q := poolAt x.core (rn x.run 0 % 2 ^ 17 + lo)
     ∃ t, exec (.jobPieceLand n) s = .next t ∧ ∀ i, (i < x.barrier ∨ x.barrier + 16 ≤ i) →
       t.mem.read i = if q ≤ i ∧ i < q + m then s.mem.read (i - q + p) else s.mem.read i)) ∧
  (∀ (n lo m p q : Nat) (x : Job) (s : State), Lands s n x → (x.opcode = 0xA0 ∨ x.opcode = 0xA2 ∨ x.opcode = 0xA3) → x.journal = none →
    pieceOf (rn x.run 0) (rn x.run 2) x.next = (lo, m) → pathOf (rw x.run 1) ≠ 9 → pathOf (rw x.run 1 + word lo) ≠ 1 →
    (rw x.run 1 + word lo).toNat % 8 + m ≤ 8 → s.placeFor x (rw x.run 1 + word lo) m 0 = .mem p →
    (s.sourceRead x (rw x.run 1) lo m).placeFor x (rw x.run 0 + word lo) m 1 = .mem q → landsBytes s n x q m (s.mem.readN p m)) ∧
  (∀ (n lo m v q : Nat) (x : Job) (s : State), Lands s n x → (x.opcode = 0xA0 ∨ x.opcode = 0xA2 ∨ x.opcode = 0xA3) → x.journal = none →
    pieceOf (rn x.run 0) (rn x.run 2) x.next = (lo, m) → s.readSource x (rw x.run 1) lo m = .ok v →
    (s.sourceRead x (rw x.run 1) lo m).placeFor x (rw x.run 0 + word lo) m 1 = .mem q → landsBytes s n x q m v) ∧
  (∀ (n lo m q e : Nat) (x : Job) (s : State), Lands s n x → x.opcode = 0xA3 → x.journal = some e → pieceOf (rn x.run 0) (rn x.run 2) x.next = (lo, m) →
    s.placeFor x (rw x.run 0 + word lo) m 1 = .mem q → landsBytes s n x q m (Mem.readN x.data lo m)) ∧
  (∀ (n q : Nat) (x : Job) (s : State), Lands s n x → x.opcode = 0xA6 → x.journal = none → (rw x.run 1).getLsbD 4 = false →
    s.engineHolds x (rw x.run 0) = true → s.place x.core x.launch x.tenant (rw x.run 0) 8 2 = .mem q →
    landsBytes s n x q 8 (atomicResult (rn x.run 1 % 16) (s.wordAt q) (rw x.run 2) (rw x.run 4)).toNat) ∧
  (∀ (n q : Nat) (x : Job) (s : State), Lands s n x → x.opcode = 0xA6 → x.journal = none → (rw x.run 1).getLsbD 4 = true →
    s.engineHolds x (rw x.run 0) = true → s.place x.core x.launch x.tenant (rw x.run 0) 16 2 = .mem q →
    landsBytes s n x q 16 (if s.mem.readN q 16 = rn x.run 4 + rn x.run 5 * 2 ^ 64 then rn x.run 2 + rn x.run 3 * 2 ^ 64 else s.mem.readN q 16)) ∧
  (∀ (n idx b q : Nat) (x : Job) (s : State), Lands s n x → x.opcode = 0xA7 → x.journal = none → s.read x 2 (rw x.run 2 + word (4 * x.next)) 4 = .ok idx →
    idx < rn x.run 4 → x.allows (rw x.run 0 + word (8 * idx)) pathsAtomic 8 true = true → s.engineHolds x (rw x.run 0 + word (8 * idx)) = true →
    (let u := s.didRead x (rw x.run 2 + word (4 * x.next)) 4
     let listed := (rw x.run 3).getLsbD 36
     let w := if listed then u.didRead x (rw x.run 1 + word (8 * x.next)) 8 else u
     (if listed then u.read x 1 (rw x.run 1 + word (8 * x.next)) 8 = .ok b else b = rn x.run 1) →
     w.place x.core x.launch x.tenant (rw x.run 0 + word (8 * idx)) 8 2 = .mem q →
     landsBytes s n x q 8 (atomicResult (rn x.run 3 / 2 ^ 32 % 16) (s.wordAt q) (word b) 0).toNat)) ∧
  (∀ (n idx : Nat) (x : Job) (s : State), Lands s n x → x.opcode = 0xA7 → x.journal = none → s.read x 2 (rw x.run 2 + word (4 * x.next)) 4 = .ok idx →
    rn x.run 4 ≤ idx → landsBytes s n x 0 0 0) ∧
  (∀ (n : Nat) (x : Job) (l : Launch) (s : State), Lands s n x → x.opcode = 0x79 → x.journal = none → s.launch? x.launch = some l →
    (let cl := l.base + x.next
     let off := rn x.run 0 % 2 ^ 19
     s.awayOf x.launch cl = none → s.remoteAllows none x.tenant x.launch cl (8 * cl) true off 8 = true →
     landsBytes s n x (storeAt cl off) 8 (atomicResult (4 + rn x.run 2 % 4) (s.wordAt (storeAt cl off)) (rw x.run 1) 0).toNat)) ∧
  (∀ (n ch : Nat) (x : Job) (u : State) (a b : List Nat) (s : State), s.job? n = some x → (x.opcode = 0xC0 ∨ x.opcode = 0xC1) → x.started = true →
    x.paused = false → x.resendAt = none → x.waiting = none → x.landed.contains ch = false → ch < 64 → s.listWaits x ch = none →
    s.channelIds x ch = .ok (a, b) → s.searchList x ch = .ok u →
    exec (.searchListLand n ch) s = .next (u.listLanded { (u.job? n).getD x with engineFault := x.engineFault || a != b } ch false)) ∧
  (∀ (n : Nat) (x : Job) (s : State), s.job? n = some x → x.waiting.isSome = true → x.retry = true →
    ∃ t, exec (.jobRetry n) s = .next t ∧ (t.job? n).map (·.waiting) = some none ∧ t.mem = s.mem)

/-! ### Events: the course of a launch (R49 to R62, R123 to R150) -/

namespace Sys2Proof.Claims

/-- From s to t the head m of queue q left it without being placed, and its record, which shows a status and a class, is on its way. -/
def turnedAway (s t : State) (q : Nat) (m : Queued) (status cls : Nat) : Prop :=
  t = (s.leaveQueue q).endUnplaced m status cls (some q) ∧ ((s.leaveQueue q).recordBad m.fn m.crec = false → t.launches = s.launches ∧
    t.queue q = (s.queue q).drop 1 ∧ ∃ j, t.jobs = s.jobs ++ [j] ∧ j.opcode = jobRecord ∧ j.run.getD 0 0 = m.crec ∧
      j.run.getD 3 0 = recordHead status cls 0)

end Sys2Proof.Claims

/-- R49 to R62, R125 to R150: placement, refusal and expiry in a queue; seeds; expiry on a core and while descheduled; the two budgets of
wrap-up; completion and its record; recalls, their bounds and windows; launch numbers and areas that become free. The order in which
events happen is the model's (log 1); that a recall leaves its queue when its routine starts (log 44), and that a refusal is
found before expiry and expiry before placement (log 80), are its readings. -/
def Obligations.LaunchEvents : Prop :=
  (∀ (q : Nat) (m : Queued) (r : List Queued) (s : State), s.queue q = m :: r → m.behind = false → m.late = false → s.queueBusy q = false →
    (∀ n, s.refusal m = some n → ∃ t, exec (.placement q) s = .next t ∧ turnedAway s t q m 5 n) ∧
    (s.refusal m = none → m.deadline ≠ 0 → m.deadline ≤ s.now → ∃ t, exec (.placement q) s = .next t ∧ turnedAway s t q m 3 0) ∧
    (∀ (e : Option Nat) (n a : Nat) (f : Found), s.refusal m = none → (m.deadline = 0 ∨ s.now < m.deadline) → s.placeable m = some (e, n, a) →
      (s.imageHeader m.msg m.fn).bind (s.findImage m.msg m.fn) = some f → ∃ t l, exec (.placement q) s = .next t ∧ t.queue q = r ∧
        t.launch? n = some l ∧ l.number = n ∧ l.msg = m.msg ∧ l.tenant = m.fn ∧ l.phase = .running ∧ l.context = e ∧ l.area = a) ∧
    (m.deadline ≠ 0 → m.deadline ≤ s.now → ∃ t, exec (.deadlineBeforePlacement q) s = .next t ∧ turnedAway s t q m 3 0)) ∧
  (∀ (q : Nat) (m : Queued) (r : List Queued) (s : State), s.queue q = m :: r → m.late = true → s.queueBusy q = false →
    ∃ t, exec (.expiredInQueue q) s = .next t ∧ turnedAway s t q m 3 0) ∧
  (∀ (l : Nat) (j : Job) (x : Launch) (s : State), s.seedJob? l = some j → s.launch? l = some x → x.number = l → x.phase = .running → j.waiting = none →
    (∀ h, x.seedEnd = none → (pathOf (x.msg.getD 8 0) = 0 ∨ pathOf (x.msg.getD 8 0) = 1) → (x.msg.getD 8 0).toNat % 64 = 0 →
      s.read j 1 (x.msg.getD 8 0) 64 = .ok h → h < 2 ^ 24 → ∃ t, exec (.seedSend l) s = .next t ∧ (t.launch? l).map (·.seedEnd) = some (some h)) ∧
    (∀ n, x.seedEnd = some n → n ≤ x.seedNext → ∃ t, exec (.seedSend l) s = .next t ∧ t.job? j.id = none) ∧
    (∀ n y, x.seedEnd = some n → x.seedNext < n → s.read j 1 (x.msg.getD 8 0 + word (64 + 64 * x.seedNext)) 64 = .ok y → seedBad x (elems 64 8 y) = true →
      ∃ t, exec (.seedSend l) s = .next t ∧ (t.launch? l).map (·.seedNext) = some (x.seedNext + 1))) ∧
  (∀ (l c : Nat) (x : Launch) (s : State), s.launch? l = some x → x.deadline ≠ 0 → x.deadline ≤ s.now → x.inField (clusterOf c) = true →
    s.decides x c = true → (s.core c).expired.contains l = false →
    ((x.phase = .wrapping ∨ (x.phase = .running ∧ s.completes x = false)) →
      ∃ t, exec (.deadlineExpiry l c) s = .next t ∧ (t.core c).expired.contains l = true) ∧
    (s.completes x = true → ∃ t, exec (.deadlineExpiry l c) s = .next t ∧ (t.launch? l).map (fun y => (y.phase, y.status)) = some (.ending, 1))) ∧
  (∀ (l e : Nat) (x : Launch) (s : State), s.launch? l = some x → x.context = some e → x.phase = .running → x.deadline ≠ 0 → x.deadline ≤ s.now →
    s.descheduled x = true → (s.boundary x.tenant = false ∨ x.deadline ≤ s.boundaryTime x.tenant) →
    ∃ t, exec (.descheduledExpiry l) s = .next t ∧ (t.launch? l).map (·.expired) = some true) ∧
  (∀ (c k : Nat) (l : Launch) (s : State), s.launch? (s.slot c k).launch = some l → (s.slot c k).st = .running → (s.slot c k).kind = .wrapup →
    l.wrapBudget ≤ (s.slot c k).count → ∃ t, exec (.wrapupBudgetExhausted c k) s = .next t ∧ (t.slot c k).st = .free) ∧
  (∀ (l b : Nat) (x : Launch) (s : State), s.launch? l = some x → x.wrapStart = some b → x.phase = .wrapping → b + x.wallLeft ≤ s.now →
    ∃ t, exec (.wallBudgetExpiry l) s = .next t ∧ (t.launch? l).map (fun y => (y.phase, y.status)) = some (.ending, 3)) ∧
  (∀ (l : Nat) (x : Launch) (s : State), s.launch? l = some x → s.completes x = true →
    ∃ t, exec (.launchComplete l) s = .next t ∧ (t.launch? l).map (fun y => (y.phase, y.status)) = some (.ending, 1)) ∧
  (∀ (l : Nat) (x : Launch) (s : State), s.launch? l = some x → x.phase = .ending →
    (let u : State := { s.endWaiting l with jobs := (s.endWaiting l).jobs.filter (fun j => !(j.opcode == jobSeed && j.launch == l)) }
     u.recordDue x = true → ∃ t j, exec (.completionRecordWrite l) s = .next t ∧ t.jobs = u.jobs ++ [j] ∧ j.opcode = jobRecord ∧
       j.run.getD 0 0 = x.crec ∧ j.run.getD 3 0 = recordHead x.status x.cls x.place)) ∧
  (∀ (c : Nat) (r : Recall) (s : State), s.nextRecall c = some r →
    (s.settOf (clusterOf c) r.handle = none → ∃ t, exec (.recallHead c) s = .next t ∧ (t.core c).recalls = (s.core c).recalls.filter (fun x => x.id != r.id)) ∧
    (∀ (x : Sett) (h : Nat), s.settOf (clusterOf c) r.handle = some x → x.st = .current → s.windowRefusals x < s.refusalLimit c x.launch →
      x.routine = some h → ∃ t, exec (.recallHead c) s = .next t ∧
        (t.core c).pending = (s.core c).pending ++ [⟨.recall r.handle, h, x.launch, s.now, s.serial, 0, 0⟩])) ∧
  (∀ (c : Nat) (s : State), ∃ t, exec (.recallPlace c) s = .next t ∧
    (t.core c).recalls = (s.core c).recalls ++ (s.core c).recallWait.take (4 - ((s.core c).recalls.filter (fun r => !r.running)).length) ∧
    (t.core c).recallWait = (s.core c).recallWait.drop (4 - ((s.core c).recalls.filter (fun r => !r.running)).length)) ∧
  (∀ (c k : Nat) (s : State), (s.slot c k).st = .running → (s.slot c k).kind = .surrender →
    ({ s with cur := c, curSlot := k } : State).routineBound (s.slot c k).surrSett ≤ (s.slot c k).count →
    ∃ t, exec (.surrenderBoundExceeded c k) s = .next t ∧ (t.slot c k).st = .free) ∧
  (∀ (cl g e : Nat) (x : Sett) (s : State), s.sett? cl g = some x → x.st = .finishing → x.finishEnd = some e → e ≤ s.now →
    ∃ t, exec (.finishLimitPassed cl g) s = .next t ∧ ∀ y ∈ (t.cluster cl).setts, y.gen = g → y.st = .stripping) ∧
  (∀ s : State, ∃ t, exec .refusalWindowEnd s = .next t ∧ ∀ (cl e : Nat), ∀ x ∈ (t.cluster cl).setts, x.windowEnd = some e → s.now < e) ∧
  (∀ s : State, ∃ t, exec .launchNumberRelease s = .next t ∧ t.retired = s.retired.filter s.carried) ∧
  (∀ s : State, ∃ t, exec .launchAreaRelease s = .next t ∧ t.heldAreas = s.heldAreas.filter (fun x => decide (s.now < x.2.2)))

/-! ### Events: the host (R358 to R371, R388, R391, R427) -/

namespace Sys2Proof.Claims

/-- The number that bytes at places hold, the lowest first, and memory once they hold another. -/
def bytesAt (s : State) : Places → Nat
  | [] => 0
  | x :: xs => s.mem.readN x.1 x.2 + 2 ^ (8 * x.2) * bytesAt s xs
def bytesPut (m : Mem) : Places → Nat → Mem
  | [], _ => m
  | x :: xs, v => bytesPut (Mem.writeN m x.1 x.2 (v % 2 ^ (8 * x.2))) xs (v / 2 ^ (8 * x.2))

end Sys2Proof.Claims

/-- R358 to R371, R388, R391, R427: what each thing that the host does changes, and the engine that consumes a mailbox slot. The order in
which events happen is the model's (log 1); what the host reads and writes comes as its inputs (log 6, log 110), which jobs a page waits for
(log 112) and what a cancellation answers for a launch that is ending already (log 81), how a post and a mailbox slot wait for a page that
the host owns (log 159), and where the capability header stands (log 145) are its readings; that a function level reset disables every
mailbox (log 55), and that the upper bits of CANCEL and of the command word are ignored (log 130), are its choices. -/
def Obligations.HostEvents : Prop :=
  (∀ (f m : Nat) (v : Word) (s : State), s.input = .tailWrite f m v → mailboxNamed f m = true →
    ∃ t, exec .tailWrite s = .next t ∧ (t.mailbox f m).tail = umax (s.mailbox f m).tail v ∧ t.mem = s.mem) ∧
  (∀ (f m : Nat) (v : Word) (s : State), s.input = .tailWrite f m v ∨ s.input = .cancelWrite f m v → mailboxNamed f m = false →
    exec .tailWrite s = .next s ∧ exec .cancelWrite s = .next s) ∧
  (∀ (f m : Nat) (v : Word) (s : State), s.input = .cancelWrite f m v → mailboxNamed f m = true →
    (let seq := v.toNat % 2 ^ 32
     let live := (s.launches.map (·.2)).find? (fun l => l.fn == f && l.mailbox == m && l.seq == seq)
     (∀ l, live = some l → ∃ t, exec .cancelWrite s = .next t ∧ (t.mailbox f m).cancelResult = (if l.status = 6 then 2 else 1) ∧
       (l.status = 6 → t.launches = s.launches) ∧
       (l.status ≠ 6 → s.launch? l.number = some l → (t.launch? l.number).map (fun x => (x.phase, x.status)) = some (.ending, 6))) ∧
     (∀ (e : Nat × List Queued), live = none → s.queues.find? (fun e => e.2.any (fun x => x.fn == f && x.mailbox == m && x.seq == seq)) = some e →
       ∃ t, exec .cancelWrite s = .next t ∧ (t.mailbox f m).cancelResult = 1) ∧
     (∀ j : Job, live = none → s.queues.find? (fun e => e.2.any (fun x => x.fn == f && x.mailbox == m && x.seq == seq)) = none →
       s.jobs.find? (fun j => j.unplacedRecord f m seq) = some j → ∃ t, exec .cancelWrite s = .next t ∧ t.launches = s.launches ∧
         (t.mailbox f m).cancelResult = if bitsOf (recInfoOf j.run).head.toNat 7 0 = 6 then 2 else 1) ∧
     (live = none → s.queues.find? (fun e => e.2.any (fun x => x.fn == f && x.mailbox == m && x.seq == seq)) = none →
       s.jobs.find? (fun j => j.unplacedRecord f m seq) = none →
       ∃ t, exec .cancelWrite s = .next t ∧ (t.mailbox f m).cancelResult = 2 ∧ t.launches = s.launches))) ∧
  (∀ (f m : Nat) (w0 w1 : Word) (s : State), s.input = .mailboxConfigWrite 0 f m w0 w1 → s.serving = true → mailboxNamed f m = true →
    s.mailboxConfigBad f m w1 = false → ∃ t, exec .mailboxConfigWrite s = .next t ∧ t.mailbox f m = { s.mailbox f m with
      base := w0, enable := w1.getLsbD 63, queue := bitsOf w1.toNat 47 32, log2 := bitsOf w1.toNat 4 0 }) ∧
  (∀ (b f m : Nat) (w0 w1 : Word) (s : State), s.input = .mailboxConfigWrite b f m w0 w1 →
    (b ≠ 0 ∨ s.serving = false ∨ mailboxNamed f m = false ∨ s.mailboxConfigBad f m w1 = true) → exec .mailboxConfigWrite s = .next s) ∧
  (∀ (f e : Nat) (w0 w1 : Word) (s : State), s.input = .eventRingConfigWrite 0 f e w0 w1 → f ≤ 64 → e < 16 → bitsOf w1.toNat 62 27 = 0 →
    bitsOf w1.toNat 15 5 = 0 → 4 ≤ bitsOf w1.toNat 4 0 → bitsOf w1.toNat 4 0 ≤ 20 →
    ∃ t, exec .eventRingConfigWrite s = .next t ∧ t.eventRing f e = ⟨w0, w1.getLsbD 63, bitsOf w1.toNat 26 16, bitsOf w1.toNat 4 0⟩) ∧
  (∀ (f : Nat) (a : Word) (s : State), s.input = .migGive f a → f ≤ 64 → s.ringPage (pageKey f a) = false → (s.page (pageKey f a)).taking = none →
    ((s.page (pageKey f a)).device = true ∨ ((s.page (pageKey f a)).requests = [] ∧ (s.page (pageKey f a)).holdEnd ≤ s.now) →
      ∃ t, exec .miggive s = .next t ∧ (t.page (pageKey f a)).device = true ∧ (s.heldPosts = [] → t.mem = s.mem)) ∧
    ((s.page (pageKey f a)).device = false → s.now < (s.page (pageKey f a)).holdEnd → ∃ t, exec .miggive s = .next t ∧
      (t.page (pageKey f a)).device = false ∧ (t.page (pageKey f a)).requests = (s.page (pageKey f a)).requests ++ [true])) ∧
  (∀ (f : Nat) (a : Word) (s : State), s.input = .migGive f a → (s.page (pageKey f a)).device = true → exec .miggive s = .next s) ∧
  (∀ (f : Nat) (a : Word) (s : State), s.input = .migTake f a → f ≤ 64 → s.ringPage (pageKey f a) = false → (s.page (pageKey f a)).taking = none →
    ((s.page (pageKey f a)).device = false ∨
        ((s.page (pageKey f a)).requests = [] ∧ (s.page (pageKey f a)).holdEnd ≤ s.now ∧ s.pageUsers (pageKey f a) = []) →
      ∃ t, exec .migtake s = .next t ∧ (t.page (pageKey f a)).device = false) ∧
    ((s.page (pageKey f a)).device = true → (s.page (pageKey f a)).requests = [] → (s.page (pageKey f a)).holdEnd ≤ s.now →
      s.pageUsers (pageKey f a) ≠ [] → ∃ t, exec .migtake s = .next t ∧ (t.page (pageKey f a)).device = true ∧
        (t.page (pageKey f a)).taking = some (s.pageUsers (pageKey f a)))) ∧
  (∀ (f : Nat) (a : Word) (s : State), (s.input = .migGive f a ∨ s.input = .migTake f a) → (64 < f ∨ s.ringPage (pageKey f a) = true) →
    exec .miggive s = .next s ∧ ((64 < f ∨ (s.page (pageKey f a)).device = true) → exec .migtake s = .next s)) ∧
  (∀ (f : Nat) (a : Word) (s : State), s.input = .migTake f a → f ≤ 64 → (s.page (pageKey f a)).device = false →
    exec .migtake s = .next (s.pageTold (pageKey f a))) ∧
  (∀ (f : Nat) (v : Word) (s : State), s.input = .migHoldWrite f v →
    exec .migholdWrite s = .next (if f = 0 ∧ v.toNat ≤ 100 then { s with migHold := v.toNat } else s)) ∧
  (∀ (k : Nat) (p : Page) (give : Bool) (s : State), s.pages.all (fun e => e.2.taking.isNone) = true →
    s.pages.filter (fun e => s.pageDue e.2) = [(k, p)] → s.page k = p → s.ringPage k = false → p.requests = [give] → p.device ≠ give → (give = true ∨ s.pageUsers k = []) →
    ∃ t, exec .pageHoldEnd s = .next t ∧ (t.page k).device = give ∧ (t.page k).requests = []) ∧
  (∀ (k : Nat) (p : Page) (ids : List Nat) (s : State), s.pages.filter (fun e => e.2.taking.isSome) = [(k, p)] → s.page k = p →
    s.pages.all (fun e => e.2.requests.isEmpty) = true → s.ringPage k = false → p.taking = some ids → (∀ i ∈ ids, s.job? i = none) →
    ∃ t, exec .pageHoldEnd s = .next t ∧ (t.page k).device = false ∧ (t.page k).taking = none) ∧
  (∀ (f off : Nat) (ps : Places) (s : State), s.input = .hostWindow f (.read off) → s.windowBytes f off 8 0 = some ps →
    exec .hostWindowRequest s = .next { s.hostGets ps with hostReplies := s.hostReplies ++ [word (bytesAt s ps)] }) ∧
  (∀ (f off n : Nat) (ps : Places) (s : State), s.input = .hostWindow f (.readBytes off n) → s.windowBytes f off n 0 = some ps →
    exec .hostWindowRequest s = .next { s.hostGets ps with
      hostReplies := s.hostReplies ++ (List.range ((n + 7) / 8)).map (fun i => word (bytesAt s ps / 2 ^ (64 * i))) }) ∧
  (∀ (i : Nat) (s : State), s.input = .hostWindow 0 (.config false i) →
    exec .hostWindowRequest s = .next { s with hostReplies := s.hostReplies ++ [s.bringupWord i] }) ∧
  (∀ (f off : Nat) (x : Word) (s : State), s.input = .barRead f off 8 → f ≤ 64 → off % 8 = 0 → s.barWord f off = some x →
    exec .hostWindowRequest s = .next { s with hostReplies := s.hostReplies ++ [x] }) ∧
  (∀ (f off : Nat) (ps : Places) (v : Word) (s : State), s.input = .hostWindow f (.write off v) → s.windowBytes f off 8 1 = some ps →
    (∀ x ∈ ps, inPage (fabricAt 0) x.1 x.2 = false ∧ inPage (entryAt 0 - 0x1000) x.1 x.2 = false) →
    ∃ t, exec .hostWindowRequest s = .next t ∧ t.mem = bytesPut s.mem ps v.toNat) ∧
  (∀ (f off : Nat) (ps : Places) (v : Word) (s : State), s.input = .hostWindow f (.fetchAdd off v) → s.windowBytes f off 8 2 = some ps →
    (∀ x ∈ ps, inPage (fabricAt 0) x.1 x.2 = false ∧ inPage (entryAt 0 - 0x1000) x.1 x.2 = false) →
    ∃ t, exec .hostWindowRequest s = .next t ∧ t.hostReplies = s.hostReplies ++ [word (bytesAt s ps)] ∧
      t.mem = bytesPut s.mem ps (word (bytesAt s ps) + v).toNat) ∧
  (∀ (a : Nat) (v : Word) (s : State), s.input = .registerWrite a v →
    (8 ≤ a → ∃ t, exec .registerWrite s = .next t ∧ Tab.get 0 t.regs a = v ∧ t.bringup = s.bringup) ∧
    (a = 5 → exec .registerWrite s = .next { s with bringup := { s.bringup with operand := v } }) ∧
    (a < 5 ∨ a = 7 → exec .registerWrite s = .next s) ∧
    (a = 6 → s.bringup.result ≠ 1 → ∃ t, exec .registerWrite s = .next t ∧ t.bringup = { s.bringup with
      length := v.toNat / 2 ^ 32, command := v.toNat % 16, reason := 0, result := if v.toNat % 16 = 1 ∨ v.toNat % 16 = 2 then 1 else 3 })) ∧
  (∀ (f base size : Nat) (s : State), s.input = .compatSet f base size → f ≤ 64 → size ≤ 2 ^ 36 →
    exec .registerWrite s = .next { s with compat := Tab.set s.compat f (base, size) }) ∧
  (∀ (n : Nat) (s : State), s.input = .functionReset n → n ≤ 64 → s.resets = [] →
    ∃ t, exec .functionLevelReset s = .next t ∧ t.resets.map (fun r => (r.tenant, r.byRing, r.begun)) = [(n, false, true)] ∧
      ∀ m, m < 64 → (t.mailbox n m).enable = false) ∧
  (∀ (x : StageRecord) (r : List StageRecord) (s : State), s.stage2Queue = x :: r → s.ringRoom (fun i => some (controlAt i)) 512 = true →
    s.niHeld = [] → ∃ t, exec .secondStageRecordMove s = .next t ∧ t.stage2Queue = r) ∧
  (∀ (f m p : Nat) (s : State), s.mailboxPlace f (s.mailbox f m) 8 = some p → s.consumable f m = true →
    s.boxHost f (s.mailbox f m) (s.consumed f m) = none →
    (let msg := (List.range 16).map (fun i =>
       match s.mailboxPlace f (s.mailbox f m) (128 * (s.consumed f m % 2 ^ (s.mailbox f m).log2 + 1) + 8 * i) with
       | some p => s.wordAt p
       | none => 0)
     let w0 := msgWord msg 0
     (bitsOf w0 7 0 = 0xFF → ∃ t, exec (.mailboxSlotConsume f m) s = .next t ∧ t.mem = Mem.writeN s.mem p 8 (s.consumed f m + 1) ∧ t.queues = s.queues) ∧
     (bitsOf w0 7 0 ≠ 0xFF → bitsOf w0 31 16 ≠ (s.mailbox f m).queue → ∃ t, exec (.mailboxSlotConsume f m) s = .next t ∧ t.launches = s.launches) ∧
     (bitsOf w0 7 0 ≠ 0xFF → bitsOf w0 31 16 = (s.mailbox f m).queue →
       ∃ t l, exec (.mailboxSlotConsume f m) s = .next t ∧ t.mem = Mem.writeN s.mem p 8 (s.consumed f m + 1) ∧
         t.queue (s.mailbox f m).queue = s.queue (s.mailbox f m).queue ++
           [⟨msg, f, m, !(s.queue (s.mailbox f m).queue).isEmpty || s.queueBusy (s.mailbox f m).queue, false, false, l⟩]))) ∧
  (∀ (f m : Nat) (s : State), s.consumable f m = false → s.boxHost f (s.mailbox f m) (s.consumed f m) = none →
    exec (.mailboxSlotConsume f m) s = .next s) ∧
  (∀ (f m : Nat) (a : Word) (s : State), (s.mailbox f m).enable = true → (s.mailboxPlace f (s.mailbox f m) 8).isSome = true →
    s.consumed f m < (s.mailbox f m).tail.toNat → s.boxHost f (s.mailbox f m) (s.consumed f m) = some a →
    exec (.mailboxSlotConsume f m) s = .next (s.askFor f a))

/-! ### Events: tenants and contexts (R375 to R381, R391 to R405) -/

/-- R375 to R381, R389 to R405: invalidations, context loads, quotas, reclaims and resets from a request ring; slices, quiescence and the
save of a context; the interrupts that freeze a core and let it go on. The order in which events happen is the model's (log 1); when a
reset cuts quiescence off, and that it disables rings and mailboxes (log 55), what stays in a saved context (log 53), where a slice begins
(log 89), which list heads are refused (log 109), and that a core which a debugger halts takes cause 4 with its slots frozen (log 103) are its
readings. -/
def Obligations.TenantEvents : Prop :=
  (∀ e ∈ [(Instr.requestPageInvalidate, 0), (.requestTenantInvalidate, 1), (.requestAllInvalidate, 2)], ∀ (r a : Nat) (w : List Nat) (s : State),
    s.ringHead r = some (a, w) → reqKind w = e.2 → reqVoid r w = false → ∃ t, exec (e.1 r) s = .next t ∧ ∀ x ∈ t.tlb, x ∈ s.tlb ∧
      (x.key % 2 = reqStage w - 1 → e.2 ≠ 2 ∧ (x.key / 2 = reqTenant r w →
        e.2 = 0 ∧ sameLeaf x.lvl (x.page * 65536) (bitsOf (reqAddr w).toNat 47 0) = false)) ∧
      (x.key % 2 = 0 → x.key / 2 = reqTenant r w → reqStage w = 2 → ∀ y ∈ x.tables,
        e.2 = 0 ∧ sameLeaf y.2 y.1 (bitsOf (reqAddr w).toNat 47 0) = false)) ∧
  (∀ (r a : Nat) (w : List Nat) (s : State), s.ringHead r = some (a, w) → reqKind w = 3 → reqVoid r w = false → s.serving = true →
    s.clusters.any (fun e => e.2.requests.any isFreeing) = false →
    (let x := s.contextRecord (reqTenant r w)
     (s.loadSkipped (reqTenant r w) x = true → exec (.contextLoad r) s = .next (s.ringDone r a 0)) ∧
     (s.loadSkipped (reqTenant r w) x = false → ∃ t c, exec (.contextLoad r) s = .next t ∧ Tab.find t.tenants (reqTenant r w) = some c ∧
       (c.held = none ∧ c.words = x ∨ c.held = some (x.getD 3 0, x.getD 6 0) ∧ ∀ i, i ≠ 3 → i ≠ 6 → c.words.getD i 0 = x.getD i 0)))) ∧
  (∀ (r a : Nat) (w : List Nat) (c : TenantCtx) (s : State), s.ringHead r = some (a, w) → reqKind w = 5 → reqVoid r w = false →
    Tab.find s.tenants (reqTenant r w) = some c → c.words.length = 8 →
    ∃ t, exec (.quotaChange r) s = .next t ∧
      ctxQuota (t.ctx (reqTenant r w)) = (if bitsOf (w.getD 1 0) 6 0 = 0 then 64 else bitsOf (w.getD 1 0) 6 0) ∧
      ctxGangDenied (t.ctx (reqTenant r w)) = bitOf (w.getD 1 0) 8) ∧
  (∀ (r a : Nat) (w : List Nat) (s : State), s.ringHead r = some (a, w) → reqKind w = 6 → reqVoid r w = false →
    (bitsOf (w.getD 1 0) 22 16 = 0 ∨ 64 < bitsOf (w.getD 1 0) 22 16) → exec (.reclaim r) s = .next (s.ringDone r a 0xFFFF)) ∧
  (∀ (r a : Nat) (w : List Nat) (s : State), s.ringHead r = some (a, w) → reqKind w = 6 → reqVoid r w = false →
    1 ≤ bitsOf (w.getD 1 0) 22 16 → bitsOf (w.getD 1 0) 22 16 ≤ 64 → bitOf (w.getD 1 0) 11 = false →
    (let cl := bitsOf (w.getD 1 0) 10 0
     let u := s.startFreeing cl 0 (some (bitsOf (w.getD 1 0) 22 16)) (bitOf (w.getD 1 0) 23)
     let o := u.freeTurn cl (reqTenant r w) 70
     ctxHolds (s.ctx (reqTenant r w)) cl = true → s.freeing? cl = none → o.freed cl (reqTenant r w) = true →
     ∃ t, exec (.reclaim r) s = .next t ∧ t = (o.setFreeing cl none).ringDone r a
       ((match o.freeing? cl with | some x => x.freed | none => 0) % 65536))) ∧
  (∀ (r a : Nat) (w : List Nat) (s : State), s.ringHead r = some (a, w) → reqKind w = 4 → reqVoid r w = false → s.resets = [] →
    ∃ t, exec (.tenantReset r) s = .next t ∧ t.resets.map (fun x => (x.tenant, x.byRing, x.begun)) = [(reqTenant r w, true, true)]) ∧
  (∀ (n e x : Nat) (b : Bool) (s : State), (let v := s.expireBefore n (s.boundaryTime n);
    let u := if v.listServed n then v.meetEntries n else v;
    u.boundary n = true ∧ (u.sched? n).resident = some e ∧ u.chosen n = some (x, b) →
    ∃ t, exec (.sliceBoundary n) s = .next t ∧ (x = e → (t.sched? n).sliceEnd = u.now + u.sliceOf e ∧ (t.sched? n).switching = none) ∧
      (x ≠ e → (t.sched? n).switching = some x ∧ (t.sched? n).resident = some e))) ∧
  (∀ (n e : Nat) (b : Bool) (s : State), (let v := s.expireBefore n (s.boundaryTime n);
    let u := if v.listServed n then v.meetEntries n else v;
    u.boundary n = true ∧ (u.sched? n).resident = none ∧ u.chosen n = some (e, b) → exec (.sliceBoundary n) s = .next (u.resume n e (!b)))) ∧
  (∀ (n e : Nat) (s : State), (let v := s.expireBefore n (s.boundaryTime n);
    let u := if v.listServed n then v.meetEntries n else v;
    u.boundary n = true ∧ (u.sched? n).resident = some e ∧ u.chosen n = none →
    ∃ t, exec (.sliceBoundary n) s = .next t ∧ (t.sched? n).sliceEnd = u.now + u.sliceOf e ∧ (t.sched? n).switching = none)) ∧
  (∀ (n e x : Nat) (s : State), (s.sched? n).resident = some e → (s.sched? n).switching = some x → (s.sched? n).limitEnd ≤ s.now →
    (s.partition n).all (fun cl => decide ((replaysIn (s.contextJobs n e) cl).length ≤ 512)) = true →
    ∃ t, exec (.quiescenceLimit n) s = .next t ∧ ∀ j ∈ t.jobs, ((s.contextJobs n e).map (·.id)).contains j.id = true → j.paused = true) ∧
  (∀ (n e x : Nat) (s : State), (s.sched? n).resident = some e → (s.sched? n).switching = some x → (s.sched? n).limitEnd ≤ s.now →
    (s.partition n).all (fun cl => decide ((replaysIn (s.contextJobs n e) cl).length ≤ 512)) = false →
    ∃ t, exec (.quiescenceLimit n) s = .next t ∧ (t.sched? n).told = true ∧ t.jobs = s.jobs) ∧
  (∀ (n e x : Nat) (s : State), (s.sched? n).resident = some e → (s.sched? n).switching = some x → s.saveReady n e = true →
    s.resets.any (fun r => r.tenant == n) = false → ∃ t, exec (.contextSaveComplete n) s = .next t ∧
      ((s.bringup.phase = 4 ∨ ctxEnable (s.ctx n) = false ∨ x ≠ e) →
        ∃ y, Tab.find t.saved e = some y ∧ y.jobs = ((s.contextJobs n e).filter (fun j => j.opcode != 0xAD)).map s.recorded) ∧
      ((s.bringup.phase = 4 ∨ ctxEnable (s.ctx n) = false) → t.sched? n = Sched.initial) ∧
      (s.bringup.phase ≠ 4 → ctxEnable (s.ctx n) = true → (t.sched? n).switching = none ∧
        ((t.sched? n).resident = none ∨ ((t.sched? n).resident = some x ∧ (t.sched? n).awaiting = true)))) ∧
  (∀ (c : Nat) (s : State), s.switchingOn c = true → s.stoppedBy c 1 = false → ∃ t, exec (.preemptionInterrupt c) s = .next t ∧
    (t.core c).halted = true ∧ (t.core c).intcause = intCause (s.entryOn c) 1 ∧ ∀ n, n < 8 → (t.slot c n).st ≠ .running ∧ (t.slot c n).st ≠ .stalled) ∧
  (∀ (c n : Nat) (s : State), s.ownerOf c = some n → s.resets.any (fun r => r.tenant == n && r.begun) = true → s.stoppedBy c 5 = false →
    ∃ t, exec (.resetInterrupt c) s = .next t ∧
      (t.core c).halted = true ∧ (t.core c).intcause = intCause (s.entryOn c) 5 ∧ ∀ n, n < 8 → (t.slot c n).st ≠ .running ∧ (t.slot c n).st ≠ .stalled) ∧
  (∀ (c : Nat) (s : State), s.input = .debuggerHalt c → c < 16384 → ∃ t, exec .debuggerHalt s = .next t ∧
    (t.core c).halted = true ∧ (t.core c).intcause = intCause (s.entryOn c) 2 ∧ ∀ n, n < 8 → (t.slot c n).st ≠ .running ∧ (t.slot c n).st ≠ .stalled) ∧
  (∀ (c : Nat) (s : State), s.input = .debuggerResume c → c < 16384 → s.switchingOn c = false → (s.core c).restoring = false →
    ∃ t, exec .debuggerResume s = .next t ∧
    (t.core c).halted = false ∧ (t.core c).intcause = intCause (s.entryOn c) 3 ∧ ∀ n, n < 8 → (s.slot c n).st = .frozen → (t.slot c n).st = .running) ∧
  (∀ (c n : Nat) (s : State), s.ownerOf c = some n → (s.core c).restoring = true → (s.sched? n).resident.isSome = true →
    (s.sched? n).resident = (s.cluster (clusterOf c)).context → (s.sched? n).switching = none →
    ((s.core c).debugHalt = false → ∃ t, exec (.contextRestore c) s = .next t ∧
      (t.core c).halted = false ∧ (t.core c).intcause = intCause (s.entryOn c) 4 ∧ ∀ n, n < 8 → (s.slot c n).st = .frozen → (t.slot c n).st = .running) ∧
    ((s.core c).debugHalt = true → ∃ t, exec (.contextRestore c) s = .next t ∧ (t.core c).halted = true ∧
      (t.core c).intcause = intCause (s.entryOn c) 4 ∧ ∀ n, n < 8 → (t.slot c n).st = (s.slot c n).st))

/-! ### Events: fabric and transport (R413 to R426) -/

/-- R413 to R426: errors, widths and states of links; a router that leaves service; ports, packets, the congestion table and the token
buckets. The order in which events happen is the model's (log 1); that a failed replay counts four failures and three replays, and that
widening is allowed whatever the control word says, are its readings (log 85); so are a link's words at its two ends and its capacity (log 98).
That an input names the packet that was lost (log 94), and the port that the spray gives it (log 139), are its choices. -/
def Obligations.FabricEvents : Prop :=
  (∀ (r p lane : Nat) (s : State), s.input = .flitCrc r p lane true → r < 256 → p < 16 → portState (s.portWord r p) < 2 →
    (portGood (s.portWord r p)).testBit lane = true →
    ((s.laneFaults.filter (fun f => decide (s.now < f.2.2.2 + 1000000))).filter (fun f => (linkKeys r p).contains (16 * f.1 + f.2.1) && f.2.2.1 == lane)).length < 15 →
    ∃ t, exec .flitCrcFailure s = .next t ∧ bitsOf (t.portWord r p) 63 48 = min (bitsOf (s.portWord r p) 63 48 + 1) 65535 ∧
      bitsOf (t.portWord r p) 47 32 = min (bitsOf (s.portWord r p) 47 32 + 1) 65535 ∧ t.health.replays = s.health.replays + 1 ∧
      bitsOf (t.portWord r p) 31 0 = bitsOf (s.portWord r p) 31 0) ∧
  (∀ (r p lane : Nat) (s : State), s.input = .flitCrc r p lane false → r < 256 → p < 16 → portState (s.portWord r p) < 2 →
    (portGood (s.portWord r p)).testBit lane = true →
    ∃ t, exec .flitCrcFailure s = .next t ∧ (portGood (t.portWord r p)).testBit lane = false ∧ portNarrowed (t.portWord r p) = true ∧
      ∀ y k, farEnd r p = some (y, k) → bitsOf (t.portWord y k) 31 0 = bitsOf (t.portWord r p) 31 0) ∧
  (∀ (r p n : Nat) (s : State), s.input = .narrowing r p n → r < 256 → p < 16 → s.fabricControl.getLsbD 0 = true → portNarrowed (s.portWord r p) = false →
    portState (s.portWord r p) = 0 → portWidth (s.portWord r p) < 2 → 8 * n < s.linkCapacity r p →
    ∃ t, exec .powerNarrowing s = .next t ∧ portWidth (t.portWord r p) = portWidth (s.portWord r p) + 1 ∧ portState (t.portWord r p) = 1 ∧
      ∀ y k, farEnd r p = some (y, k) → bitsOf (t.portWord y k) 31 0 = bitsOf (t.portWord r p) 31 0) ∧
  (∀ (r p n best : Nat) (s : State), s.input = .widening r p n → r < 256 → p < 16 → widest (portLanes r p) (popcount16 (portGood (s.portWord r p))) = some best →
    portState (s.portWord r p) = 0 → best < portWidth (s.portWord r p) → 32 ≤ n →
    ∃ t, exec .linkWidening s = .next t ∧ portWidth (t.portWord r p) = portWidth (s.portWord r p) - 1 ∧ portState (t.portWord r p) = 1) ∧
  (∀ (r p : Nat) (s : State), s.input = .renegotiated r p → r < 256 → p < 16 → portState (s.portWord r p) = 1 →
    ∃ t, exec .renegotiationEnd s = .next t ∧ portState (t.portWord r p) = 0 ∧ portWidth (t.portWord r p) = portWidth (s.portWord r p)) ∧
  (∀ s : State, s.input = .none → ∃ t, exec .renegotiationEnd s = .next t ∧
    ∀ e ∈ s.renegotiating, e.2 ≤ s.clock → portState (t.portWord (e.1 / 16) (e.1 % 16)) ≠ 1) ∧
  (∀ (r : Nat) (s : State), s.input = .routerFailure r → r < 256 → bitsOf (s.routerWord r) 7 0 = 0 →
    ∃ t, exec .routerFailure s = .next t ∧ bitsOf (t.routerWord r) 7 0 = 1 ∧ ∀ i, i < 8 → Tab.get 0 t.clusterState (8 * r + i) = 2) ∧
  (∀ s : State, ∃ t, exec .requestResend s = .next t ∧ t.mem = s.mem ∧ t.jobs = s.jobs.map (fun j =>
    match j.resendAt with
    | some u => if u ≤ s.now then { j with resendAt := none } else j
    | none => j)) ∧
  (∀ (p : Nat) (up : Bool) (s : State), s.input = .uePort p up → p < 16 → Tab.get false s.uePorts p ≠ up →
    ∃ t, exec .uePortStateChange s = .next t ∧ Tab.get false t.uePorts p = up) ∧
  (∀ (n k : Nat) (addr bar : Word) (bs : List Byte) (s : State), s.input = .packet (.write n k addr bs bar) →
    (s.receiver n = none → exec .transportPacketArrival s = .next s) ∧
    (∀ w u, s.receiver n = some w → s.seenPacket n k = some u → exec .transportPacketArrival s = .next u ∧ u.mem = s.mem ∧ u.jobs = s.jobs) ∧
    (∀ w, s.receiver n = some w → s.seenPacket n k = none → ∃ t j, exec .transportPacketArrival s = .next t ∧ t.jobs = s.jobs ++ [j] ∧ j.opcode = jobLand ∧
      j.tenant = w ∧ j.run.getD 0 0 = addr ∧ j.run.getD 1 0 = bar ∧ j.declared = bs.length)) ∧
  (∀ (n off : Nat) (x : Sent) (s : State), s.input = .packetLost n off → s.sent.find? (fun x => x.job == n && x.off == off && s.lost x) = some x →
    s.upPorts x.entry ≠ [] → ∃ t y, exec .packetResend s = .next t ∧ t.sent = s.sent ++ [y] ∧ y = { x with port := y.port, entropy := y.entropy } ∧
      ∃ p ∈ s.upPorts x.entry, y.port = some p) ∧
  (∀ (n p rtt win marked : Nat) (c : TenantCtx) (s : State), s.input = .congestion n p rtt win marked → Tab.find s.tenants n = some c →
    p < bitsOf (msgWord c.transport 1) 15 0 →
    (let a := hbmAt (msgWord c.transport 2 + 16 * p)
     ∃ t, exec .congestionTableUpdate s = .next t ∧ t.wordAt a = word (rtt % 2 ^ 32 * 2 ^ 32 + win % 2 ^ 32) ∧
       t.wordAt (a + 8) = word (s.now / 1000 % 2 ^ 48 * 2 ^ 16 + marked % 2 ^ 16))) ∧
  (∀ s : State, ∃ t, exec .tokenBucketRefill s = .next t ∧ t.refilled = s.now / 1000 ∧ ∀ cl n, (s.cluster cl).tenant = some n → s.rate n ≠ 0 →
    (t.cluster cl).bucket = min (s.burst n : Int) ((s.cluster cl).bucket + ((s.now / 1000 - s.refilled) * s.rate n : Nat)))

/-! ### Events: bring-up, device time and health (R135 to R137, R427 to R443) -/

namespace Sys2Proof.Claims

/-- After an hour of lock, holdover drifts by at most 20 ns in each second (R136). -/
def withinDrift (s : State) (e : Int) : Prop :=
  s.servo.lostAt - s.servo.lockedAt < 3600000000000 ∨ (e - s.servo.lostErr).natAbs ≤ 20 * ((s.now - s.servo.lostAt + 999999999) / 1000000000)

end Sys2Proof.Claims

/-- R136, R137, R428 to R443: discipline of device time; the phases of bring-up and its failures; the two commands; power, temperature,
telemetry and memory errors; the loss of power. Marker copies, the buffer of an attestation, device time before it is set, the holdover
limit and the servo's results follow the model's readings (log 58, 59, 60, 115), and errors that cannot be corrected those of log 57; that memory
reads as 0 after a module reset and after a loss of power is its choice (log 2). -/
def Obligations.BringupAndHealthEvents : Prop :=
  (∀ (e : Int) (p : Nat) (s : State), s.input = .servoLock e → s.servo.selected = some p → s.servo.state ≠ .locked →
    ∃ t, exec .servoLock s = .next t ∧ t.servo.state = .locked ∧ t.servo.err = e ∧ t.servo.port = p ∧
      t.servo.slew = (if s.servo.state = .holdover then -e else s.servo.slew)) ∧
  (∀ s : State, s.input = .none → s.servo.state = .locked → s.servo.heard + 4000000000 ≤ s.now →
    ∃ t, exec .disciplineLost s = .next t ∧ t.servo.state = .holdover ∧
      t.servo.limitPosted = decide (1000 * (s.core 0).holdlimit.toNat < s.servo.err.natAbs)) ∧
  (∀ (e : Int) (s : State), s.input = .disciplineLost e → s.servo.state = .locked →
    ∃ t, exec .disciplineLost s = .next t ∧ t.servo.state = .holdover ∧ t.servo.err = e ∧
      t.servo.limitPosted = decide (1000 * (s.core 0).holdlimit.toNat < e.natAbs)) ∧
  (∀ (e : Int) (s : State), s.input = .holdoverLimit e → s.servo.state = .holdover → s.servo.limitPosted = false → withinDrift s e →
    1000 * (s.core 0).holdlimit.toNat < e.natAbs → ∃ t, exec .holdoverLimitPassed s = .next t ∧ t.servo.limitPosted = true ∧ t.servo.err = e) ∧
  (∀ (p : Nat) (e d : Int) (s : State), s.input = .servoUpdate p e d → p < 16 → s.servo.selected = some p → (s.servo.state = .holdover → withinDrift s e) →
    ∃ t, exec .servoUpdate s = .next t ∧ t.servo = { s.servo with
      port := p, err := e, slew := d, heard := s.now, stamps := s.servo.stamps ++ [(p, false, s.now)], limitPosted := t.servo.limitPosted } ∧
      (s.servo.state = .holdover → 1000 * (s.core 0).holdlimit.toNat < e.natAbs → t.servo.limitPosted = true)) ∧
  (∀ (p : Nat) (e d : Int) (s : State), s.input = .servoUpdate p e d → p < 16 → (s.servo.selected ≠ some p ∨ (s.servo.state = .holdover ∧ ¬ withinDrift s e)) →
    exec .servoUpdate s = .next { s with servo := { s.servo with stamps := s.servo.stamps ++ [(p, false, s.now)] } }) ∧
  (∀ (p : Nat) (s : State), s.input = .announce p none → p < 16 → s.servo.state = .locked → s.servo.port = p →
    ∃ t, exec .servoUpdate s = .next t ∧ t.servo.state = .holdover ∧ t.servo.masters = Tab.erase s.servo.masters p) ∧
  (∀ (p : Nat) (sent : Bool) (s : State), s.input = .ptpEvent p sent → p < 16 →
    exec .servoUpdate s = .next { s with servo := { s.servo with stamps := s.servo.stamps ++ [(p, sent, s.now)] } }) ∧
  (∀ s : State, ∃ t, exec .moduleReset s = .next t ∧ t.mem = [] ∧ t.cores = [] ∧ t.launches = [] ∧ t.flash = s.flash ∧
    (t.bringup.phase, t.bringup.failure, t.bringup.slot, t.bringup.counter) = match s.flash.choice with
      | some (n, c) => (1, 0, n, word c)
      | none => (0xF, 1, 0, 0)) ∧
  (∀ s : State, s.bringup.phase = 1 → ∃ t, exec .selfTestComplete s = .next t ∧ t.bringup = { s.bringup with phase := 2 } ∧ t.coreClock = 2000 ∧ t.fabricClock = 1000) ∧
  (∀ s : State, s.bringup.phase = 1 ∨ s.bringup.phase = 2 →
    exec .selfTestFailure s = .next { s with bringup := { s.bringup with phase := 0xF, failure := if s.bringup.phase = 1 then 2 else 3 } }) ∧
  (∀ s : State, s.bringup.phase = 2 → ∃ t, exec .secondTierTrained s = .next t ∧ t.bringup = { s.bringup with phase := 3, pages := true } ∧ t.timeSet = true) ∧
  (∀ s : State, s.bringup.phase = 3 → s.bringup.failed = [] → ∃ t, exec .hbmTrained s = .next t ∧ t.bringup = { s.bringup with phase := 4 }) ∧
  (∀ (n : Nat) (s : State), s.input = .trainingFailure n → s.bringup.phase = 3 → s.bringup.failed.contains n = false → n < 16 →
    ∃ t, exec .hbmTrainingFailure s = .next t ∧ t.bringup = { s.bringup with failed := s.bringup.failed ++ [n] }) ∧
  (∀ s : State, s.switchReady = true → ∃ t, exec .clockSwitchComplete s = .next t ∧ t.bringup = { s.bringup with phase := 5 } ∧ t.coreClock = 4000 ∧ t.fabricClock = 2000) ∧
  (∀ s : State, s.bringup.result = 1 → s.bringup.command = 1 → s.commandOver = false →
    (let img := s.grab s.bringup.buffer s.bringup.length
     ∃ t, exec .updateCommand s = .next t ∧ t.flash = s.flash ∧ t.update = (if slotVerifies img then some img else s.update) ∧
       t.bringup.reason = if slotVerifies img then s.bringup.reason else 1)) ∧
  (∀ s : State, s.bringup.result = 1 → s.bringup.command = 2 → s.commandOver = false →
    ∃ t, exec .attestCommand s = .next t ∧ (s.bringup.length < 8192 → t.bringup.reason = 2 ∧ t.mem = s.mem) ∧
      (8192 ≤ s.bringup.length → 3932 + Config.identityCertificate.length ≤ s.bringup.length → t.attest = true)) ∧
  (∀ s : State, s.commandOver = true → ∃ t, exec .commandDone s = .next t ∧ t.bringup.result = (if s.bringup.reason = 0 then 2 else 3) ∧
    (∀ img, s.bringup.reason = 0 → s.update = some img → t.flash.slot (1 - s.bringup.slot) = img) ∧ (s.bringup.reason ≠ 0 → t.flash = s.flash)) ∧
  (∀ (w : Nat) (s : State), s.input = .powerLimit w →
    exec .powerLimitSet s = .next (if 2000 ≤ w ∧ w ≤ 5600 then { s with health := { s.health with limit := w } } else s)) ∧
  (∀ (x : Telemetry) (s : State), s.input = .throttle x → (s.health.limit < x.power.toNat ∨ 950 ≤ x.hottest.toNat) →
    ∃ t, exec .throttleStart s = .next t ∧ t.health.throttling = true ∧ t.health.fraction = x.throttle) ∧
  (∀ s : State, s.input = .none → s.health.throttling = false → (s.health.limit < s.health.reading.power.toNat ∨ 950 ≤ s.health.reading.hottest.toNat) →
    ∃ t, exec .throttleStart s = .next t ∧ t.health.throttling = true) ∧
  (∀ s : State, s.health.throttling = true → s.tooHot s.health.reading = false →
    ∃ t, exec .throttleEnd s = .next t ∧ t.health.throttling = false ∧ t.health.fraction = 0) ∧
  (∀ (die c : Nat) (s : State), s.input = .critical die c → 1050 ≤ c → s.health.stopped = false →
    ∃ t, exec .criticalTemperature s = .next t ∧ t.health.stopped = true ∧ t.health.powerOff = true ∧ t.alive = false) ∧
  (∀ s : State, s.input = .none → 1050 ≤ s.health.reading.hottest.toNat → s.health.stopped = false →
    ∃ t, exec .criticalTemperature s = .next t ∧ t.health.stopped = true ∧ t.health.powerOff = true ∧ t.alive = false) ∧
  (∀ (x : Telemetry) (s : State), s.input = .telemetry x → s.telemetryDue = true → ∃ t, exec .telemetryRecord s = .next t ∧ t.health.reading = x ∧
    t.health.corrected = 0 ∧ t.health.replays = 0 ∧ t.health.withheld = 0 ∧ t.health.nextTelemetry = s.health.nextTelemetry + 1000000) ∧
  (∀ (a : Nat) (s : State), a < 3 * 2 ^ 60 ∨ 6 * 2 ^ 60 ≤ a →
    (s.input = .scrub a .clean → ∃ t, exec .scrubPass s = .next t ∧ t.mem = s.mem ∧ t.badWord (a / 8 * 8) 8 = none) ∧
    (∀ b, s.input = .scrub a (.corrected b) → ∃ t, exec .scrubPass s = .next t ∧ t.health.corrected = s.health.corrected + 1) ∧
    (s.input = .scrub a (.uncorrectable []) → ∃ t, exec .scrubPass s = .next t ∧ t.health.bad.contains (a / 8) = true ∧ t.launches = s.launches)) ∧
  (∀ s : State, ∃ t, exec .powerLoss s = .next t ∧ t.mem = [] ∧ t.flash = s.tornFlash ∧ t.health.powered = false ∧ t.bringup.phase = 0)

/-! ### The machine as a whole -/

namespace Sys2Proof.Claims

/-- Fields with the guard p of `pred`, hints 0 and no reserved bit. -/
def word96 (pred : BitVec 3) (hints : BitVec 7) (d a b : Operand) (modf : BitVec 16) : Fields := ⟨false, pred, hints, false, d, a, b, modf⟩

end Sys2Proof.Claims

/-- R50, R135, R178, R179, R370, R398, R413, R427: State.reset has the values that the manual gives for reset (the slots Free and nothing
placed or in flight, the privileged registers, MIGHOLD, the fabric words, the bring-up block), and its memory is in the canonical form.
What the model chose (log 3 to 13) is not stated. -/
def Obligations.ResetState : Prop :=
  State.reset.Canonical ∧ State.reset.bringup.phase = 0 ∧ State.reset.bringup.pages = false ∧ State.reset.launches = [] ∧ State.reset.jobs = [] ∧
  State.reset.timeSet = false ∧ State.reset.migHold = 5 ∧ State.reset.fabricControl = 1 ∧
  (∀ r, State.reset.routerWord r = 0x800) ∧ (∀ i, i < 8 → State.reset.bringupWord i = 0) ∧
  (∀ c, (State.reset.core c).intcause = 0 ∧ (State.reset.core c).ctxbase = 0 ∧ (State.reset.core c).spillbase = 0 ∧
    (State.reset.core c).permbase = 0 ∧ (State.reset.core c).featallow = 0xF ∧ (State.reset.core c).tenant = 0 ∧
    (State.reset.core c).reflimit = 2 ∧ (State.reset.core c).finlimit = 100 ∧ (State.reset.core c).holdlimit = 10 ∧
    (State.reset.core c).image = none) ∧
  (∀ c n, (State.reset.slot c n).st = .free)

/-- R7, R87: every step keeps memory in its canonical form. The canonical form, and that an unlisted byte reads as 0, are the model's
choice (log 2). -/
def Obligations.MemoryStaysCanonical : Prop := ∀ s t : State, s.Canonical → step s = .next t → t.Canonical

/-- R171 to R176, R180: decoding an encoded instruction gives it back, for every instruction of the opcode map with every operand that the
encoding admits. -/
def Obligations.DecodeOfEncode : Prop :=
  ∀ (i : Instr) (x : BitVec 96) (l : List Byte), i.encodable = true → encode i = some x → decodeBytes (bytesOfNat 12 x.toNat ++ l) = .ok (i, l)

/-- R171 to R176: words written out from the encodings of the manual, and what each decodes to. -/
def Obligations.DecodedWords : Prop :=
  ∀ e ∈ ([(0x8010800007A9FFDE00000002, .ld (word96 1 4 (.g 7) (.mem 9 (-3)) .none 2)),
    (0x31000000048D159E00000002, .movh (word96 0 0 (.g 4) (.imm 0xD159) .none 2)),
    (0x88000E0000A4002000060004, .stef (word96 0 0 .none (.mem 4 2) (.g 6) 4)),
    (0xA0000E0000B4000000040001, .copy (word96 0 0 .none (.mem 20 0) (.g 4) 1)),
    (0xD4000E000080010E00000001, .sverd (word96 0 0 .none (.imm 16) .none 1)),
    (0x7A000200060000A400120003, .walk (word96 0 0 (.v 6) (.g 10) (.m 2) 3)),
    (0xB200070040A2000A30020001, .mma (word96 0 0 (.row 64) (.mem 2 0) (.mem 3 2) 1)),
    (0x874000000DB0004E00000002, .ldff (word96 4 0 (.g 13) (.mem 16 4) .none 2))] : List (BitVec 96 × Instr)),
    decodeWord e.1 = e.2

/-- R35, R39, R141, R143, R171, R172, R397: where a slot issues, the instruction that the 12 bytes at its pc decode to is run, the first
issue of a resumed context begins its slice, and one clock passes; past the end of the code, and where a deadline, a bound or a budget is
used up, what stands in its place is run. Which agent moves, and that one clock passes with each move, are the model's choice (log 1, log
15); that the privileged handler's issues begin no slice is its reading (log 89). -/
def Obligations.StepRunsTheDecodedInstruction : Prop :=
  ∀ (s s1 : State) (c n : Nat), s.move = .issue c n s1 →
    (let u := s1.select c n
     let goes := u.privileged = true ∨ (u.timeUp = none ∧ u.boundHit = none)
     (∀ (m : Mem) (len : Nat) (i : Instr) (l : List Byte), goes → u.code = some (m, len) → u.me.pc.toNat < len →
       decodeBytes (codeBytes m u.me.pc.toNat) = .ok (i, l) → step s = afterMove (afterIssue s1 c n (exec i u)) ∧
         ∀ t, exec i u = .next t → step s = .next (s1.noteIssue t c n).pass) ∧
     (∀ (m : Mem) (len : Nat), goes → u.code = some (m, len) → len ≤ u.me.pc.toNat →
       step s = afterMove (afterIssue s1 c n (exec (.illegalInstruction .pastEnd) u))) ∧
     (∀ i, u.privileged = false → (u.timeUp = some i ∨ (u.timeUp = none ∧ u.boundHit = some i)) →
       step s = afterMove (afterIssue s1 c n (exec i u))) ∧
     (goes → u.code = none → step s = .fault (.noImage c)))
end

