-- ==== Sys2Proof/Laws/State.lean ====
section
/-! SUPPORT. One lemma per field of State for each plain update, so that no proof unfolds a record update; and the fields of a slot and a
core that register writes and slot writes keep. -/

namespace Sys2Proof.Machine

@[simp] theorem State.setCore_mem (s : State) (c : Nat) (k : Core) : (s.setCore c k).mem = s.mem := rfl
@[simp] theorem State.setCore_full (s : State) (c : Nat) (k : Core) : (s.setCore c k).full = s.full := rfl
@[simp] theorem State.setCore_clock (s : State) (c : Nat) (k : Core) : (s.setCore c k).clock = s.clock := rfl
@[simp] theorem State.setCore_timeBase (s : State) (c : Nat) (k : Core) : (s.setCore c k).timeBase = s.timeBase := rfl
@[simp] theorem State.setCore_timeSet (s : State) (c : Nat) (k : Core) : (s.setCore c k).timeSet = s.timeSet := rfl
@[simp] theorem State.setCore_turns (s : State) (c : Nat) (k : Core) : (s.setCore c k).turns = s.turns := rfl
@[simp] theorem State.setCore_agenda (s : State) (c : Nat) (k : Core) : (s.setCore c k).agenda = s.agenda := rfl
@[simp] theorem State.setCore_timers (s : State) (c : Nat) (k : Core) : (s.setCore c k).timers = s.timers := rfl
@[simp] theorem State.setCore_input (s : State) (c : Nat) (k : Core) : (s.setCore c k).input = s.input := rfl
@[simp] theorem State.setCore_cur (s : State) (c : Nat) (k : Core) : (s.setCore c k).cur = s.cur := rfl
@[simp] theorem State.setCore_curSlot (s : State) (c : Nat) (k : Core) : (s.setCore c k).curSlot = s.curSlot := rfl
@[simp] theorem State.setCore_serial (s : State) (c : Nat) (k : Core) : (s.setCore c k).serial = s.serial := rfl
@[simp] theorem State.setCore_nextJob (s : State) (c : Nat) (k : Core) : (s.setCore c k).nextJob = s.nextJob := rfl
@[simp] theorem State.setCore_nextFiring (s : State) (c : Nat) (k : Core) : (s.setCore c k).nextFiring = s.nextFiring := rfl
@[simp] theorem State.setCore_freeTick (s : State) (c : Nat) (k : Core) : (s.setCore c k).freeTick = s.freeTick := rfl
@[simp] theorem State.setCore_cores (s : State) (c : Nat) (k : Core) : (s.setCore c k).cores = Tab.set s.cores c k := rfl
@[simp] theorem State.setCore_clusters (s : State) (c : Nat) (k : Core) : (s.setCore c k).clusters = s.clusters := rfl
@[simp] theorem State.setCore_images (s : State) (c : Nat) (k : Core) : (s.setCore c k).images = s.images := rfl
@[simp] theorem State.setCore_launches (s : State) (c : Nat) (k : Core) : (s.setCore c k).launches = s.launches := rfl
@[simp] theorem State.setCore_retired (s : State) (c : Nat) (k : Core) : (s.setCore c k).retired = s.retired := rfl
@[simp] theorem State.setCore_queues (s : State) (c : Nat) (k : Core) : (s.setCore c k).queues = s.queues := rfl
@[simp] theorem State.setCore_jobs (s : State) (c : Nat) (k : Core) : (s.setCore c k).jobs = s.jobs := rfl
@[simp] theorem State.setCore_writes (s : State) (c : Nat) (k : Core) : (s.setCore c k).writes = s.writes := rfl
@[simp] theorem State.setCore_older (s : State) (c : Nat) (k : Core) : (s.setCore c k).older = s.older := rfl
@[simp] theorem State.setCore_syncs (s : State) (c : Nat) (k : Core) : (s.setCore c k).syncs = s.syncs := rfl
@[simp] theorem State.setCore_barriers (s : State) (c : Nat) (k : Core) : (s.setCore c k).barriers = s.barriers := rfl
@[simp] theorem State.setCore_hostSeen (s : State) (c : Nat) (k : Core) : (s.setCore c k).hostSeen = s.hostSeen := rfl
@[simp] theorem State.setCore_hostWrote (s : State) (c : Nat) (k : Core) : (s.setCore c k).hostWrote = s.hostWrote := rfl
@[simp] theorem State.setCore_metBad (s : State) (c : Nat) (k : Core) : (s.setCore c k).metBad = s.metBad := rfl
@[simp] theorem State.setCore_heldAreas (s : State) (c : Nat) (k : Core) : (s.setCore c k).heldAreas = s.heldAreas := rfl
@[simp] theorem State.setCore_posted (s : State) (c : Nat) (k : Core) : (s.setCore c k).posted = s.posted := rfl
@[simp] theorem State.setCore_sent (s : State) (c : Nat) (k : Core) : (s.setCore c k).sent = s.sent := rfl
@[simp] theorem State.setCore_unsent (s : State) (c : Nat) (k : Core) : (s.setCore c k).unsent = s.unsent := rfl
@[simp] theorem State.setCore_gotPackets (s : State) (c : Nat) (k : Core) : (s.setCore c k).gotPackets = s.gotPackets := rfl
@[simp] theorem State.setCore_congestion (s : State) (c : Nat) (k : Core) : (s.setCore c k).congestion = s.congestion := rfl
@[simp] theorem State.setCore_refilled (s : State) (c : Nat) (k : Core) : (s.setCore c k).refilled = s.refilled := rfl
@[simp] theorem State.setCore_mailboxes (s : State) (c : Nat) (k : Core) : (s.setCore c k).mailboxes = s.mailboxes := rfl
@[simp] theorem State.setCore_eventRings (s : State) (c : Nat) (k : Core) : (s.setCore c k).eventRings = s.eventRings := rfl
@[simp] theorem State.setCore_eventSeq (s : State) (c : Nat) (k : Core) : (s.setCore c k).eventSeq = s.eventSeq := rfl
@[simp] theorem State.setCore_msix (s : State) (c : Nat) (k : Core) : (s.setCore c k).msix = s.msix := rfl
@[simp] theorem State.setCore_migHold (s : State) (c : Nat) (k : Core) : (s.setCore c k).migHold = s.migHold := rfl
@[simp] theorem State.setCore_pages (s : State) (c : Nat) (k : Core) : (s.setCore c k).pages = s.pages := rfl
@[simp] theorem State.setCore_compat (s : State) (c : Nat) (k : Core) : (s.setCore c k).compat = s.compat := rfl
@[simp] theorem State.setCore_regs (s : State) (c : Nat) (k : Core) : (s.setCore c k).regs = s.regs := rfl
@[simp] theorem State.setCore_hostReplies (s : State) (c : Nat) (k : Core) : (s.setCore c k).hostReplies = s.hostReplies := rfl
@[simp] theorem State.setCore_tenants (s : State) (c : Nat) (k : Core) : (s.setCore c k).tenants = s.tenants := rfl
@[simp] theorem State.setCore_resetCounts (s : State) (c : Nat) (k : Core) : (s.setCore c k).resetCounts = s.resetCounts := rfl
@[simp] theorem State.setCore_stage2Queue (s : State) (c : Nat) (k : Core) : (s.setCore c k).stage2Queue = s.stage2Queue := rfl
@[simp] theorem State.setCore_niHeld (s : State) (c : Nat) (k : Core) : (s.setCore c k).niHeld = s.niHeld := rfl
@[simp] theorem State.setCore_heldPosts (s : State) (c : Nat) (k : Core) : (s.setCore c k).heldPosts = s.heldPosts := rfl
@[simp] theorem State.setCore_faultSeq (s : State) (c : Nat) (k : Core) : (s.setCore c k).faultSeq = s.faultSeq := rfl
@[simp] theorem State.setCore_tlb (s : State) (c : Nat) (k : Core) : (s.setCore c k).tlb = s.tlb := rfl
@[simp] theorem State.setCore_ringUpTo (s : State) (c : Nat) (k : Core) : (s.setCore c k).ringUpTo = s.ringUpTo := rfl
@[simp] theorem State.setCore_sched (s : State) (c : Nat) (k : Core) : (s.setCore c k).sched = s.sched := rfl
@[simp] theorem State.setCore_saved (s : State) (c : Nat) (k : Core) : (s.setCore c k).saved = s.saved := rfl
@[simp] theorem State.setCore_refusedEntries (s : State) (c : Nat) (k : Core) : (s.setCore c k).refusedEntries = s.refusedEntries := rfl
@[simp] theorem State.setCore_resets (s : State) (c : Nat) (k : Core) : (s.setCore c k).resets = s.resets := rfl
@[simp] theorem State.setCore_fabricControl (s : State) (c : Nat) (k : Core) : (s.setCore c k).fabricControl = s.fabricControl := rfl
@[simp] theorem State.setCore_routers (s : State) (c : Nat) (k : Core) : (s.setCore c k).routers = s.routers := rfl
@[simp] theorem State.setCore_ports (s : State) (c : Nat) (k : Core) : (s.setCore c k).ports = s.ports := rfl
@[simp] theorem State.setCore_clusterState (s : State) (c : Nat) (k : Core) : (s.setCore c k).clusterState = s.clusterState := rfl
@[simp] theorem State.setCore_sparesUsed (s : State) (c : Nat) (k : Core) : (s.setCore c k).sparesUsed = s.sparesUsed := rfl
@[simp] theorem State.setCore_uePorts (s : State) (c : Nat) (k : Core) : (s.setCore c k).uePorts = s.uePorts := rfl
@[simp] theorem State.setCore_laneFaults (s : State) (c : Nat) (k : Core) : (s.setCore c k).laneFaults = s.laneFaults := rfl
@[simp] theorem State.setCore_renegotiating (s : State) (c : Nat) (k : Core) : (s.setCore c k).renegotiating = s.renegotiating := rfl
@[simp] theorem State.setCore_servo (s : State) (c : Nat) (k : Core) : (s.setCore c k).servo = s.servo := rfl
@[simp] theorem State.setCore_bringup (s : State) (c : Nat) (k : Core) : (s.setCore c k).bringup = s.bringup := rfl
@[simp] theorem State.setCore_flash (s : State) (c : Nat) (k : Core) : (s.setCore c k).flash = s.flash := rfl
@[simp] theorem State.setCore_update (s : State) (c : Nat) (k : Core) : (s.setCore c k).update = s.update := rfl
@[simp] theorem State.setCore_attest (s : State) (c : Nat) (k : Core) : (s.setCore c k).attest = s.attest := rfl
@[simp] theorem State.setCore_health (s : State) (c : Nat) (k : Core) : (s.setCore c k).health = s.health := rfl
@[simp] theorem State.setCore_coreClock (s : State) (c : Nat) (k : Core) : (s.setCore c k).coreClock = s.coreClock := rfl
@[simp] theorem State.setCore_fabricClock (s : State) (c : Nat) (k : Core) : (s.setCore c k).fabricClock = s.fabricClock := rfl
@[simp] theorem State.setCore_privCode (s : State) (c : Nat) (k : Core) : (s.setCore c k).privCode = s.privCode := rfl
@[simp] theorem State.setCore_privLen (s : State) (c : Nat) (k : Core) : (s.setCore c k).privLen = s.privLen := rfl

@[simp] theorem State.setCluster_mem (s : State) (c : Nat) (k : Cluster) : (s.setCluster c k).mem = s.mem := rfl
@[simp] theorem State.setCluster_full (s : State) (c : Nat) (k : Cluster) : (s.setCluster c k).full = s.full := rfl
@[simp] theorem State.setCluster_clock (s : State) (c : Nat) (k : Cluster) : (s.setCluster c k).clock = s.clock := rfl
@[simp] theorem State.setCluster_timeBase (s : State) (c : Nat) (k : Cluster) : (s.setCluster c k).timeBase = s.timeBase := rfl
@[simp] theorem State.setCluster_timeSet (s : State) (c : Nat) (k : Cluster) : (s.setCluster c k).timeSet = s.timeSet := rfl
@[simp] theorem State.setCluster_turns (s : State) (c : Nat) (k : Cluster) : (s.setCluster c k).turns = s.turns := rfl
@[simp] theorem State.setCluster_agenda (s : State) (c : Nat) (k : Cluster) : (s.setCluster c k).agenda = s.agenda := rfl
@[simp] theorem State.setCluster_timers (s : State) (c : Nat) (k : Cluster) : (s.setCluster c k).timers = s.timers := rfl
@[simp] theorem State.setCluster_input (s : State) (c : Nat) (k : Cluster) : (s.setCluster c k).input = s.input := rfl
@[simp] theorem State.setCluster_cur (s : State) (c : Nat) (k : Cluster) : (s.setCluster c k).cur = s.cur := rfl
@[simp] theorem State.setCluster_curSlot (s : State) (c : Nat) (k : Cluster) : (s.setCluster c k).curSlot = s.curSlot := rfl
@[simp] theorem State.setCluster_serial (s : State) (c : Nat) (k : Cluster) : (s.setCluster c k).serial = s.serial := rfl
@[simp] theorem State.setCluster_nextJob (s : State) (c : Nat) (k : Cluster) : (s.setCluster c k).nextJob = s.nextJob := rfl
@[simp] theorem State.setCluster_nextFiring (s : State) (c : Nat) (k : Cluster) : (s.setCluster c k).nextFiring = s.nextFiring := rfl
@[simp] theorem State.setCluster_freeTick (s : State) (c : Nat) (k : Cluster) : (s.setCluster c k).freeTick = s.freeTick := rfl
@[simp] theorem State.setCluster_cores (s : State) (c : Nat) (k : Cluster) : (s.setCluster c k).cores = s.cores := rfl
@[simp] theorem State.setCluster_clusters (s : State) (c : Nat) (k : Cluster) : (s.setCluster c k).clusters = Tab.set s.clusters c k := rfl
@[simp] theorem State.setCluster_images (s : State) (c : Nat) (k : Cluster) : (s.setCluster c k).images = s.images := rfl
@[simp] theorem State.setCluster_launches (s : State) (c : Nat) (k : Cluster) : (s.setCluster c k).launches = s.launches := rfl
@[simp] theorem State.setCluster_retired (s : State) (c : Nat) (k : Cluster) : (s.setCluster c k).retired = s.retired := rfl
@[simp] theorem State.setCluster_queues (s : State) (c : Nat) (k : Cluster) : (s.setCluster c k).queues = s.queues := rfl
@[simp] theorem State.setCluster_jobs (s : State) (c : Nat) (k : Cluster) : (s.setCluster c k).jobs = s.jobs := rfl
@[simp] theorem State.setCluster_writes (s : State) (c : Nat) (k : Cluster) : (s.setCluster c k).writes = s.writes := rfl
@[simp] theorem State.setCluster_older (s : State) (c : Nat) (k : Cluster) : (s.setCluster c k).older = s.older := rfl
@[simp] theorem State.setCluster_syncs (s : State) (c : Nat) (k : Cluster) : (s.setCluster c k).syncs = s.syncs := rfl
@[simp] theorem State.setCluster_barriers (s : State) (c : Nat) (k : Cluster) : (s.setCluster c k).barriers = s.barriers := rfl
@[simp] theorem State.setCluster_hostSeen (s : State) (c : Nat) (k : Cluster) : (s.setCluster c k).hostSeen = s.hostSeen := rfl
@[simp] theorem State.setCluster_hostWrote (s : State) (c : Nat) (k : Cluster) : (s.setCluster c k).hostWrote = s.hostWrote := rfl
@[simp] theorem State.setCluster_metBad (s : State) (c : Nat) (k : Cluster) : (s.setCluster c k).metBad = s.metBad := rfl
@[simp] theorem State.setCluster_heldAreas (s : State) (c : Nat) (k : Cluster) : (s.setCluster c k).heldAreas = s.heldAreas := rfl
@[simp] theorem State.setCluster_posted (s : State) (c : Nat) (k : Cluster) : (s.setCluster c k).posted = s.posted := rfl
@[simp] theorem State.setCluster_sent (s : State) (c : Nat) (k : Cluster) : (s.setCluster c k).sent = s.sent := rfl
@[simp] theorem State.setCluster_unsent (s : State) (c : Nat) (k : Cluster) : (s.setCluster c k).unsent = s.unsent := rfl
@[simp] theorem State.setCluster_gotPackets (s : State) (c : Nat) (k : Cluster) : (s.setCluster c k).gotPackets = s.gotPackets := rfl
@[simp] theorem State.setCluster_congestion (s : State) (c : Nat) (k : Cluster) : (s.setCluster c k).congestion = s.congestion := rfl
@[simp] theorem State.setCluster_refilled (s : State) (c : Nat) (k : Cluster) : (s.setCluster c k).refilled = s.refilled := rfl
@[simp] theorem State.setCluster_mailboxes (s : State) (c : Nat) (k : Cluster) : (s.setCluster c k).mailboxes = s.mailboxes := rfl
@[simp] theorem State.setCluster_eventRings (s : State) (c : Nat) (k : Cluster) : (s.setCluster c k).eventRings = s.eventRings := rfl
@[simp] theorem State.setCluster_eventSeq (s : State) (c : Nat) (k : Cluster) : (s.setCluster c k).eventSeq = s.eventSeq := rfl
@[simp] theorem State.setCluster_msix (s : State) (c : Nat) (k : Cluster) : (s.setCluster c k).msix = s.msix := rfl
@[simp] theorem State.setCluster_migHold (s : State) (c : Nat) (k : Cluster) : (s.setCluster c k).migHold = s.migHold := rfl
@[simp] theorem State.setCluster_pages (s : State) (c : Nat) (k : Cluster) : (s.setCluster c k).pages = s.pages := rfl
@[simp] theorem State.setCluster_compat (s : State) (c : Nat) (k : Cluster) : (s.setCluster c k).compat = s.compat := rfl
@[simp] theorem State.setCluster_regs (s : State) (c : Nat) (k : Cluster) : (s.setCluster c k).regs = s.regs := rfl
@[simp] theorem State.setCluster_hostReplies (s : State) (c : Nat) (k : Cluster) : (s.setCluster c k).hostReplies = s.hostReplies := rfl
@[simp] theorem State.setCluster_tenants (s : State) (c : Nat) (k : Cluster) : (s.setCluster c k).tenants = s.tenants := rfl
@[simp] theorem State.setCluster_resetCounts (s : State) (c : Nat) (k : Cluster) : (s.setCluster c k).resetCounts = s.resetCounts := rfl
@[simp] theorem State.setCluster_stage2Queue (s : State) (c : Nat) (k : Cluster) : (s.setCluster c k).stage2Queue = s.stage2Queue := rfl
@[simp] theorem State.setCluster_niHeld (s : State) (c : Nat) (k : Cluster) : (s.setCluster c k).niHeld = s.niHeld := rfl
@[simp] theorem State.setCluster_heldPosts (s : State) (c : Nat) (k : Cluster) : (s.setCluster c k).heldPosts = s.heldPosts := rfl
@[simp] theorem State.setCluster_faultSeq (s : State) (c : Nat) (k : Cluster) : (s.setCluster c k).faultSeq = s.faultSeq := rfl
@[simp] theorem State.setCluster_tlb (s : State) (c : Nat) (k : Cluster) : (s.setCluster c k).tlb = s.tlb := rfl
@[simp] theorem State.setCluster_ringUpTo (s : State) (c : Nat) (k : Cluster) : (s.setCluster c k).ringUpTo = s.ringUpTo := rfl
@[simp] theorem State.setCluster_sched (s : State) (c : Nat) (k : Cluster) : (s.setCluster c k).sched = s.sched := rfl
@[simp] theorem State.setCluster_saved (s : State) (c : Nat) (k : Cluster) : (s.setCluster c k).saved = s.saved := rfl
@[simp] theorem State.setCluster_refusedEntries (s : State) (c : Nat) (k : Cluster) : (s.setCluster c k).refusedEntries = s.refusedEntries := rfl
@[simp] theorem State.setCluster_resets (s : State) (c : Nat) (k : Cluster) : (s.setCluster c k).resets = s.resets := rfl
@[simp] theorem State.setCluster_fabricControl (s : State) (c : Nat) (k : Cluster) : (s.setCluster c k).fabricControl = s.fabricControl := rfl
@[simp] theorem State.setCluster_routers (s : State) (c : Nat) (k : Cluster) : (s.setCluster c k).routers = s.routers := rfl
@[simp] theorem State.setCluster_ports (s : State) (c : Nat) (k : Cluster) : (s.setCluster c k).ports = s.ports := rfl
@[simp] theorem State.setCluster_clusterState (s : State) (c : Nat) (k : Cluster) : (s.setCluster c k).clusterState = s.clusterState := rfl
@[simp] theorem State.setCluster_sparesUsed (s : State) (c : Nat) (k : Cluster) : (s.setCluster c k).sparesUsed = s.sparesUsed := rfl
@[simp] theorem State.setCluster_uePorts (s : State) (c : Nat) (k : Cluster) : (s.setCluster c k).uePorts = s.uePorts := rfl
@[simp] theorem State.setCluster_laneFaults (s : State) (c : Nat) (k : Cluster) : (s.setCluster c k).laneFaults = s.laneFaults := rfl
@[simp] theorem State.setCluster_renegotiating (s : State) (c : Nat) (k : Cluster) : (s.setCluster c k).renegotiating = s.renegotiating := rfl
@[simp] theorem State.setCluster_servo (s : State) (c : Nat) (k : Cluster) : (s.setCluster c k).servo = s.servo := rfl
@[simp] theorem State.setCluster_bringup (s : State) (c : Nat) (k : Cluster) : (s.setCluster c k).bringup = s.bringup := rfl
@[simp] theorem State.setCluster_flash (s : State) (c : Nat) (k : Cluster) : (s.setCluster c k).flash = s.flash := rfl
@[simp] theorem State.setCluster_update (s : State) (c : Nat) (k : Cluster) : (s.setCluster c k).update = s.update := rfl
@[simp] theorem State.setCluster_attest (s : State) (c : Nat) (k : Cluster) : (s.setCluster c k).attest = s.attest := rfl
@[simp] theorem State.setCluster_health (s : State) (c : Nat) (k : Cluster) : (s.setCluster c k).health = s.health := rfl
@[simp] theorem State.setCluster_coreClock (s : State) (c : Nat) (k : Cluster) : (s.setCluster c k).coreClock = s.coreClock := rfl
@[simp] theorem State.setCluster_fabricClock (s : State) (c : Nat) (k : Cluster) : (s.setCluster c k).fabricClock = s.fabricClock := rfl
@[simp] theorem State.setCluster_privCode (s : State) (c : Nat) (k : Cluster) : (s.setCluster c k).privCode = s.privCode := rfl
@[simp] theorem State.setCluster_privLen (s : State) (c : Nat) (k : Cluster) : (s.setCluster c k).privLen = s.privLen := rfl

@[simp] theorem State.setLaunch_mem (s : State) (l : Nat) (x : Launch) : (s.setLaunch l x).mem = s.mem := rfl
@[simp] theorem State.setLaunch_full (s : State) (l : Nat) (x : Launch) : (s.setLaunch l x).full = s.full := rfl
@[simp] theorem State.setLaunch_clock (s : State) (l : Nat) (x : Launch) : (s.setLaunch l x).clock = s.clock := rfl
@[simp] theorem State.setLaunch_timeBase (s : State) (l : Nat) (x : Launch) : (s.setLaunch l x).timeBase = s.timeBase := rfl
@[simp] theorem State.setLaunch_timeSet (s : State) (l : Nat) (x : Launch) : (s.setLaunch l x).timeSet = s.timeSet := rfl
@[simp] theorem State.setLaunch_turns (s : State) (l : Nat) (x : Launch) : (s.setLaunch l x).turns = s.turns := rfl
@[simp] theorem State.setLaunch_agenda (s : State) (l : Nat) (x : Launch) : (s.setLaunch l x).agenda = s.agenda := rfl
@[simp] theorem State.setLaunch_timers (s : State) (l : Nat) (x : Launch) : (s.setLaunch l x).timers = s.timers := rfl
@[simp] theorem State.setLaunch_input (s : State) (l : Nat) (x : Launch) : (s.setLaunch l x).input = s.input := rfl
@[simp] theorem State.setLaunch_cur (s : State) (l : Nat) (x : Launch) : (s.setLaunch l x).cur = s.cur := rfl
@[simp] theorem State.setLaunch_curSlot (s : State) (l : Nat) (x : Launch) : (s.setLaunch l x).curSlot = s.curSlot := rfl
@[simp] theorem State.setLaunch_serial (s : State) (l : Nat) (x : Launch) : (s.setLaunch l x).serial = s.serial := rfl
@[simp] theorem State.setLaunch_nextJob (s : State) (l : Nat) (x : Launch) : (s.setLaunch l x).nextJob = s.nextJob := rfl
@[simp] theorem State.setLaunch_nextFiring (s : State) (l : Nat) (x : Launch) : (s.setLaunch l x).nextFiring = s.nextFiring := rfl
@[simp] theorem State.setLaunch_freeTick (s : State) (l : Nat) (x : Launch) : (s.setLaunch l x).freeTick = s.freeTick := rfl
@[simp] theorem State.setLaunch_cores (s : State) (l : Nat) (x : Launch) : (s.setLaunch l x).cores = s.cores := rfl
@[simp] theorem State.setLaunch_clusters (s : State) (l : Nat) (x : Launch) : (s.setLaunch l x).clusters = s.clusters := rfl
@[simp] theorem State.setLaunch_images (s : State) (l : Nat) (x : Launch) : (s.setLaunch l x).images = s.images := rfl
@[simp] theorem State.setLaunch_launches (s : State) (l : Nat) (x : Launch) : (s.setLaunch l x).launches = Tab.set s.launches l x := rfl
@[simp] theorem State.setLaunch_retired (s : State) (l : Nat) (x : Launch) : (s.setLaunch l x).retired = s.retired := rfl
@[simp] theorem State.setLaunch_queues (s : State) (l : Nat) (x : Launch) : (s.setLaunch l x).queues = s.queues := rfl
@[simp] theorem State.setLaunch_jobs (s : State) (l : Nat) (x : Launch) : (s.setLaunch l x).jobs = s.jobs := rfl
@[simp] theorem State.setLaunch_writes (s : State) (l : Nat) (x : Launch) : (s.setLaunch l x).writes = s.writes := rfl
@[simp] theorem State.setLaunch_older (s : State) (l : Nat) (x : Launch) : (s.setLaunch l x).older = s.older := rfl
@[simp] theorem State.setLaunch_syncs (s : State) (l : Nat) (x : Launch) : (s.setLaunch l x).syncs = s.syncs := rfl
@[simp] theorem State.setLaunch_barriers (s : State) (l : Nat) (x : Launch) : (s.setLaunch l x).barriers = s.barriers := rfl
@[simp] theorem State.setLaunch_hostSeen (s : State) (l : Nat) (x : Launch) : (s.setLaunch l x).hostSeen = s.hostSeen := rfl
@[simp] theorem State.setLaunch_hostWrote (s : State) (l : Nat) (x : Launch) : (s.setLaunch l x).hostWrote = s.hostWrote := rfl
@[simp] theorem State.setLaunch_metBad (s : State) (l : Nat) (x : Launch) : (s.setLaunch l x).metBad = s.metBad := rfl
@[simp] theorem State.setLaunch_heldAreas (s : State) (l : Nat) (x : Launch) : (s.setLaunch l x).heldAreas = s.heldAreas := rfl
@[simp] theorem State.setLaunch_posted (s : State) (l : Nat) (x : Launch) : (s.setLaunch l x).posted = s.posted := rfl
@[simp] theorem State.setLaunch_sent (s : State) (l : Nat) (x : Launch) : (s.setLaunch l x).sent = s.sent := rfl
@[simp] theorem State.setLaunch_unsent (s : State) (l : Nat) (x : Launch) : (s.setLaunch l x).unsent = s.unsent := rfl
@[simp] theorem State.setLaunch_gotPackets (s : State) (l : Nat) (x : Launch) : (s.setLaunch l x).gotPackets = s.gotPackets := rfl
@[simp] theorem State.setLaunch_congestion (s : State) (l : Nat) (x : Launch) : (s.setLaunch l x).congestion = s.congestion := rfl
@[simp] theorem State.setLaunch_refilled (s : State) (l : Nat) (x : Launch) : (s.setLaunch l x).refilled = s.refilled := rfl
@[simp] theorem State.setLaunch_mailboxes (s : State) (l : Nat) (x : Launch) : (s.setLaunch l x).mailboxes = s.mailboxes := rfl
@[simp] theorem State.setLaunch_eventRings (s : State) (l : Nat) (x : Launch) : (s.setLaunch l x).eventRings = s.eventRings := rfl
@[simp] theorem State.setLaunch_eventSeq (s : State) (l : Nat) (x : Launch) : (s.setLaunch l x).eventSeq = s.eventSeq := rfl
@[simp] theorem State.setLaunch_msix (s : State) (l : Nat) (x : Launch) : (s.setLaunch l x).msix = s.msix := rfl
@[simp] theorem State.setLaunch_migHold (s : State) (l : Nat) (x : Launch) : (s.setLaunch l x).migHold = s.migHold := rfl
@[simp] theorem State.setLaunch_pages (s : State) (l : Nat) (x : Launch) : (s.setLaunch l x).pages = s.pages := rfl
@[simp] theorem State.setLaunch_compat (s : State) (l : Nat) (x : Launch) : (s.setLaunch l x).compat = s.compat := rfl
@[simp] theorem State.setLaunch_regs (s : State) (l : Nat) (x : Launch) : (s.setLaunch l x).regs = s.regs := rfl
@[simp] theorem State.setLaunch_hostReplies (s : State) (l : Nat) (x : Launch) : (s.setLaunch l x).hostReplies = s.hostReplies := rfl
@[simp] theorem State.setLaunch_tenants (s : State) (l : Nat) (x : Launch) : (s.setLaunch l x).tenants = s.tenants := rfl
@[simp] theorem State.setLaunch_resetCounts (s : State) (l : Nat) (x : Launch) : (s.setLaunch l x).resetCounts = s.resetCounts := rfl
@[simp] theorem State.setLaunch_stage2Queue (s : State) (l : Nat) (x : Launch) : (s.setLaunch l x).stage2Queue = s.stage2Queue := rfl
@[simp] theorem State.setLaunch_niHeld (s : State) (l : Nat) (x : Launch) : (s.setLaunch l x).niHeld = s.niHeld := rfl
@[simp] theorem State.setLaunch_heldPosts (s : State) (l : Nat) (x : Launch) : (s.setLaunch l x).heldPosts = s.heldPosts := rfl
@[simp] theorem State.setLaunch_faultSeq (s : State) (l : Nat) (x : Launch) : (s.setLaunch l x).faultSeq = s.faultSeq := rfl
@[simp] theorem State.setLaunch_tlb (s : State) (l : Nat) (x : Launch) : (s.setLaunch l x).tlb = s.tlb := rfl
@[simp] theorem State.setLaunch_ringUpTo (s : State) (l : Nat) (x : Launch) : (s.setLaunch l x).ringUpTo = s.ringUpTo := rfl
@[simp] theorem State.setLaunch_sched (s : State) (l : Nat) (x : Launch) : (s.setLaunch l x).sched = s.sched := rfl
@[simp] theorem State.setLaunch_saved (s : State) (l : Nat) (x : Launch) : (s.setLaunch l x).saved = s.saved := rfl
@[simp] theorem State.setLaunch_refusedEntries (s : State) (l : Nat) (x : Launch) : (s.setLaunch l x).refusedEntries = s.refusedEntries := rfl
@[simp] theorem State.setLaunch_resets (s : State) (l : Nat) (x : Launch) : (s.setLaunch l x).resets = s.resets := rfl
@[simp] theorem State.setLaunch_fabricControl (s : State) (l : Nat) (x : Launch) : (s.setLaunch l x).fabricControl = s.fabricControl := rfl
@[simp] theorem State.setLaunch_routers (s : State) (l : Nat) (x : Launch) : (s.setLaunch l x).routers = s.routers := rfl
@[simp] theorem State.setLaunch_ports (s : State) (l : Nat) (x : Launch) : (s.setLaunch l x).ports = s.ports := rfl
@[simp] theorem State.setLaunch_clusterState (s : State) (l : Nat) (x : Launch) : (s.setLaunch l x).clusterState = s.clusterState := rfl
@[simp] theorem State.setLaunch_sparesUsed (s : State) (l : Nat) (x : Launch) : (s.setLaunch l x).sparesUsed = s.sparesUsed := rfl
@[simp] theorem State.setLaunch_uePorts (s : State) (l : Nat) (x : Launch) : (s.setLaunch l x).uePorts = s.uePorts := rfl
@[simp] theorem State.setLaunch_laneFaults (s : State) (l : Nat) (x : Launch) : (s.setLaunch l x).laneFaults = s.laneFaults := rfl
@[simp] theorem State.setLaunch_renegotiating (s : State) (l : Nat) (x : Launch) : (s.setLaunch l x).renegotiating = s.renegotiating := rfl
@[simp] theorem State.setLaunch_servo (s : State) (l : Nat) (x : Launch) : (s.setLaunch l x).servo = s.servo := rfl
@[simp] theorem State.setLaunch_bringup (s : State) (l : Nat) (x : Launch) : (s.setLaunch l x).bringup = s.bringup := rfl
@[simp] theorem State.setLaunch_flash (s : State) (l : Nat) (x : Launch) : (s.setLaunch l x).flash = s.flash := rfl
@[simp] theorem State.setLaunch_update (s : State) (l : Nat) (x : Launch) : (s.setLaunch l x).update = s.update := rfl
@[simp] theorem State.setLaunch_attest (s : State) (l : Nat) (x : Launch) : (s.setLaunch l x).attest = s.attest := rfl
@[simp] theorem State.setLaunch_health (s : State) (l : Nat) (x : Launch) : (s.setLaunch l x).health = s.health := rfl
@[simp] theorem State.setLaunch_coreClock (s : State) (l : Nat) (x : Launch) : (s.setLaunch l x).coreClock = s.coreClock := rfl
@[simp] theorem State.setLaunch_fabricClock (s : State) (l : Nat) (x : Launch) : (s.setLaunch l x).fabricClock = s.fabricClock := rfl
@[simp] theorem State.setLaunch_privCode (s : State) (l : Nat) (x : Launch) : (s.setLaunch l x).privCode = s.privCode := rfl
@[simp] theorem State.setLaunch_privLen (s : State) (l : Nat) (x : Launch) : (s.setLaunch l x).privLen = s.privLen := rfl

@[simp] theorem State.poke_mem (s : State) (a n x : Nat) : (s.poke a n x).mem = Mem.writeN s.mem a n x := rfl
@[simp] theorem State.poke_full (s : State) (a n x : Nat) : (s.poke a n x).full = s.full := rfl
@[simp] theorem State.poke_clock (s : State) (a n x : Nat) : (s.poke a n x).clock = s.clock := rfl
@[simp] theorem State.poke_timeBase (s : State) (a n x : Nat) : (s.poke a n x).timeBase = s.timeBase := rfl
@[simp] theorem State.poke_timeSet (s : State) (a n x : Nat) : (s.poke a n x).timeSet = s.timeSet := rfl
@[simp] theorem State.poke_turns (s : State) (a n x : Nat) : (s.poke a n x).turns = s.turns := rfl
@[simp] theorem State.poke_agenda (s : State) (a n x : Nat) : (s.poke a n x).agenda = s.agenda := rfl
@[simp] theorem State.poke_timers (s : State) (a n x : Nat) : (s.poke a n x).timers = s.timers := rfl
@[simp] theorem State.poke_input (s : State) (a n x : Nat) : (s.poke a n x).input = s.input := rfl
@[simp] theorem State.poke_cur (s : State) (a n x : Nat) : (s.poke a n x).cur = s.cur := rfl
@[simp] theorem State.poke_curSlot (s : State) (a n x : Nat) : (s.poke a n x).curSlot = s.curSlot := rfl
@[simp] theorem State.poke_serial (s : State) (a n x : Nat) : (s.poke a n x).serial = s.serial := rfl
@[simp] theorem State.poke_nextJob (s : State) (a n x : Nat) : (s.poke a n x).nextJob = s.nextJob := rfl
@[simp] theorem State.poke_nextFiring (s : State) (a n x : Nat) : (s.poke a n x).nextFiring = s.nextFiring := rfl
@[simp] theorem State.poke_freeTick (s : State) (a n x : Nat) : (s.poke a n x).freeTick = s.freeTick := rfl
@[simp] theorem State.poke_cores (s : State) (a n x : Nat) : (s.poke a n x).cores = s.cores := rfl
@[simp] theorem State.poke_clusters (s : State) (a n x : Nat) : (s.poke a n x).clusters = s.clusters := rfl
@[simp] theorem State.poke_images (s : State) (a n x : Nat) : (s.poke a n x).images = s.images := rfl
@[simp] theorem State.poke_launches (s : State) (a n x : Nat) : (s.poke a n x).launches = s.launches := rfl
@[simp] theorem State.poke_retired (s : State) (a n x : Nat) : (s.poke a n x).retired = s.retired := rfl
@[simp] theorem State.poke_queues (s : State) (a n x : Nat) : (s.poke a n x).queues = s.queues := rfl
@[simp] theorem State.poke_jobs (s : State) (a n x : Nat) : (s.poke a n x).jobs = s.jobs := rfl
@[simp] theorem State.poke_writes (s : State) (a n x : Nat) : (s.poke a n x).writes = s.writes := rfl
@[simp] theorem State.poke_older (s : State) (a n x : Nat) : (s.poke a n x).older = s.older := rfl
@[simp] theorem State.poke_syncs (s : State) (a n x : Nat) : (s.poke a n x).syncs = s.syncs := rfl
@[simp] theorem State.poke_barriers (s : State) (a n x : Nat) : (s.poke a n x).barriers = s.barriers := rfl
@[simp] theorem State.poke_hostSeen (s : State) (a n x : Nat) : (s.poke a n x).hostSeen = s.hostSeen := rfl
@[simp] theorem State.poke_hostWrote (s : State) (a n x : Nat) : (s.poke a n x).hostWrote = s.hostWrote := rfl
@[simp] theorem State.poke_metBad (s : State) (a n x : Nat) : (s.poke a n x).metBad = s.metBad := rfl
@[simp] theorem State.poke_heldAreas (s : State) (a n x : Nat) : (s.poke a n x).heldAreas = s.heldAreas := rfl
@[simp] theorem State.poke_posted (s : State) (a n x : Nat) : (s.poke a n x).posted = s.posted := rfl
@[simp] theorem State.poke_sent (s : State) (a n x : Nat) : (s.poke a n x).sent = s.sent := rfl
@[simp] theorem State.poke_unsent (s : State) (a n x : Nat) : (s.poke a n x).unsent = s.unsent := rfl
@[simp] theorem State.poke_gotPackets (s : State) (a n x : Nat) : (s.poke a n x).gotPackets = s.gotPackets := rfl
@[simp] theorem State.poke_congestion (s : State) (a n x : Nat) : (s.poke a n x).congestion = s.congestion := rfl
@[simp] theorem State.poke_refilled (s : State) (a n x : Nat) : (s.poke a n x).refilled = s.refilled := rfl
@[simp] theorem State.poke_mailboxes (s : State) (a n x : Nat) : (s.poke a n x).mailboxes = s.mailboxes := rfl
@[simp] theorem State.poke_eventRings (s : State) (a n x : Nat) : (s.poke a n x).eventRings = s.eventRings := rfl
@[simp] theorem State.poke_eventSeq (s : State) (a n x : Nat) : (s.poke a n x).eventSeq = s.eventSeq := rfl
@[simp] theorem State.poke_msix (s : State) (a n x : Nat) : (s.poke a n x).msix = s.msix := rfl
@[simp] theorem State.poke_migHold (s : State) (a n x : Nat) : (s.poke a n x).migHold = s.migHold := rfl
@[simp] theorem State.poke_pages (s : State) (a n x : Nat) : (s.poke a n x).pages = s.pages := rfl
@[simp] theorem State.poke_compat (s : State) (a n x : Nat) : (s.poke a n x).compat = s.compat := rfl
@[simp] theorem State.poke_regs (s : State) (a n x : Nat) : (s.poke a n x).regs = s.regs := rfl
@[simp] theorem State.poke_hostReplies (s : State) (a n x : Nat) : (s.poke a n x).hostReplies = s.hostReplies := rfl
@[simp] theorem State.poke_tenants (s : State) (a n x : Nat) : (s.poke a n x).tenants = s.tenants := rfl
@[simp] theorem State.poke_resetCounts (s : State) (a n x : Nat) : (s.poke a n x).resetCounts = s.resetCounts := rfl
@[simp] theorem State.poke_stage2Queue (s : State) (a n x : Nat) : (s.poke a n x).stage2Queue = s.stage2Queue := rfl
@[simp] theorem State.poke_niHeld (s : State) (a n x : Nat) : (s.poke a n x).niHeld = s.niHeld := rfl
@[simp] theorem State.poke_heldPosts (s : State) (a n x : Nat) : (s.poke a n x).heldPosts = s.heldPosts := rfl
@[simp] theorem State.poke_faultSeq (s : State) (a n x : Nat) : (s.poke a n x).faultSeq = s.faultSeq := rfl
@[simp] theorem State.poke_tlb (s : State) (a n x : Nat) : (s.poke a n x).tlb = s.tlb := rfl
@[simp] theorem State.poke_ringUpTo (s : State) (a n x : Nat) : (s.poke a n x).ringUpTo = s.ringUpTo := rfl
@[simp] theorem State.poke_sched (s : State) (a n x : Nat) : (s.poke a n x).sched = s.sched := rfl
@[simp] theorem State.poke_saved (s : State) (a n x : Nat) : (s.poke a n x).saved = s.saved := rfl
@[simp] theorem State.poke_refusedEntries (s : State) (a n x : Nat) : (s.poke a n x).refusedEntries = s.refusedEntries := rfl
@[simp] theorem State.poke_resets (s : State) (a n x : Nat) : (s.poke a n x).resets = s.resets := rfl
@[simp] theorem State.poke_fabricControl (s : State) (a n x : Nat) : (s.poke a n x).fabricControl = s.fabricControl := rfl
@[simp] theorem State.poke_routers (s : State) (a n x : Nat) : (s.poke a n x).routers = s.routers := rfl
@[simp] theorem State.poke_ports (s : State) (a n x : Nat) : (s.poke a n x).ports = s.ports := rfl
@[simp] theorem State.poke_clusterState (s : State) (a n x : Nat) : (s.poke a n x).clusterState = s.clusterState := rfl
@[simp] theorem State.poke_sparesUsed (s : State) (a n x : Nat) : (s.poke a n x).sparesUsed = s.sparesUsed := rfl
@[simp] theorem State.poke_uePorts (s : State) (a n x : Nat) : (s.poke a n x).uePorts = s.uePorts := rfl
@[simp] theorem State.poke_laneFaults (s : State) (a n x : Nat) : (s.poke a n x).laneFaults = s.laneFaults := rfl
@[simp] theorem State.poke_renegotiating (s : State) (a n x : Nat) : (s.poke a n x).renegotiating = s.renegotiating := rfl
@[simp] theorem State.poke_servo (s : State) (a n x : Nat) : (s.poke a n x).servo = s.servo := rfl
@[simp] theorem State.poke_bringup (s : State) (a n x : Nat) : (s.poke a n x).bringup = s.bringup := rfl
@[simp] theorem State.poke_flash (s : State) (a n x : Nat) : (s.poke a n x).flash = s.flash := rfl
@[simp] theorem State.poke_update (s : State) (a n x : Nat) : (s.poke a n x).update = s.update := rfl
@[simp] theorem State.poke_attest (s : State) (a n x : Nat) : (s.poke a n x).attest = s.attest := rfl
@[simp] theorem State.poke_health (s : State) (a n x : Nat) : (s.poke a n x).health = s.health := rfl
@[simp] theorem State.poke_coreClock (s : State) (a n x : Nat) : (s.poke a n x).coreClock = s.coreClock := rfl
@[simp] theorem State.poke_fabricClock (s : State) (a n x : Nat) : (s.poke a n x).fabricClock = s.fabricClock := rfl
@[simp] theorem State.poke_privCode (s : State) (a n x : Nat) : (s.poke a n x).privCode = s.privCode := rfl
@[simp] theorem State.poke_privLen (s : State) (a n x : Nat) : (s.poke a n x).privLen = s.privLen := rfl

@[simp] theorem State.setFull_mem (s : State) (a : Nat) (b : Bool) : (s.setFull a b).mem = s.mem := rfl
@[simp] theorem State.setFull_full (s : State) (a : Nat) (b : Bool) : (s.setFull a b).full = Full.put s.full (a / 8) b := rfl
@[simp] theorem State.setFull_clock (s : State) (a : Nat) (b : Bool) : (s.setFull a b).clock = s.clock := rfl
@[simp] theorem State.setFull_timeBase (s : State) (a : Nat) (b : Bool) : (s.setFull a b).timeBase = s.timeBase := rfl
@[simp] theorem State.setFull_timeSet (s : State) (a : Nat) (b : Bool) : (s.setFull a b).timeSet = s.timeSet := rfl
@[simp] theorem State.setFull_turns (s : State) (a : Nat) (b : Bool) : (s.setFull a b).turns = s.turns := rfl
@[simp] theorem State.setFull_agenda (s : State) (a : Nat) (b : Bool) : (s.setFull a b).agenda = s.agenda := rfl
@[simp] theorem State.setFull_timers (s : State) (a : Nat) (b : Bool) : (s.setFull a b).timers = s.timers := rfl
@[simp] theorem State.setFull_input (s : State) (a : Nat) (b : Bool) : (s.setFull a b).input = s.input := rfl
@[simp] theorem State.setFull_cur (s : State) (a : Nat) (b : Bool) : (s.setFull a b).cur = s.cur := rfl
@[simp] theorem State.setFull_curSlot (s : State) (a : Nat) (b : Bool) : (s.setFull a b).curSlot = s.curSlot := rfl
@[simp] theorem State.setFull_serial (s : State) (a : Nat) (b : Bool) : (s.setFull a b).serial = s.serial := rfl
@[simp] theorem State.setFull_nextJob (s : State) (a : Nat) (b : Bool) : (s.setFull a b).nextJob = s.nextJob := rfl
@[simp] theorem State.setFull_nextFiring (s : State) (a : Nat) (b : Bool) : (s.setFull a b).nextFiring = s.nextFiring := rfl
@[simp] theorem State.setFull_freeTick (s : State) (a : Nat) (b : Bool) : (s.setFull a b).freeTick = s.freeTick := rfl
@[simp] theorem State.setFull_cores (s : State) (a : Nat) (b : Bool) : (s.setFull a b).cores = s.cores := rfl
@[simp] theorem State.setFull_clusters (s : State) (a : Nat) (b : Bool) : (s.setFull a b).clusters = s.clusters := rfl
@[simp] theorem State.setFull_images (s : State) (a : Nat) (b : Bool) : (s.setFull a b).images = s.images := rfl
@[simp] theorem State.setFull_launches (s : State) (a : Nat) (b : Bool) : (s.setFull a b).launches = s.launches := rfl
@[simp] theorem State.setFull_retired (s : State) (a : Nat) (b : Bool) : (s.setFull a b).retired = s.retired := rfl
@[simp] theorem State.setFull_queues (s : State) (a : Nat) (b : Bool) : (s.setFull a b).queues = s.queues := rfl
@[simp] theorem State.setFull_jobs (s : State) (a : Nat) (b : Bool) : (s.setFull a b).jobs = s.jobs := rfl
@[simp] theorem State.setFull_writes (s : State) (a : Nat) (b : Bool) : (s.setFull a b).writes = s.writes := rfl
@[simp] theorem State.setFull_older (s : State) (a : Nat) (b : Bool) : (s.setFull a b).older = s.older := rfl
@[simp] theorem State.setFull_syncs (s : State) (a : Nat) (b : Bool) : (s.setFull a b).syncs = s.syncs := rfl
@[simp] theorem State.setFull_barriers (s : State) (a : Nat) (b : Bool) : (s.setFull a b).barriers = s.barriers := rfl
@[simp] theorem State.setFull_hostSeen (s : State) (a : Nat) (b : Bool) : (s.setFull a b).hostSeen = s.hostSeen := rfl
@[simp] theorem State.setFull_hostWrote (s : State) (a : Nat) (b : Bool) : (s.setFull a b).hostWrote = s.hostWrote := rfl
@[simp] theorem State.setFull_metBad (s : State) (a : Nat) (b : Bool) : (s.setFull a b).metBad = s.metBad := rfl
@[simp] theorem State.setFull_heldAreas (s : State) (a : Nat) (b : Bool) : (s.setFull a b).heldAreas = s.heldAreas := rfl
@[simp] theorem State.setFull_posted (s : State) (a : Nat) (b : Bool) : (s.setFull a b).posted = s.posted := rfl
@[simp] theorem State.setFull_sent (s : State) (a : Nat) (b : Bool) : (s.setFull a b).sent = s.sent := rfl
@[simp] theorem State.setFull_unsent (s : State) (a : Nat) (b : Bool) : (s.setFull a b).unsent = s.unsent := rfl
@[simp] theorem State.setFull_gotPackets (s : State) (a : Nat) (b : Bool) : (s.setFull a b).gotPackets = s.gotPackets := rfl
@[simp] theorem State.setFull_congestion (s : State) (a : Nat) (b : Bool) : (s.setFull a b).congestion = s.congestion := rfl
@[simp] theorem State.setFull_refilled (s : State) (a : Nat) (b : Bool) : (s.setFull a b).refilled = s.refilled := rfl
@[simp] theorem State.setFull_mailboxes (s : State) (a : Nat) (b : Bool) : (s.setFull a b).mailboxes = s.mailboxes := rfl
@[simp] theorem State.setFull_eventRings (s : State) (a : Nat) (b : Bool) : (s.setFull a b).eventRings = s.eventRings := rfl
@[simp] theorem State.setFull_eventSeq (s : State) (a : Nat) (b : Bool) : (s.setFull a b).eventSeq = s.eventSeq := rfl
@[simp] theorem State.setFull_msix (s : State) (a : Nat) (b : Bool) : (s.setFull a b).msix = s.msix := rfl
@[simp] theorem State.setFull_migHold (s : State) (a : Nat) (b : Bool) : (s.setFull a b).migHold = s.migHold := rfl
@[simp] theorem State.setFull_pages (s : State) (a : Nat) (b : Bool) : (s.setFull a b).pages = s.pages := rfl
@[simp] theorem State.setFull_compat (s : State) (a : Nat) (b : Bool) : (s.setFull a b).compat = s.compat := rfl
@[simp] theorem State.setFull_regs (s : State) (a : Nat) (b : Bool) : (s.setFull a b).regs = s.regs := rfl
@[simp] theorem State.setFull_hostReplies (s : State) (a : Nat) (b : Bool) : (s.setFull a b).hostReplies = s.hostReplies := rfl
@[simp] theorem State.setFull_tenants (s : State) (a : Nat) (b : Bool) : (s.setFull a b).tenants = s.tenants := rfl
@[simp] theorem State.setFull_resetCounts (s : State) (a : Nat) (b : Bool) : (s.setFull a b).resetCounts = s.resetCounts := rfl
@[simp] theorem State.setFull_stage2Queue (s : State) (a : Nat) (b : Bool) : (s.setFull a b).stage2Queue = s.stage2Queue := rfl
@[simp] theorem State.setFull_niHeld (s : State) (a : Nat) (b : Bool) : (s.setFull a b).niHeld = s.niHeld := rfl
@[simp] theorem State.setFull_heldPosts (s : State) (a : Nat) (b : Bool) : (s.setFull a b).heldPosts = s.heldPosts := rfl
@[simp] theorem State.setFull_faultSeq (s : State) (a : Nat) (b : Bool) : (s.setFull a b).faultSeq = s.faultSeq := rfl
@[simp] theorem State.setFull_tlb (s : State) (a : Nat) (b : Bool) : (s.setFull a b).tlb = s.tlb := rfl
@[simp] theorem State.setFull_ringUpTo (s : State) (a : Nat) (b : Bool) : (s.setFull a b).ringUpTo = s.ringUpTo := rfl
@[simp] theorem State.setFull_sched (s : State) (a : Nat) (b : Bool) : (s.setFull a b).sched = s.sched := rfl
@[simp] theorem State.setFull_saved (s : State) (a : Nat) (b : Bool) : (s.setFull a b).saved = s.saved := rfl
@[simp] theorem State.setFull_refusedEntries (s : State) (a : Nat) (b : Bool) : (s.setFull a b).refusedEntries = s.refusedEntries := rfl
@[simp] theorem State.setFull_resets (s : State) (a : Nat) (b : Bool) : (s.setFull a b).resets = s.resets := rfl
@[simp] theorem State.setFull_fabricControl (s : State) (a : Nat) (b : Bool) : (s.setFull a b).fabricControl = s.fabricControl := rfl
@[simp] theorem State.setFull_routers (s : State) (a : Nat) (b : Bool) : (s.setFull a b).routers = s.routers := rfl
@[simp] theorem State.setFull_ports (s : State) (a : Nat) (b : Bool) : (s.setFull a b).ports = s.ports := rfl
@[simp] theorem State.setFull_clusterState (s : State) (a : Nat) (b : Bool) : (s.setFull a b).clusterState = s.clusterState := rfl
@[simp] theorem State.setFull_sparesUsed (s : State) (a : Nat) (b : Bool) : (s.setFull a b).sparesUsed = s.sparesUsed := rfl
@[simp] theorem State.setFull_uePorts (s : State) (a : Nat) (b : Bool) : (s.setFull a b).uePorts = s.uePorts := rfl
@[simp] theorem State.setFull_laneFaults (s : State) (a : Nat) (b : Bool) : (s.setFull a b).laneFaults = s.laneFaults := rfl
@[simp] theorem State.setFull_renegotiating (s : State) (a : Nat) (b : Bool) : (s.setFull a b).renegotiating = s.renegotiating := rfl
@[simp] theorem State.setFull_servo (s : State) (a : Nat) (b : Bool) : (s.setFull a b).servo = s.servo := rfl
@[simp] theorem State.setFull_bringup (s : State) (a : Nat) (b : Bool) : (s.setFull a b).bringup = s.bringup := rfl
@[simp] theorem State.setFull_flash (s : State) (a : Nat) (b : Bool) : (s.setFull a b).flash = s.flash := rfl
@[simp] theorem State.setFull_update (s : State) (a : Nat) (b : Bool) : (s.setFull a b).update = s.update := rfl
@[simp] theorem State.setFull_attest (s : State) (a : Nat) (b : Bool) : (s.setFull a b).attest = s.attest := rfl
@[simp] theorem State.setFull_health (s : State) (a : Nat) (b : Bool) : (s.setFull a b).health = s.health := rfl
@[simp] theorem State.setFull_coreClock (s : State) (a : Nat) (b : Bool) : (s.setFull a b).coreClock = s.coreClock := rfl
@[simp] theorem State.setFull_fabricClock (s : State) (a : Nat) (b : Bool) : (s.setFull a b).fabricClock = s.fabricClock := rfl
@[simp] theorem State.setFull_privCode (s : State) (a : Nat) (b : Bool) : (s.setFull a b).privCode = s.privCode := rfl
@[simp] theorem State.setFull_privLen (s : State) (a : Nat) (b : Bool) : (s.setFull a b).privLen = s.privLen := rfl

@[simp] theorem State.timer_mem (s : State) (c : Nat) (i : Instr) : (s.timer c i).mem = s.mem := rfl
@[simp] theorem State.timer_full (s : State) (c : Nat) (i : Instr) : (s.timer c i).full = s.full := rfl
@[simp] theorem State.timer_clock (s : State) (c : Nat) (i : Instr) : (s.timer c i).clock = s.clock := rfl
@[simp] theorem State.timer_timeBase (s : State) (c : Nat) (i : Instr) : (s.timer c i).timeBase = s.timeBase := rfl
@[simp] theorem State.timer_timeSet (s : State) (c : Nat) (i : Instr) : (s.timer c i).timeSet = s.timeSet := rfl
@[simp] theorem State.timer_turns (s : State) (c : Nat) (i : Instr) : (s.timer c i).turns = s.turns := rfl
@[simp] theorem State.timer_agenda (s : State) (c : Nat) (i : Instr) : (s.timer c i).agenda = s.agenda := rfl
@[simp] theorem State.timer_timers (s : State) (c : Nat) (i : Instr) : (s.timer c i).timers = s.timers ++ [(c, i)] := rfl
@[simp] theorem State.timer_input (s : State) (c : Nat) (i : Instr) : (s.timer c i).input = s.input := rfl
@[simp] theorem State.timer_cur (s : State) (c : Nat) (i : Instr) : (s.timer c i).cur = s.cur := rfl
@[simp] theorem State.timer_curSlot (s : State) (c : Nat) (i : Instr) : (s.timer c i).curSlot = s.curSlot := rfl
@[simp] theorem State.timer_serial (s : State) (c : Nat) (i : Instr) : (s.timer c i).serial = s.serial := rfl
@[simp] theorem State.timer_nextJob (s : State) (c : Nat) (i : Instr) : (s.timer c i).nextJob = s.nextJob := rfl
@[simp] theorem State.timer_nextFiring (s : State) (c : Nat) (i : Instr) : (s.timer c i).nextFiring = s.nextFiring := rfl
@[simp] theorem State.timer_freeTick (s : State) (c : Nat) (i : Instr) : (s.timer c i).freeTick = s.freeTick := rfl
@[simp] theorem State.timer_cores (s : State) (c : Nat) (i : Instr) : (s.timer c i).cores = s.cores := rfl
@[simp] theorem State.timer_clusters (s : State) (c : Nat) (i : Instr) : (s.timer c i).clusters = s.clusters := rfl
@[simp] theorem State.timer_images (s : State) (c : Nat) (i : Instr) : (s.timer c i).images = s.images := rfl
@[simp] theorem State.timer_launches (s : State) (c : Nat) (i : Instr) : (s.timer c i).launches = s.launches := rfl
@[simp] theorem State.timer_retired (s : State) (c : Nat) (i : Instr) : (s.timer c i).retired = s.retired := rfl
@[simp] theorem State.timer_queues (s : State) (c : Nat) (i : Instr) : (s.timer c i).queues = s.queues := rfl
@[simp] theorem State.timer_jobs (s : State) (c : Nat) (i : Instr) : (s.timer c i).jobs = s.jobs := rfl
@[simp] theorem State.timer_writes (s : State) (c : Nat) (i : Instr) : (s.timer c i).writes = s.writes := rfl
@[simp] theorem State.timer_older (s : State) (c : Nat) (i : Instr) : (s.timer c i).older = s.older := rfl
@[simp] theorem State.timer_syncs (s : State) (c : Nat) (i : Instr) : (s.timer c i).syncs = s.syncs := rfl
@[simp] theorem State.timer_barriers (s : State) (c : Nat) (i : Instr) : (s.timer c i).barriers = s.barriers := rfl
@[simp] theorem State.timer_hostSeen (s : State) (c : Nat) (i : Instr) : (s.timer c i).hostSeen = s.hostSeen := rfl
@[simp] theorem State.timer_hostWrote (s : State) (c : Nat) (i : Instr) : (s.timer c i).hostWrote = s.hostWrote := rfl
@[simp] theorem State.timer_metBad (s : State) (c : Nat) (i : Instr) : (s.timer c i).metBad = s.metBad := rfl
@[simp] theorem State.timer_heldAreas (s : State) (c : Nat) (i : Instr) : (s.timer c i).heldAreas = s.heldAreas := rfl
@[simp] theorem State.timer_posted (s : State) (c : Nat) (i : Instr) : (s.timer c i).posted = s.posted := rfl
@[simp] theorem State.timer_sent (s : State) (c : Nat) (i : Instr) : (s.timer c i).sent = s.sent := rfl
@[simp] theorem State.timer_unsent (s : State) (c : Nat) (i : Instr) : (s.timer c i).unsent = s.unsent := rfl
@[simp] theorem State.timer_gotPackets (s : State) (c : Nat) (i : Instr) : (s.timer c i).gotPackets = s.gotPackets := rfl
@[simp] theorem State.timer_congestion (s : State) (c : Nat) (i : Instr) : (s.timer c i).congestion = s.congestion := rfl
@[simp] theorem State.timer_refilled (s : State) (c : Nat) (i : Instr) : (s.timer c i).refilled = s.refilled := rfl
@[simp] theorem State.timer_mailboxes (s : State) (c : Nat) (i : Instr) : (s.timer c i).mailboxes = s.mailboxes := rfl
@[simp] theorem State.timer_eventRings (s : State) (c : Nat) (i : Instr) : (s.timer c i).eventRings = s.eventRings := rfl
@[simp] theorem State.timer_eventSeq (s : State) (c : Nat) (i : Instr) : (s.timer c i).eventSeq = s.eventSeq := rfl
@[simp] theorem State.timer_msix (s : State) (c : Nat) (i : Instr) : (s.timer c i).msix = s.msix := rfl
@[simp] theorem State.timer_migHold (s : State) (c : Nat) (i : Instr) : (s.timer c i).migHold = s.migHold := rfl
@[simp] theorem State.timer_pages (s : State) (c : Nat) (i : Instr) : (s.timer c i).pages = s.pages := rfl
@[simp] theorem State.timer_compat (s : State) (c : Nat) (i : Instr) : (s.timer c i).compat = s.compat := rfl
@[simp] theorem State.timer_regs (s : State) (c : Nat) (i : Instr) : (s.timer c i).regs = s.regs := rfl
@[simp] theorem State.timer_hostReplies (s : State) (c : Nat) (i : Instr) : (s.timer c i).hostReplies = s.hostReplies := rfl
@[simp] theorem State.timer_tenants (s : State) (c : Nat) (i : Instr) : (s.timer c i).tenants = s.tenants := rfl
@[simp] theorem State.timer_resetCounts (s : State) (c : Nat) (i : Instr) : (s.timer c i).resetCounts = s.resetCounts := rfl
@[simp] theorem State.timer_stage2Queue (s : State) (c : Nat) (i : Instr) : (s.timer c i).stage2Queue = s.stage2Queue := rfl
@[simp] theorem State.timer_niHeld (s : State) (c : Nat) (i : Instr) : (s.timer c i).niHeld = s.niHeld := rfl
@[simp] theorem State.timer_heldPosts (s : State) (c : Nat) (i : Instr) : (s.timer c i).heldPosts = s.heldPosts := rfl
@[simp] theorem State.timer_faultSeq (s : State) (c : Nat) (i : Instr) : (s.timer c i).faultSeq = s.faultSeq := rfl
@[simp] theorem State.timer_tlb (s : State) (c : Nat) (i : Instr) : (s.timer c i).tlb = s.tlb := rfl
@[simp] theorem State.timer_ringUpTo (s : State) (c : Nat) (i : Instr) : (s.timer c i).ringUpTo = s.ringUpTo := rfl
@[simp] theorem State.timer_sched (s : State) (c : Nat) (i : Instr) : (s.timer c i).sched = s.sched := rfl
@[simp] theorem State.timer_saved (s : State) (c : Nat) (i : Instr) : (s.timer c i).saved = s.saved := rfl
@[simp] theorem State.timer_refusedEntries (s : State) (c : Nat) (i : Instr) : (s.timer c i).refusedEntries = s.refusedEntries := rfl
@[simp] theorem State.timer_resets (s : State) (c : Nat) (i : Instr) : (s.timer c i).resets = s.resets := rfl
@[simp] theorem State.timer_fabricControl (s : State) (c : Nat) (i : Instr) : (s.timer c i).fabricControl = s.fabricControl := rfl
@[simp] theorem State.timer_routers (s : State) (c : Nat) (i : Instr) : (s.timer c i).routers = s.routers := rfl
@[simp] theorem State.timer_ports (s : State) (c : Nat) (i : Instr) : (s.timer c i).ports = s.ports := rfl
@[simp] theorem State.timer_clusterState (s : State) (c : Nat) (i : Instr) : (s.timer c i).clusterState = s.clusterState := rfl
@[simp] theorem State.timer_sparesUsed (s : State) (c : Nat) (i : Instr) : (s.timer c i).sparesUsed = s.sparesUsed := rfl
@[simp] theorem State.timer_uePorts (s : State) (c : Nat) (i : Instr) : (s.timer c i).uePorts = s.uePorts := rfl
@[simp] theorem State.timer_laneFaults (s : State) (c : Nat) (i : Instr) : (s.timer c i).laneFaults = s.laneFaults := rfl
@[simp] theorem State.timer_renegotiating (s : State) (c : Nat) (i : Instr) : (s.timer c i).renegotiating = s.renegotiating := rfl
@[simp] theorem State.timer_servo (s : State) (c : Nat) (i : Instr) : (s.timer c i).servo = s.servo := rfl
@[simp] theorem State.timer_bringup (s : State) (c : Nat) (i : Instr) : (s.timer c i).bringup = s.bringup := rfl
@[simp] theorem State.timer_flash (s : State) (c : Nat) (i : Instr) : (s.timer c i).flash = s.flash := rfl
@[simp] theorem State.timer_update (s : State) (c : Nat) (i : Instr) : (s.timer c i).update = s.update := rfl
@[simp] theorem State.timer_attest (s : State) (c : Nat) (i : Instr) : (s.timer c i).attest = s.attest := rfl
@[simp] theorem State.timer_health (s : State) (c : Nat) (i : Instr) : (s.timer c i).health = s.health := rfl
@[simp] theorem State.timer_coreClock (s : State) (c : Nat) (i : Instr) : (s.timer c i).coreClock = s.coreClock := rfl
@[simp] theorem State.timer_fabricClock (s : State) (c : Nat) (i : Instr) : (s.timer c i).fabricClock = s.fabricClock := rfl
@[simp] theorem State.timer_privCode (s : State) (c : Nat) (i : Instr) : (s.timer c i).privCode = s.privCode := rfl
@[simp] theorem State.timer_privLen (s : State) (c : Nat) (i : Instr) : (s.timer c i).privLen = s.privLen := rfl

@[simp] theorem State.drew_mem (s : State) : (s.drew).mem = s.mem := rfl
@[simp] theorem State.drew_full (s : State) : (s.drew).full = s.full := rfl
@[simp] theorem State.drew_clock (s : State) : (s.drew).clock = s.clock := rfl
@[simp] theorem State.drew_timeBase (s : State) : (s.drew).timeBase = s.timeBase := rfl
@[simp] theorem State.drew_timeSet (s : State) : (s.drew).timeSet = s.timeSet := rfl
@[simp] theorem State.drew_turns (s : State) : (s.drew).turns = s.turns := rfl
@[simp] theorem State.drew_agenda (s : State) : (s.drew).agenda = s.agenda := rfl
@[simp] theorem State.drew_timers (s : State) : (s.drew).timers = s.timers := rfl
@[simp] theorem State.drew_input (s : State) : (s.drew).input = s.input := rfl
@[simp] theorem State.drew_cur (s : State) : (s.drew).cur = s.cur := rfl
@[simp] theorem State.drew_curSlot (s : State) : (s.drew).curSlot = s.curSlot := rfl
@[simp] theorem State.drew_serial (s : State) : (s.drew).serial = s.serial := rfl
@[simp] theorem State.drew_nextJob (s : State) : (s.drew).nextJob = s.nextJob := rfl
@[simp] theorem State.drew_nextFiring (s : State) : (s.drew).nextFiring = s.nextFiring := rfl
@[simp] theorem State.drew_freeTick (s : State) : (s.drew).freeTick = s.freeTick + 1 := rfl
@[simp] theorem State.drew_cores (s : State) : (s.drew).cores = s.cores := rfl
@[simp] theorem State.drew_clusters (s : State) : (s.drew).clusters = s.clusters := rfl
@[simp] theorem State.drew_images (s : State) : (s.drew).images = s.images := rfl
@[simp] theorem State.drew_launches (s : State) : (s.drew).launches = s.launches := rfl
@[simp] theorem State.drew_retired (s : State) : (s.drew).retired = s.retired := rfl
@[simp] theorem State.drew_queues (s : State) : (s.drew).queues = s.queues := rfl
@[simp] theorem State.drew_jobs (s : State) : (s.drew).jobs = s.jobs := rfl
@[simp] theorem State.drew_writes (s : State) : (s.drew).writes = s.writes := rfl
@[simp] theorem State.drew_older (s : State) : (s.drew).older = s.older := rfl
@[simp] theorem State.drew_syncs (s : State) : (s.drew).syncs = s.syncs := rfl
@[simp] theorem State.drew_barriers (s : State) : (s.drew).barriers = s.barriers := rfl
@[simp] theorem State.drew_hostSeen (s : State) : (s.drew).hostSeen = s.hostSeen := rfl
@[simp] theorem State.drew_hostWrote (s : State) : (s.drew).hostWrote = s.hostWrote := rfl
@[simp] theorem State.drew_metBad (s : State) : (s.drew).metBad = s.metBad := rfl
@[simp] theorem State.drew_heldAreas (s : State) : (s.drew).heldAreas = s.heldAreas := rfl
@[simp] theorem State.drew_posted (s : State) : (s.drew).posted = s.posted := rfl
@[simp] theorem State.drew_sent (s : State) : (s.drew).sent = s.sent := rfl
@[simp] theorem State.drew_unsent (s : State) : (s.drew).unsent = s.unsent := rfl
@[simp] theorem State.drew_gotPackets (s : State) : (s.drew).gotPackets = s.gotPackets := rfl
@[simp] theorem State.drew_congestion (s : State) : (s.drew).congestion = s.congestion := rfl
@[simp] theorem State.drew_refilled (s : State) : (s.drew).refilled = s.refilled := rfl
@[simp] theorem State.drew_mailboxes (s : State) : (s.drew).mailboxes = s.mailboxes := rfl
@[simp] theorem State.drew_eventRings (s : State) : (s.drew).eventRings = s.eventRings := rfl
@[simp] theorem State.drew_eventSeq (s : State) : (s.drew).eventSeq = s.eventSeq := rfl
@[simp] theorem State.drew_msix (s : State) : (s.drew).msix = s.msix := rfl
@[simp] theorem State.drew_migHold (s : State) : (s.drew).migHold = s.migHold := rfl
@[simp] theorem State.drew_pages (s : State) : (s.drew).pages = s.pages := rfl
@[simp] theorem State.drew_compat (s : State) : (s.drew).compat = s.compat := rfl
@[simp] theorem State.drew_regs (s : State) : (s.drew).regs = s.regs := rfl
@[simp] theorem State.drew_hostReplies (s : State) : (s.drew).hostReplies = s.hostReplies := rfl
@[simp] theorem State.drew_tenants (s : State) : (s.drew).tenants = s.tenants := rfl
@[simp] theorem State.drew_resetCounts (s : State) : (s.drew).resetCounts = s.resetCounts := rfl
@[simp] theorem State.drew_stage2Queue (s : State) : (s.drew).stage2Queue = s.stage2Queue := rfl
@[simp] theorem State.drew_niHeld (s : State) : (s.drew).niHeld = s.niHeld := rfl
@[simp] theorem State.drew_heldPosts (s : State) : (s.drew).heldPosts = s.heldPosts := rfl
@[simp] theorem State.drew_faultSeq (s : State) : (s.drew).faultSeq = s.faultSeq := rfl
@[simp] theorem State.drew_tlb (s : State) : (s.drew).tlb = s.tlb := rfl
@[simp] theorem State.drew_ringUpTo (s : State) : (s.drew).ringUpTo = s.ringUpTo := rfl
@[simp] theorem State.drew_sched (s : State) : (s.drew).sched = s.sched := rfl
@[simp] theorem State.drew_saved (s : State) : (s.drew).saved = s.saved := rfl
@[simp] theorem State.drew_refusedEntries (s : State) : (s.drew).refusedEntries = s.refusedEntries := rfl
@[simp] theorem State.drew_resets (s : State) : (s.drew).resets = s.resets := rfl
@[simp] theorem State.drew_fabricControl (s : State) : (s.drew).fabricControl = s.fabricControl := rfl
@[simp] theorem State.drew_routers (s : State) : (s.drew).routers = s.routers := rfl
@[simp] theorem State.drew_ports (s : State) : (s.drew).ports = s.ports := rfl
@[simp] theorem State.drew_clusterState (s : State) : (s.drew).clusterState = s.clusterState := rfl
@[simp] theorem State.drew_sparesUsed (s : State) : (s.drew).sparesUsed = s.sparesUsed := rfl
@[simp] theorem State.drew_uePorts (s : State) : (s.drew).uePorts = s.uePorts := rfl
@[simp] theorem State.drew_laneFaults (s : State) : (s.drew).laneFaults = s.laneFaults := rfl
@[simp] theorem State.drew_renegotiating (s : State) : (s.drew).renegotiating = s.renegotiating := rfl
@[simp] theorem State.drew_servo (s : State) : (s.drew).servo = s.servo := rfl
@[simp] theorem State.drew_bringup (s : State) : (s.drew).bringup = s.bringup := rfl
@[simp] theorem State.drew_flash (s : State) : (s.drew).flash = s.flash := rfl
@[simp] theorem State.drew_update (s : State) : (s.drew).update = s.update := rfl
@[simp] theorem State.drew_attest (s : State) : (s.drew).attest = s.attest := rfl
@[simp] theorem State.drew_health (s : State) : (s.drew).health = s.health := rfl
@[simp] theorem State.drew_coreClock (s : State) : (s.drew).coreClock = s.coreClock := rfl
@[simp] theorem State.drew_fabricClock (s : State) : (s.drew).fabricClock = s.fabricClock := rfl
@[simp] theorem State.drew_privCode (s : State) : (s.drew).privCode = s.privCode := rfl
@[simp] theorem State.drew_privLen (s : State) : (s.drew).privLen = s.privLen := rfl

@[simp] theorem State.setJob_mem (s : State) (j : Job) : (s.setJob j).mem = s.mem := rfl
@[simp] theorem State.setJob_full (s : State) (j : Job) : (s.setJob j).full = s.full := rfl
@[simp] theorem State.setJob_clock (s : State) (j : Job) : (s.setJob j).clock = s.clock := rfl
@[simp] theorem State.setJob_timeBase (s : State) (j : Job) : (s.setJob j).timeBase = s.timeBase := rfl
@[simp] theorem State.setJob_timeSet (s : State) (j : Job) : (s.setJob j).timeSet = s.timeSet := rfl
@[simp] theorem State.setJob_turns (s : State) (j : Job) : (s.setJob j).turns = s.turns := rfl
@[simp] theorem State.setJob_agenda (s : State) (j : Job) : (s.setJob j).agenda = s.agenda := rfl
@[simp] theorem State.setJob_timers (s : State) (j : Job) : (s.setJob j).timers = s.timers := rfl
@[simp] theorem State.setJob_input (s : State) (j : Job) : (s.setJob j).input = s.input := rfl
@[simp] theorem State.setJob_cur (s : State) (j : Job) : (s.setJob j).cur = s.cur := rfl
@[simp] theorem State.setJob_curSlot (s : State) (j : Job) : (s.setJob j).curSlot = s.curSlot := rfl
@[simp] theorem State.setJob_serial (s : State) (j : Job) : (s.setJob j).serial = s.serial := rfl
@[simp] theorem State.setJob_nextJob (s : State) (j : Job) : (s.setJob j).nextJob = s.nextJob := rfl
@[simp] theorem State.setJob_nextFiring (s : State) (j : Job) : (s.setJob j).nextFiring = s.nextFiring := rfl
@[simp] theorem State.setJob_freeTick (s : State) (j : Job) : (s.setJob j).freeTick = s.freeTick := rfl
@[simp] theorem State.setJob_cores (s : State) (j : Job) : (s.setJob j).cores = s.cores := rfl
@[simp] theorem State.setJob_clusters (s : State) (j : Job) : (s.setJob j).clusters = s.clusters := rfl
@[simp] theorem State.setJob_images (s : State) (j : Job) : (s.setJob j).images = s.images := rfl
@[simp] theorem State.setJob_launches (s : State) (j : Job) : (s.setJob j).launches = s.launches := rfl
@[simp] theorem State.setJob_retired (s : State) (j : Job) : (s.setJob j).retired = s.retired := rfl
@[simp] theorem State.setJob_queues (s : State) (j : Job) : (s.setJob j).queues = s.queues := rfl
@[simp] theorem State.setJob_jobs (s : State) (j : Job) : (s.setJob j).jobs = s.jobs.map (fun x => if x.id == j.id then j else x) := rfl
@[simp] theorem State.setJob_writes (s : State) (j : Job) : (s.setJob j).writes = s.writes := rfl
@[simp] theorem State.setJob_older (s : State) (j : Job) : (s.setJob j).older = s.older := rfl
@[simp] theorem State.setJob_syncs (s : State) (j : Job) : (s.setJob j).syncs = s.syncs := rfl
@[simp] theorem State.setJob_barriers (s : State) (j : Job) : (s.setJob j).barriers = s.barriers := rfl
@[simp] theorem State.setJob_hostSeen (s : State) (j : Job) : (s.setJob j).hostSeen = s.hostSeen := rfl
@[simp] theorem State.setJob_hostWrote (s : State) (j : Job) : (s.setJob j).hostWrote = s.hostWrote := rfl
@[simp] theorem State.setJob_metBad (s : State) (j : Job) : (s.setJob j).metBad = s.metBad := rfl
@[simp] theorem State.setJob_heldAreas (s : State) (j : Job) : (s.setJob j).heldAreas = s.heldAreas := rfl
@[simp] theorem State.setJob_posted (s : State) (j : Job) : (s.setJob j).posted = s.posted := rfl
@[simp] theorem State.setJob_sent (s : State) (j : Job) : (s.setJob j).sent = s.sent := rfl
@[simp] theorem State.setJob_unsent (s : State) (j : Job) : (s.setJob j).unsent = s.unsent := rfl
@[simp] theorem State.setJob_gotPackets (s : State) (j : Job) : (s.setJob j).gotPackets = s.gotPackets := rfl
@[simp] theorem State.setJob_congestion (s : State) (j : Job) : (s.setJob j).congestion = s.congestion := rfl
@[simp] theorem State.setJob_refilled (s : State) (j : Job) : (s.setJob j).refilled = s.refilled := rfl
@[simp] theorem State.setJob_mailboxes (s : State) (j : Job) : (s.setJob j).mailboxes = s.mailboxes := rfl
@[simp] theorem State.setJob_eventRings (s : State) (j : Job) : (s.setJob j).eventRings = s.eventRings := rfl
@[simp] theorem State.setJob_eventSeq (s : State) (j : Job) : (s.setJob j).eventSeq = s.eventSeq := rfl
@[simp] theorem State.setJob_msix (s : State) (j : Job) : (s.setJob j).msix = s.msix := rfl
@[simp] theorem State.setJob_migHold (s : State) (j : Job) : (s.setJob j).migHold = s.migHold := rfl
@[simp] theorem State.setJob_pages (s : State) (j : Job) : (s.setJob j).pages = s.pages := rfl
@[simp] theorem State.setJob_compat (s : State) (j : Job) : (s.setJob j).compat = s.compat := rfl
@[simp] theorem State.setJob_regs (s : State) (j : Job) : (s.setJob j).regs = s.regs := rfl
@[simp] theorem State.setJob_hostReplies (s : State) (j : Job) : (s.setJob j).hostReplies = s.hostReplies := rfl
@[simp] theorem State.setJob_tenants (s : State) (j : Job) : (s.setJob j).tenants = s.tenants := rfl
@[simp] theorem State.setJob_resetCounts (s : State) (j : Job) : (s.setJob j).resetCounts = s.resetCounts := rfl
@[simp] theorem State.setJob_stage2Queue (s : State) (j : Job) : (s.setJob j).stage2Queue = s.stage2Queue := rfl
@[simp] theorem State.setJob_niHeld (s : State) (j : Job) : (s.setJob j).niHeld = s.niHeld := rfl
@[simp] theorem State.setJob_heldPosts (s : State) (j : Job) : (s.setJob j).heldPosts = s.heldPosts := rfl
@[simp] theorem State.setJob_faultSeq (s : State) (j : Job) : (s.setJob j).faultSeq = s.faultSeq := rfl
@[simp] theorem State.setJob_tlb (s : State) (j : Job) : (s.setJob j).tlb = s.tlb := rfl
@[simp] theorem State.setJob_ringUpTo (s : State) (j : Job) : (s.setJob j).ringUpTo = s.ringUpTo := rfl
@[simp] theorem State.setJob_sched (s : State) (j : Job) : (s.setJob j).sched = s.sched := rfl
@[simp] theorem State.setJob_saved (s : State) (j : Job) : (s.setJob j).saved = s.saved := rfl
@[simp] theorem State.setJob_refusedEntries (s : State) (j : Job) : (s.setJob j).refusedEntries = s.refusedEntries := rfl
@[simp] theorem State.setJob_resets (s : State) (j : Job) : (s.setJob j).resets = s.resets := rfl
@[simp] theorem State.setJob_fabricControl (s : State) (j : Job) : (s.setJob j).fabricControl = s.fabricControl := rfl
@[simp] theorem State.setJob_routers (s : State) (j : Job) : (s.setJob j).routers = s.routers := rfl
@[simp] theorem State.setJob_ports (s : State) (j : Job) : (s.setJob j).ports = s.ports := rfl
@[simp] theorem State.setJob_clusterState (s : State) (j : Job) : (s.setJob j).clusterState = s.clusterState := rfl
@[simp] theorem State.setJob_sparesUsed (s : State) (j : Job) : (s.setJob j).sparesUsed = s.sparesUsed := rfl
@[simp] theorem State.setJob_uePorts (s : State) (j : Job) : (s.setJob j).uePorts = s.uePorts := rfl
@[simp] theorem State.setJob_laneFaults (s : State) (j : Job) : (s.setJob j).laneFaults = s.laneFaults := rfl
@[simp] theorem State.setJob_renegotiating (s : State) (j : Job) : (s.setJob j).renegotiating = s.renegotiating := rfl
@[simp] theorem State.setJob_servo (s : State) (j : Job) : (s.setJob j).servo = s.servo := rfl
@[simp] theorem State.setJob_bringup (s : State) (j : Job) : (s.setJob j).bringup = s.bringup := rfl
@[simp] theorem State.setJob_flash (s : State) (j : Job) : (s.setJob j).flash = s.flash := rfl
@[simp] theorem State.setJob_update (s : State) (j : Job) : (s.setJob j).update = s.update := rfl
@[simp] theorem State.setJob_attest (s : State) (j : Job) : (s.setJob j).attest = s.attest := rfl
@[simp] theorem State.setJob_health (s : State) (j : Job) : (s.setJob j).health = s.health := rfl
@[simp] theorem State.setJob_coreClock (s : State) (j : Job) : (s.setJob j).coreClock = s.coreClock := rfl
@[simp] theorem State.setJob_fabricClock (s : State) (j : Job) : (s.setJob j).fabricClock = s.fabricClock := rfl
@[simp] theorem State.setJob_privCode (s : State) (j : Job) : (s.setJob j).privCode = s.privCode := rfl
@[simp] theorem State.setJob_privLen (s : State) (j : Job) : (s.setJob j).privLen = s.privLen := rfl

@[simp] theorem State.dropJob_mem (s : State) (n : Nat) : (s.dropJob n).mem = s.mem := rfl
@[simp] theorem State.dropJob_full (s : State) (n : Nat) : (s.dropJob n).full = s.full := rfl
@[simp] theorem State.dropJob_clock (s : State) (n : Nat) : (s.dropJob n).clock = s.clock := rfl
@[simp] theorem State.dropJob_timeBase (s : State) (n : Nat) : (s.dropJob n).timeBase = s.timeBase := rfl
@[simp] theorem State.dropJob_timeSet (s : State) (n : Nat) : (s.dropJob n).timeSet = s.timeSet := rfl
@[simp] theorem State.dropJob_turns (s : State) (n : Nat) : (s.dropJob n).turns = s.turns := rfl
@[simp] theorem State.dropJob_agenda (s : State) (n : Nat) : (s.dropJob n).agenda = s.agenda := rfl
@[simp] theorem State.dropJob_timers (s : State) (n : Nat) : (s.dropJob n).timers = s.timers := rfl
@[simp] theorem State.dropJob_input (s : State) (n : Nat) : (s.dropJob n).input = s.input := rfl
@[simp] theorem State.dropJob_cur (s : State) (n : Nat) : (s.dropJob n).cur = s.cur := rfl
@[simp] theorem State.dropJob_curSlot (s : State) (n : Nat) : (s.dropJob n).curSlot = s.curSlot := rfl
@[simp] theorem State.dropJob_serial (s : State) (n : Nat) : (s.dropJob n).serial = s.serial := rfl
@[simp] theorem State.dropJob_nextJob (s : State) (n : Nat) : (s.dropJob n).nextJob = s.nextJob := rfl
@[simp] theorem State.dropJob_nextFiring (s : State) (n : Nat) : (s.dropJob n).nextFiring = s.nextFiring := rfl
@[simp] theorem State.dropJob_freeTick (s : State) (n : Nat) : (s.dropJob n).freeTick = s.freeTick := rfl
@[simp] theorem State.dropJob_cores (s : State) (n : Nat) : (s.dropJob n).cores = s.cores := rfl
@[simp] theorem State.dropJob_clusters (s : State) (n : Nat) : (s.dropJob n).clusters = s.clusters := rfl
@[simp] theorem State.dropJob_images (s : State) (n : Nat) : (s.dropJob n).images = s.images := rfl
@[simp] theorem State.dropJob_launches (s : State) (n : Nat) : (s.dropJob n).launches = s.launches := rfl
@[simp] theorem State.dropJob_retired (s : State) (n : Nat) : (s.dropJob n).retired = s.retired := rfl
@[simp] theorem State.dropJob_queues (s : State) (n : Nat) : (s.dropJob n).queues = s.queues := rfl
@[simp] theorem State.dropJob_jobs (s : State) (n : Nat) : (s.dropJob n).jobs = s.jobs.filter (fun j => j.id != n) := rfl
@[simp] theorem State.dropJob_writes (s : State) (n : Nat) : (s.dropJob n).writes = s.writes := rfl
@[simp] theorem State.dropJob_older (s : State) (n : Nat) : (s.dropJob n).older = s.older := rfl
@[simp] theorem State.dropJob_syncs (s : State) (n : Nat) : (s.dropJob n).syncs = s.syncs := rfl
@[simp] theorem State.dropJob_barriers (s : State) (n : Nat) : (s.dropJob n).barriers = s.barriers := rfl
@[simp] theorem State.dropJob_hostSeen (s : State) (n : Nat) : (s.dropJob n).hostSeen = s.hostSeen := rfl
@[simp] theorem State.dropJob_hostWrote (s : State) (n : Nat) : (s.dropJob n).hostWrote = s.hostWrote := rfl
@[simp] theorem State.dropJob_metBad (s : State) (n : Nat) : (s.dropJob n).metBad = s.metBad := rfl
@[simp] theorem State.dropJob_heldAreas (s : State) (n : Nat) : (s.dropJob n).heldAreas = s.heldAreas := rfl
@[simp] theorem State.dropJob_posted (s : State) (n : Nat) : (s.dropJob n).posted = s.posted := rfl
@[simp] theorem State.dropJob_sent (s : State) (n : Nat) : (s.dropJob n).sent = s.sent := rfl
@[simp] theorem State.dropJob_unsent (s : State) (n : Nat) : (s.dropJob n).unsent = s.unsent := rfl
@[simp] theorem State.dropJob_gotPackets (s : State) (n : Nat) : (s.dropJob n).gotPackets = s.gotPackets := rfl
@[simp] theorem State.dropJob_congestion (s : State) (n : Nat) : (s.dropJob n).congestion = s.congestion := rfl
@[simp] theorem State.dropJob_refilled (s : State) (n : Nat) : (s.dropJob n).refilled = s.refilled := rfl
@[simp] theorem State.dropJob_mailboxes (s : State) (n : Nat) : (s.dropJob n).mailboxes = s.mailboxes := rfl
@[simp] theorem State.dropJob_eventRings (s : State) (n : Nat) : (s.dropJob n).eventRings = s.eventRings := rfl
@[simp] theorem State.dropJob_eventSeq (s : State) (n : Nat) : (s.dropJob n).eventSeq = s.eventSeq := rfl
@[simp] theorem State.dropJob_msix (s : State) (n : Nat) : (s.dropJob n).msix = s.msix := rfl
@[simp] theorem State.dropJob_migHold (s : State) (n : Nat) : (s.dropJob n).migHold = s.migHold := rfl
@[simp] theorem State.dropJob_pages (s : State) (n : Nat) : (s.dropJob n).pages = s.pages := rfl
@[simp] theorem State.dropJob_compat (s : State) (n : Nat) : (s.dropJob n).compat = s.compat := rfl
@[simp] theorem State.dropJob_regs (s : State) (n : Nat) : (s.dropJob n).regs = s.regs := rfl
@[simp] theorem State.dropJob_hostReplies (s : State) (n : Nat) : (s.dropJob n).hostReplies = s.hostReplies := rfl
@[simp] theorem State.dropJob_tenants (s : State) (n : Nat) : (s.dropJob n).tenants = s.tenants := rfl
@[simp] theorem State.dropJob_resetCounts (s : State) (n : Nat) : (s.dropJob n).resetCounts = s.resetCounts := rfl
@[simp] theorem State.dropJob_stage2Queue (s : State) (n : Nat) : (s.dropJob n).stage2Queue = s.stage2Queue := rfl
@[simp] theorem State.dropJob_niHeld (s : State) (n : Nat) : (s.dropJob n).niHeld = s.niHeld := rfl
@[simp] theorem State.dropJob_heldPosts (s : State) (n : Nat) : (s.dropJob n).heldPosts = s.heldPosts := rfl
@[simp] theorem State.dropJob_faultSeq (s : State) (n : Nat) : (s.dropJob n).faultSeq = s.faultSeq := rfl
@[simp] theorem State.dropJob_tlb (s : State) (n : Nat) : (s.dropJob n).tlb = s.tlb := rfl
@[simp] theorem State.dropJob_ringUpTo (s : State) (n : Nat) : (s.dropJob n).ringUpTo = s.ringUpTo := rfl
@[simp] theorem State.dropJob_sched (s : State) (n : Nat) : (s.dropJob n).sched = s.sched := rfl
@[simp] theorem State.dropJob_saved (s : State) (n : Nat) : (s.dropJob n).saved = s.saved := rfl
@[simp] theorem State.dropJob_refusedEntries (s : State) (n : Nat) : (s.dropJob n).refusedEntries = s.refusedEntries := rfl
@[simp] theorem State.dropJob_resets (s : State) (n : Nat) : (s.dropJob n).resets = s.resets := rfl
@[simp] theorem State.dropJob_fabricControl (s : State) (n : Nat) : (s.dropJob n).fabricControl = s.fabricControl := rfl
@[simp] theorem State.dropJob_routers (s : State) (n : Nat) : (s.dropJob n).routers = s.routers := rfl
@[simp] theorem State.dropJob_ports (s : State) (n : Nat) : (s.dropJob n).ports = s.ports := rfl
@[simp] theorem State.dropJob_clusterState (s : State) (n : Nat) : (s.dropJob n).clusterState = s.clusterState := rfl
@[simp] theorem State.dropJob_sparesUsed (s : State) (n : Nat) : (s.dropJob n).sparesUsed = s.sparesUsed := rfl
@[simp] theorem State.dropJob_uePorts (s : State) (n : Nat) : (s.dropJob n).uePorts = s.uePorts := rfl
@[simp] theorem State.dropJob_laneFaults (s : State) (n : Nat) : (s.dropJob n).laneFaults = s.laneFaults := rfl
@[simp] theorem State.dropJob_renegotiating (s : State) (n : Nat) : (s.dropJob n).renegotiating = s.renegotiating := rfl
@[simp] theorem State.dropJob_servo (s : State) (n : Nat) : (s.dropJob n).servo = s.servo := rfl
@[simp] theorem State.dropJob_bringup (s : State) (n : Nat) : (s.dropJob n).bringup = s.bringup := rfl
@[simp] theorem State.dropJob_flash (s : State) (n : Nat) : (s.dropJob n).flash = s.flash := rfl
@[simp] theorem State.dropJob_update (s : State) (n : Nat) : (s.dropJob n).update = s.update := rfl
@[simp] theorem State.dropJob_attest (s : State) (n : Nat) : (s.dropJob n).attest = s.attest := rfl
@[simp] theorem State.dropJob_health (s : State) (n : Nat) : (s.dropJob n).health = s.health := rfl
@[simp] theorem State.dropJob_coreClock (s : State) (n : Nat) : (s.dropJob n).coreClock = s.coreClock := rfl
@[simp] theorem State.dropJob_fabricClock (s : State) (n : Nat) : (s.dropJob n).fabricClock = s.fabricClock := rfl
@[simp] theorem State.dropJob_privCode (s : State) (n : Nat) : (s.dropJob n).privCode = s.privCode := rfl
@[simp] theorem State.dropJob_privLen (s : State) (n : Nat) : (s.dropJob n).privLen = s.privLen := rfl

@[simp] theorem Core.setSlot_slots (k : Core) (n : Nat) (x : Slot) : (k.setSlot n x).slots = Tab.set k.slots n x := rfl
@[simp] theorem Core.setSlot_lastSlot (k : Core) (n : Nat) (x : Slot) : (k.setSlot n x).lastSlot = k.lastSlot := rfl
@[simp] theorem Core.setSlot_image (k : Core) (n : Nat) (x : Slot) : (k.setSlot n x).image = k.image := rfl
@[simp] theorem Core.setSlot_partw (k : Core) (n : Nat) (x : Slot) : (k.setSlot n x).partw = k.partw := rfl
@[simp] theorem Core.setSlot_handlers (k : Core) (n : Nat) (x : Slot) : (k.setSlot n x).handlers = k.handlers := rfl
@[simp] theorem Core.setSlot_acc (k : Core) (n : Nat) (x : Slot) : (k.setSlot n x).acc = k.acc := rfl
@[simp] theorem Core.setSlot_scoreboard (k : Core) (n : Nat) (x : Slot) : (k.setSlot n x).scoreboard = k.scoreboard := rfl
@[simp] theorem Core.setSlot_channels (k : Core) (n : Nat) (x : Slot) : (k.setSlot n x).channels = k.channels := rfl
@[simp] theorem Core.setSlot_mirrors (k : Core) (n : Nat) (x : Slot) : (k.setSlot n x).mirrors = k.mirrors := rfl
@[simp] theorem Core.setSlot_ring4 (k : Core) (n : Nat) (x : Slot) : (k.setSlot n x).ring4 = k.ring4 := rfl
@[simp] theorem Core.setSlot_ring5 (k : Core) (n : Nat) (x : Slot) : (k.setSlot n x).ring5 = k.ring5 := rfl
@[simp] theorem Core.setSlot_ringOut4 (k : Core) (n : Nat) (x : Slot) : (k.setSlot n x).ringOut4 = k.ringOut4 := rfl
@[simp] theorem Core.setSlot_ringOut5 (k : Core) (n : Nat) (x : Slot) : (k.setSlot n x).ringOut5 = k.ringOut5 := rfl
@[simp] theorem Core.setSlot_completions (k : Core) (n : Nat) (x : Slot) : (k.setSlot n x).completions = k.completions := rfl
@[simp] theorem Core.setSlot_complUsed (k : Core) (n : Nat) (x : Slot) : (k.setSlot n x).complUsed = k.complUsed := rfl
@[simp] theorem Core.setSlot_tasks (k : Core) (n : Nat) (x : Slot) : (k.setSlot n x).tasks = k.tasks := rfl
@[simp] theorem Core.setSlot_pending (k : Core) (n : Nat) (x : Slot) : (k.setSlot n x).pending = k.pending := rfl
@[simp] theorem Core.setSlot_recalls (k : Core) (n : Nat) (x : Slot) : (k.setSlot n x).recalls = k.recalls := rfl
@[simp] theorem Core.setSlot_recallWait (k : Core) (n : Nat) (x : Slot) : (k.setSlot n x).recallWait = k.recallWait := rfl
@[simp] theorem Core.setSlot_outReq (k : Core) (n : Nat) (x : Slot) : (k.setSlot n x).outReq = k.outReq := rfl
@[simp] theorem Core.setSlot_outRep (k : Core) (n : Nat) (x : Slot) : (k.setSlot n x).outRep = k.outRep := rfl
@[simp] theorem Core.setSlot_outWalk (k : Core) (n : Nat) (x : Slot) : (k.setSlot n x).outWalk = k.outWalk := rfl
@[simp] theorem Core.setSlot_returns (k : Core) (n : Nat) (x : Slot) : (k.setSlot n x).returns = k.returns := rfl
@[simp] theorem Core.setSlot_journal (k : Core) (n : Nat) (x : Slot) : (k.setSlot n x).journal = k.journal := rfl
@[simp] theorem Core.setSlot_asyncTraps (k : Core) (n : Nat) (x : Slot) : (k.setSlot n x).asyncTraps = k.asyncTraps := rfl
@[simp] theorem Core.setSlot_gang (k : Core) (n : Nat) (x : Slot) : (k.setSlot n x).gang = k.gang := rfl
@[simp] theorem Core.setSlot_seed (k : Core) (n : Nat) (x : Slot) : (k.setSlot n x).seed = k.seed := rfl
@[simp] theorem Core.setSlot_perf (k : Core) (n : Nat) (x : Slot) : (k.setSlot n x).perf = k.perf := rfl
@[simp] theorem Core.setSlot_perfsel (k : Core) (n : Nat) (x : Slot) : (k.setSlot n x).perfsel = k.perfsel := rfl
@[simp] theorem Core.setSlot_clockBase (k : Core) (n : Nat) (x : Slot) : (k.setSlot n x).clockBase = k.clockBase := rfl
@[simp] theorem Core.setSlot_intcause (k : Core) (n : Nat) (x : Slot) : (k.setSlot n x).intcause = k.intcause := rfl
@[simp] theorem Core.setSlot_ctxbase (k : Core) (n : Nat) (x : Slot) : (k.setSlot n x).ctxbase = k.ctxbase := rfl
@[simp] theorem Core.setSlot_spillbase (k : Core) (n : Nat) (x : Slot) : (k.setSlot n x).spillbase = k.spillbase := rfl
@[simp] theorem Core.setSlot_permbase (k : Core) (n : Nat) (x : Slot) : (k.setSlot n x).permbase = k.permbase := rfl
@[simp] theorem Core.setSlot_featallow (k : Core) (n : Nat) (x : Slot) : (k.setSlot n x).featallow = k.featallow := rfl
@[simp] theorem Core.setSlot_tenant (k : Core) (n : Nat) (x : Slot) : (k.setSlot n x).tenant = k.tenant := rfl
@[simp] theorem Core.setSlot_reflimit (k : Core) (n : Nat) (x : Slot) : (k.setSlot n x).reflimit = k.reflimit := rfl
@[simp] theorem Core.setSlot_finlimit (k : Core) (n : Nat) (x : Slot) : (k.setSlot n x).finlimit = k.finlimit := rfl
@[simp] theorem Core.setSlot_holdlimit (k : Core) (n : Nat) (x : Slot) : (k.setSlot n x).holdlimit = k.holdlimit := rfl
@[simp] theorem Core.setSlot_halted (k : Core) (n : Nat) (x : Slot) : (k.setSlot n x).halted = k.halted := rfl
@[simp] theorem Core.setSlot_debugHalt (k : Core) (n : Nat) (x : Slot) : (k.setSlot n x).debugHalt = k.debugHalt := rfl
@[simp] theorem Core.setSlot_restoring (k : Core) (n : Nat) (x : Slot) : (k.setSlot n x).restoring = k.restoring := rfl
@[simp] theorem Core.setSlot_held (k : Core) (n : Nat) (x : Slot) : (k.setSlot n x).held = k.held := rfl
@[simp] theorem Core.setSlot_expired (k : Core) (n : Nat) (x : Slot) : (k.setSlot n x).expired = k.expired := rfl
@[simp] theorem Core.setSlot_wakes (k : Core) (n : Nat) (x : Slot) : (k.setSlot n x).wakes = k.wakes := rfl
@[simp] theorem Core.setSlot_estimates (k : Core) (n : Nat) (x : Slot) : (k.setSlot n x).estimates = k.estimates := rfl
@[simp] theorem Core.setSlot_buckets (k : Core) (n : Nat) (x : Slot) : (k.setSlot n x).buckets = k.buckets := rfl
@[simp] theorem Core.setSlot_past (k : Core) (n : Nat) (x : Slot) : (k.setSlot n x).past = k.past := rfl
@[simp] theorem Core.setSlot_niinvs (k : Core) (n : Nat) (x : Slot) : (k.setSlot n x).niinvs = k.niinvs := rfl

@[simp] theorem Slot.writeG_st (x : Slot) (n : BitVec 5) (y : Word) : (x.writeG n y).st = x.st := by
  unfold Slot.writeG; split <;> rfl
@[simp] theorem Slot.writeG_stall (x : Slot) (n : BitVec 5) (y : Word) : (x.writeG n y).stall = x.stall := by
  unfold Slot.writeG; split <;> rfl
@[simp] theorem Slot.writeG_v (x : Slot) (n : BitVec 5) (y : Word) : (x.writeG n y).v = x.v := by
  unfold Slot.writeG; split <;> rfl
@[simp] theorem Slot.writeG_p (x : Slot) (n : BitVec 5) (y : Word) : (x.writeG n y).p = x.p := by
  unfold Slot.writeG; split <;> rfl
@[simp] theorem Slot.writeG_w (x : Slot) (n : BitVec 5) (y : Word) : (x.writeG n y).w = x.w := by
  unfold Slot.writeG; split <;> rfl
@[simp] theorem Slot.writeG_m (x : Slot) (n : BitVec 5) (y : Word) : (x.writeG n y).m = x.m := by
  unfold Slot.writeG; split <;> rfl
@[simp] theorem Slot.writeG_pc (x : Slot) (n : BitVec 5) (y : Word) : (x.writeG n y).pc = x.pc := by
  unfold Slot.writeG; split <;> rfl
@[simp] theorem Slot.writeG_launch (x : Slot) (n : BitVec 5) (y : Word) : (x.writeG n y).launch = x.launch := by
  unfold Slot.writeG; split <;> rfl
@[simp] theorem Slot.writeG_handler (x : Slot) (n : BitVec 5) (y : Word) : (x.writeG n y).handler = x.handler := by
  unfold Slot.writeG; split <;> rfl
@[simp] theorem Slot.writeG_kind (x : Slot) (n : BitVec 5) (y : Word) : (x.writeG n y).kind = x.kind := by
  unfold Slot.writeG; split <;> rfl
@[simp] theorem Slot.writeG_count (x : Slot) (n : BitVec 5) (y : Word) : (x.writeG n y).count = x.count := by
  unfold Slot.writeG; split <;> rfl
@[simp] theorem Slot.writeG_depth (x : Slot) (n : BitVec 5) (y : Word) : (x.writeG n y).depth = x.depth := by
  unfold Slot.writeG; split <;> rfl
@[simp] theorem Slot.writeG_light (x : Slot) (n : BitVec 5) (y : Word) : (x.writeG n y).light = x.light := by
  unfold Slot.writeG; split <;> rfl
@[simp] theorem Slot.writeG_lightRet (x : Slot) (n : BitVec 5) (y : Word) : (x.writeG n y).lightRet = x.lightRet := by
  unfold Slot.writeG; split <;> rfl
@[simp] theorem Slot.writeG_inTrap (x : Slot) (n : BitVec 5) (y : Word) : (x.writeG n y).inTrap = x.inTrap := by
  unfold Slot.writeG; split <;> rfl
@[simp] theorem Slot.writeG_trapCause (x : Slot) (n : BitVec 5) (y : Word) : (x.writeG n y).trapCause = x.trapCause := by
  unfold Slot.writeG; split <;> rfl
@[simp] theorem Slot.writeG_trapPc (x : Slot) (n : BitVec 5) (y : Word) : (x.writeG n y).trapPc = x.trapPc := by
  unfold Slot.writeG; split <;> rfl
@[simp] theorem Slot.writeG_trapVal (x : Slot) (n : BitVec 5) (y : Word) : (x.writeG n y).trapVal = x.trapVal := by
  unfold Slot.writeG; split <;> rfl
@[simp] theorem Slot.writeG_trapAddr (x : Slot) (n : BitVec 5) (y : Word) : (x.writeG n y).trapAddr = x.trapAddr := by
  unfold Slot.writeG; split <;> rfl
@[simp] theorem Slot.writeG_qblock (x : Slot) (n : BitVec 5) (y : Word) : (x.writeG n y).qblock = x.qblock := by
  unfold Slot.writeG; split <;> rfl
@[simp] theorem Slot.writeG_meets (x : Slot) (n : BitVec 5) (y : Word) : (x.writeG n y).meets = x.meets := by
  unfold Slot.writeG; split <;> rfl
@[simp] theorem Slot.writeG_surrSett (x : Slot) (n : BitVec 5) (y : Word) : (x.writeG n y).surrSett = x.surrSett := by
  unfold Slot.writeG; split <;> rfl
@[simp] theorem Slot.writeG_wake (x : Slot) (n : BitVec 5) (y : Word) : (x.writeG n y).wake = x.wake := by
  unfold Slot.writeG; split <;> rfl
@[simp] theorem Slot.writeG_task (x : Slot) (n : BitVec 5) (y : Word) : (x.writeG n y).task = x.task := by
  unfold Slot.writeG; split <;> rfl
@[simp] theorem Slot.writeG_order (x : Slot) (n : BitVec 5) (y : Word) : (x.writeG n y).order = x.order := by
  unfold Slot.writeG; split <;> rfl
@[simp] theorem Slot.writeG_out4 (x : Slot) (n : BitVec 5) (y : Word) : (x.writeG n y).out4 = x.out4 := by
  unfold Slot.writeG; split <;> rfl
@[simp] theorem Slot.writeG_out5 (x : Slot) (n : BitVec 5) (y : Word) : (x.writeG n y).out5 = x.out5 := by
  unfold Slot.writeG; split <;> rfl
@[simp] theorem Slot.writeG_cmd (x : Slot) (n : BitVec 5) (y : Word) : (x.writeG n y).cmd = x.cmd := by
  unfold Slot.writeG; split <;> rfl
@[simp] theorem Slot.writeG_card (x : Slot) (n : BitVec 5) (y : Word) : (x.writeG n y).card = x.card := by
  unfold Slot.writeG; split <;> rfl
@[simp] theorem Slot.writeG_cover (x : Slot) (n : BitVec 5) (y : Word) : (x.writeG n y).cover = x.cover := by
  unfold Slot.writeG; split <;> rfl
@[simp] theorem Slot.writeG_verdict (x : Slot) (n : BitVec 5) (y : Word) : (x.writeG n y).verdict = x.verdict := by
  unfold Slot.writeG; split <;> rfl
@[simp] theorem Slot.writeG_grain (x : Slot) (n : BitVec 5) (y : Word) : (x.writeG n y).grain = x.grain := by
  unfold Slot.writeG; split <;> rfl
@[simp] theorem Slot.writeG_journal (x : Slot) (n : BitVec 5) (y : Word) : (x.writeG n y).journal = x.journal := by
  unfold Slot.writeG; split <;> rfl
@[simp] theorem Slot.writeG_met (x : Slot) (n : BitVec 5) (y : Word) : (x.writeG n y).met = x.met := by
  unfold Slot.writeG; split <;> rfl
@[simp] theorem Slot.writeG_spilling (x : Slot) (n : BitVec 5) (y : Word) : (x.writeG n y).spilling = x.spilling := by
  unfold Slot.writeG; split <;> rfl
@[simp] theorem Slot.writeG_fid (x : Slot) (n : BitVec 5) (y : Word) : (x.writeG n y).fid = x.fid := by
  unfold Slot.writeG; split <;> rfl

@[simp] theorem Slot.writeV_st (x : Slot) (n : BitVec 5) (y : Line) : (x.writeV n y).st = x.st := rfl
@[simp] theorem Slot.writeV_stall (x : Slot) (n : BitVec 5) (y : Line) : (x.writeV n y).stall = x.stall := rfl
@[simp] theorem Slot.writeV_g (x : Slot) (n : BitVec 5) (y : Line) : (x.writeV n y).g = x.g := rfl
@[simp] theorem Slot.writeV_p (x : Slot) (n : BitVec 5) (y : Line) : (x.writeV n y).p = x.p := rfl
@[simp] theorem Slot.writeV_w (x : Slot) (n : BitVec 5) (y : Line) : (x.writeV n y).w = x.w := rfl
@[simp] theorem Slot.writeV_m (x : Slot) (n : BitVec 5) (y : Line) : (x.writeV n y).m = x.m := rfl
@[simp] theorem Slot.writeV_pc (x : Slot) (n : BitVec 5) (y : Line) : (x.writeV n y).pc = x.pc := rfl
@[simp] theorem Slot.writeV_launch (x : Slot) (n : BitVec 5) (y : Line) : (x.writeV n y).launch = x.launch := rfl
@[simp] theorem Slot.writeV_handler (x : Slot) (n : BitVec 5) (y : Line) : (x.writeV n y).handler = x.handler := rfl
@[simp] theorem Slot.writeV_kind (x : Slot) (n : BitVec 5) (y : Line) : (x.writeV n y).kind = x.kind := rfl
@[simp] theorem Slot.writeV_count (x : Slot) (n : BitVec 5) (y : Line) : (x.writeV n y).count = x.count := rfl
@[simp] theorem Slot.writeV_depth (x : Slot) (n : BitVec 5) (y : Line) : (x.writeV n y).depth = x.depth := rfl
@[simp] theorem Slot.writeV_light (x : Slot) (n : BitVec 5) (y : Line) : (x.writeV n y).light = x.light := rfl
@[simp] theorem Slot.writeV_lightRet (x : Slot) (n : BitVec 5) (y : Line) : (x.writeV n y).lightRet = x.lightRet := rfl
@[simp] theorem Slot.writeV_inTrap (x : Slot) (n : BitVec 5) (y : Line) : (x.writeV n y).inTrap = x.inTrap := rfl
@[simp] theorem Slot.writeV_trapCause (x : Slot) (n : BitVec 5) (y : Line) : (x.writeV n y).trapCause = x.trapCause := rfl
@[simp] theorem Slot.writeV_trapPc (x : Slot) (n : BitVec 5) (y : Line) : (x.writeV n y).trapPc = x.trapPc := rfl
@[simp] theorem Slot.writeV_trapVal (x : Slot) (n : BitVec 5) (y : Line) : (x.writeV n y).trapVal = x.trapVal := rfl
@[simp] theorem Slot.writeV_trapAddr (x : Slot) (n : BitVec 5) (y : Line) : (x.writeV n y).trapAddr = x.trapAddr := rfl
@[simp] theorem Slot.writeV_qblock (x : Slot) (n : BitVec 5) (y : Line) : (x.writeV n y).qblock = x.qblock := rfl
@[simp] theorem Slot.writeV_meets (x : Slot) (n : BitVec 5) (y : Line) : (x.writeV n y).meets = x.meets := rfl
@[simp] theorem Slot.writeV_surrSett (x : Slot) (n : BitVec 5) (y : Line) : (x.writeV n y).surrSett = x.surrSett := rfl
@[simp] theorem Slot.writeV_wake (x : Slot) (n : BitVec 5) (y : Line) : (x.writeV n y).wake = x.wake := rfl
@[simp] theorem Slot.writeV_task (x : Slot) (n : BitVec 5) (y : Line) : (x.writeV n y).task = x.task := rfl
@[simp] theorem Slot.writeV_order (x : Slot) (n : BitVec 5) (y : Line) : (x.writeV n y).order = x.order := rfl
@[simp] theorem Slot.writeV_out4 (x : Slot) (n : BitVec 5) (y : Line) : (x.writeV n y).out4 = x.out4 := rfl
@[simp] theorem Slot.writeV_out5 (x : Slot) (n : BitVec 5) (y : Line) : (x.writeV n y).out5 = x.out5 := rfl
@[simp] theorem Slot.writeV_cmd (x : Slot) (n : BitVec 5) (y : Line) : (x.writeV n y).cmd = x.cmd := rfl
@[simp] theorem Slot.writeV_card (x : Slot) (n : BitVec 5) (y : Line) : (x.writeV n y).card = x.card := rfl
@[simp] theorem Slot.writeV_cover (x : Slot) (n : BitVec 5) (y : Line) : (x.writeV n y).cover = x.cover := rfl
@[simp] theorem Slot.writeV_verdict (x : Slot) (n : BitVec 5) (y : Line) : (x.writeV n y).verdict = x.verdict := rfl
@[simp] theorem Slot.writeV_grain (x : Slot) (n : BitVec 5) (y : Line) : (x.writeV n y).grain = x.grain := rfl
@[simp] theorem Slot.writeV_journal (x : Slot) (n : BitVec 5) (y : Line) : (x.writeV n y).journal = x.journal := rfl
@[simp] theorem Slot.writeV_met (x : Slot) (n : BitVec 5) (y : Line) : (x.writeV n y).met = x.met := rfl
@[simp] theorem Slot.writeV_spilling (x : Slot) (n : BitVec 5) (y : Line) : (x.writeV n y).spilling = x.spilling := rfl
@[simp] theorem Slot.writeV_fid (x : Slot) (n : BitVec 5) (y : Line) : (x.writeV n y).fid = x.fid := rfl

@[simp] theorem Slot.writeP_st (x : Slot) (n : BitVec 3) (y : Bool) : (x.writeP n y).st = x.st := by
  unfold Slot.writeP; split <;> rfl
@[simp] theorem Slot.writeP_stall (x : Slot) (n : BitVec 3) (y : Bool) : (x.writeP n y).stall = x.stall := by
  unfold Slot.writeP; split <;> rfl
@[simp] theorem Slot.writeP_g (x : Slot) (n : BitVec 3) (y : Bool) : (x.writeP n y).g = x.g := by
  unfold Slot.writeP; split <;> rfl
@[simp] theorem Slot.writeP_v (x : Slot) (n : BitVec 3) (y : Bool) : (x.writeP n y).v = x.v := by
  unfold Slot.writeP; split <;> rfl
@[simp] theorem Slot.writeP_w (x : Slot) (n : BitVec 3) (y : Bool) : (x.writeP n y).w = x.w := by
  unfold Slot.writeP; split <;> rfl
@[simp] theorem Slot.writeP_m (x : Slot) (n : BitVec 3) (y : Bool) : (x.writeP n y).m = x.m := by
  unfold Slot.writeP; split <;> rfl
@[simp] theorem Slot.writeP_pc (x : Slot) (n : BitVec 3) (y : Bool) : (x.writeP n y).pc = x.pc := by
  unfold Slot.writeP; split <;> rfl
@[simp] theorem Slot.writeP_launch (x : Slot) (n : BitVec 3) (y : Bool) : (x.writeP n y).launch = x.launch := by
  unfold Slot.writeP; split <;> rfl
@[simp] theorem Slot.writeP_handler (x : Slot) (n : BitVec 3) (y : Bool) : (x.writeP n y).handler = x.handler := by
  unfold Slot.writeP; split <;> rfl
@[simp] theorem Slot.writeP_kind (x : Slot) (n : BitVec 3) (y : Bool) : (x.writeP n y).kind = x.kind := by
  unfold Slot.writeP; split <;> rfl
@[simp] theorem Slot.writeP_count (x : Slot) (n : BitVec 3) (y : Bool) : (x.writeP n y).count = x.count := by
  unfold Slot.writeP; split <;> rfl
@[simp] theorem Slot.writeP_depth (x : Slot) (n : BitVec 3) (y : Bool) : (x.writeP n y).depth = x.depth := by
  unfold Slot.writeP; split <;> rfl
@[simp] theorem Slot.writeP_light (x : Slot) (n : BitVec 3) (y : Bool) : (x.writeP n y).light = x.light := by
  unfold Slot.writeP; split <;> rfl
@[simp] theorem Slot.writeP_lightRet (x : Slot) (n : BitVec 3) (y : Bool) : (x.writeP n y).lightRet = x.lightRet := by
  unfold Slot.writeP; split <;> rfl
@[simp] theorem Slot.writeP_inTrap (x : Slot) (n : BitVec 3) (y : Bool) : (x.writeP n y).inTrap = x.inTrap := by
  unfold Slot.writeP; split <;> rfl
@[simp] theorem Slot.writeP_trapCause (x : Slot) (n : BitVec 3) (y : Bool) : (x.writeP n y).trapCause = x.trapCause := by
  unfold Slot.writeP; split <;> rfl
@[simp] theorem Slot.writeP_trapPc (x : Slot) (n : BitVec 3) (y : Bool) : (x.writeP n y).trapPc = x.trapPc := by
  unfold Slot.writeP; split <;> rfl
@[simp] theorem Slot.writeP_trapVal (x : Slot) (n : BitVec 3) (y : Bool) : (x.writeP n y).trapVal = x.trapVal := by
  unfold Slot.writeP; split <;> rfl
@[simp] theorem Slot.writeP_trapAddr (x : Slot) (n : BitVec 3) (y : Bool) : (x.writeP n y).trapAddr = x.trapAddr := by
  unfold Slot.writeP; split <;> rfl
@[simp] theorem Slot.writeP_qblock (x : Slot) (n : BitVec 3) (y : Bool) : (x.writeP n y).qblock = x.qblock := by
  unfold Slot.writeP; split <;> rfl
@[simp] theorem Slot.writeP_meets (x : Slot) (n : BitVec 3) (y : Bool) : (x.writeP n y).meets = x.meets := by
  unfold Slot.writeP; split <;> rfl
@[simp] theorem Slot.writeP_surrSett (x : Slot) (n : BitVec 3) (y : Bool) : (x.writeP n y).surrSett = x.surrSett := by
  unfold Slot.writeP; split <;> rfl
@[simp] theorem Slot.writeP_wake (x : Slot) (n : BitVec 3) (y : Bool) : (x.writeP n y).wake = x.wake := by
  unfold Slot.writeP; split <;> rfl
@[simp] theorem Slot.writeP_task (x : Slot) (n : BitVec 3) (y : Bool) : (x.writeP n y).task = x.task := by
  unfold Slot.writeP; split <;> rfl
@[simp] theorem Slot.writeP_order (x : Slot) (n : BitVec 3) (y : Bool) : (x.writeP n y).order = x.order := by
  unfold Slot.writeP; split <;> rfl
@[simp] theorem Slot.writeP_out4 (x : Slot) (n : BitVec 3) (y : Bool) : (x.writeP n y).out4 = x.out4 := by
  unfold Slot.writeP; split <;> rfl
@[simp] theorem Slot.writeP_out5 (x : Slot) (n : BitVec 3) (y : Bool) : (x.writeP n y).out5 = x.out5 := by
  unfold Slot.writeP; split <;> rfl
@[simp] theorem Slot.writeP_cmd (x : Slot) (n : BitVec 3) (y : Bool) : (x.writeP n y).cmd = x.cmd := by
  unfold Slot.writeP; split <;> rfl
@[simp] theorem Slot.writeP_card (x : Slot) (n : BitVec 3) (y : Bool) : (x.writeP n y).card = x.card := by
  unfold Slot.writeP; split <;> rfl
@[simp] theorem Slot.writeP_cover (x : Slot) (n : BitVec 3) (y : Bool) : (x.writeP n y).cover = x.cover := by
  unfold Slot.writeP; split <;> rfl
@[simp] theorem Slot.writeP_verdict (x : Slot) (n : BitVec 3) (y : Bool) : (x.writeP n y).verdict = x.verdict := by
  unfold Slot.writeP; split <;> rfl
@[simp] theorem Slot.writeP_grain (x : Slot) (n : BitVec 3) (y : Bool) : (x.writeP n y).grain = x.grain := by
  unfold Slot.writeP; split <;> rfl
@[simp] theorem Slot.writeP_journal (x : Slot) (n : BitVec 3) (y : Bool) : (x.writeP n y).journal = x.journal := by
  unfold Slot.writeP; split <;> rfl
@[simp] theorem Slot.writeP_met (x : Slot) (n : BitVec 3) (y : Bool) : (x.writeP n y).met = x.met := by
  unfold Slot.writeP; split <;> rfl
@[simp] theorem Slot.writeP_spilling (x : Slot) (n : BitVec 3) (y : Bool) : (x.writeP n y).spilling = x.spilling := by
  unfold Slot.writeP; split <;> rfl
@[simp] theorem Slot.writeP_fid (x : Slot) (n : BitVec 3) (y : Bool) : (x.writeP n y).fid = x.fid := by
  unfold Slot.writeP; split <;> rfl

@[simp] theorem Slot.writeW_st (x : Slot) (n : BitVec 3) (y : Word) : (x.writeW n y).st = x.st := by
  unfold Slot.writeW; split <;> rfl
@[simp] theorem Slot.writeW_stall (x : Slot) (n : BitVec 3) (y : Word) : (x.writeW n y).stall = x.stall := by
  unfold Slot.writeW; split <;> rfl
@[simp] theorem Slot.writeW_g (x : Slot) (n : BitVec 3) (y : Word) : (x.writeW n y).g = x.g := by
  unfold Slot.writeW; split <;> rfl
@[simp] theorem Slot.writeW_v (x : Slot) (n : BitVec 3) (y : Word) : (x.writeW n y).v = x.v := by
  unfold Slot.writeW; split <;> rfl
@[simp] theorem Slot.writeW_p (x : Slot) (n : BitVec 3) (y : Word) : (x.writeW n y).p = x.p := by
  unfold Slot.writeW; split <;> rfl
@[simp] theorem Slot.writeW_m (x : Slot) (n : BitVec 3) (y : Word) : (x.writeW n y).m = x.m := by
  unfold Slot.writeW; split <;> rfl
@[simp] theorem Slot.writeW_pc (x : Slot) (n : BitVec 3) (y : Word) : (x.writeW n y).pc = x.pc := by
  unfold Slot.writeW; split <;> rfl
@[simp] theorem Slot.writeW_launch (x : Slot) (n : BitVec 3) (y : Word) : (x.writeW n y).launch = x.launch := by
  unfold Slot.writeW; split <;> rfl
@[simp] theorem Slot.writeW_handler (x : Slot) (n : BitVec 3) (y : Word) : (x.writeW n y).handler = x.handler := by
  unfold Slot.writeW; split <;> rfl
@[simp] theorem Slot.writeW_kind (x : Slot) (n : BitVec 3) (y : Word) : (x.writeW n y).kind = x.kind := by
  unfold Slot.writeW; split <;> rfl
@[simp] theorem Slot.writeW_count (x : Slot) (n : BitVec 3) (y : Word) : (x.writeW n y).count = x.count := by
  unfold Slot.writeW; split <;> rfl
@[simp] theorem Slot.writeW_depth (x : Slot) (n : BitVec 3) (y : Word) : (x.writeW n y).depth = x.depth := by
  unfold Slot.writeW; split <;> rfl
@[simp] theorem Slot.writeW_light (x : Slot) (n : BitVec 3) (y : Word) : (x.writeW n y).light = x.light := by
  unfold Slot.writeW; split <;> rfl
@[simp] theorem Slot.writeW_lightRet (x : Slot) (n : BitVec 3) (y : Word) : (x.writeW n y).lightRet = x.lightRet := by
  unfold Slot.writeW; split <;> rfl
@[simp] theorem Slot.writeW_inTrap (x : Slot) (n : BitVec 3) (y : Word) : (x.writeW n y).inTrap = x.inTrap := by
  unfold Slot.writeW; split <;> rfl
@[simp] theorem Slot.writeW_trapCause (x : Slot) (n : BitVec 3) (y : Word) : (x.writeW n y).trapCause = x.trapCause := by
  unfold Slot.writeW; split <;> rfl
@[simp] theorem Slot.writeW_trapPc (x : Slot) (n : BitVec 3) (y : Word) : (x.writeW n y).trapPc = x.trapPc := by
  unfold Slot.writeW; split <;> rfl
@[simp] theorem Slot.writeW_trapVal (x : Slot) (n : BitVec 3) (y : Word) : (x.writeW n y).trapVal = x.trapVal := by
  unfold Slot.writeW; split <;> rfl
@[simp] theorem Slot.writeW_trapAddr (x : Slot) (n : BitVec 3) (y : Word) : (x.writeW n y).trapAddr = x.trapAddr := by
  unfold Slot.writeW; split <;> rfl
@[simp] theorem Slot.writeW_qblock (x : Slot) (n : BitVec 3) (y : Word) : (x.writeW n y).qblock = x.qblock := by
  unfold Slot.writeW; split <;> rfl
@[simp] theorem Slot.writeW_meets (x : Slot) (n : BitVec 3) (y : Word) : (x.writeW n y).meets = x.meets := by
  unfold Slot.writeW; split <;> rfl
@[simp] theorem Slot.writeW_surrSett (x : Slot) (n : BitVec 3) (y : Word) : (x.writeW n y).surrSett = x.surrSett := by
  unfold Slot.writeW; split <;> rfl
@[simp] theorem Slot.writeW_wake (x : Slot) (n : BitVec 3) (y : Word) : (x.writeW n y).wake = x.wake := by
  unfold Slot.writeW; split <;> rfl
@[simp] theorem Slot.writeW_task (x : Slot) (n : BitVec 3) (y : Word) : (x.writeW n y).task = x.task := by
  unfold Slot.writeW; split <;> rfl
@[simp] theorem Slot.writeW_order (x : Slot) (n : BitVec 3) (y : Word) : (x.writeW n y).order = x.order := by
  unfold Slot.writeW; split <;> rfl
@[simp] theorem Slot.writeW_out4 (x : Slot) (n : BitVec 3) (y : Word) : (x.writeW n y).out4 = x.out4 := by
  unfold Slot.writeW; split <;> rfl
@[simp] theorem Slot.writeW_out5 (x : Slot) (n : BitVec 3) (y : Word) : (x.writeW n y).out5 = x.out5 := by
  unfold Slot.writeW; split <;> rfl
@[simp] theorem Slot.writeW_cmd (x : Slot) (n : BitVec 3) (y : Word) : (x.writeW n y).cmd = x.cmd := by
  unfold Slot.writeW; split <;> rfl
@[simp] theorem Slot.writeW_card (x : Slot) (n : BitVec 3) (y : Word) : (x.writeW n y).card = x.card := by
  unfold Slot.writeW; split <;> rfl
@[simp] theorem Slot.writeW_cover (x : Slot) (n : BitVec 3) (y : Word) : (x.writeW n y).cover = x.cover := by
  unfold Slot.writeW; split <;> rfl
@[simp] theorem Slot.writeW_verdict (x : Slot) (n : BitVec 3) (y : Word) : (x.writeW n y).verdict = x.verdict := by
  unfold Slot.writeW; split <;> rfl
@[simp] theorem Slot.writeW_grain (x : Slot) (n : BitVec 3) (y : Word) : (x.writeW n y).grain = x.grain := by
  unfold Slot.writeW; split <;> rfl
@[simp] theorem Slot.writeW_journal (x : Slot) (n : BitVec 3) (y : Word) : (x.writeW n y).journal = x.journal := by
  unfold Slot.writeW; split <;> rfl
@[simp] theorem Slot.writeW_met (x : Slot) (n : BitVec 3) (y : Word) : (x.writeW n y).met = x.met := by
  unfold Slot.writeW; split <;> rfl
@[simp] theorem Slot.writeW_spilling (x : Slot) (n : BitVec 3) (y : Word) : (x.writeW n y).spilling = x.spilling := by
  unfold Slot.writeW; split <;> rfl
@[simp] theorem Slot.writeW_fid (x : Slot) (n : BitVec 3) (y : Word) : (x.writeW n y).fid = x.fid := by
  unfold Slot.writeW; split <;> rfl

@[simp] theorem Slot.writeM_st (x : Slot) (n : BitVec 2) (y : Members) : (x.writeM n y).st = x.st := rfl
@[simp] theorem Slot.writeM_stall (x : Slot) (n : BitVec 2) (y : Members) : (x.writeM n y).stall = x.stall := rfl
@[simp] theorem Slot.writeM_g (x : Slot) (n : BitVec 2) (y : Members) : (x.writeM n y).g = x.g := rfl
@[simp] theorem Slot.writeM_v (x : Slot) (n : BitVec 2) (y : Members) : (x.writeM n y).v = x.v := rfl
@[simp] theorem Slot.writeM_p (x : Slot) (n : BitVec 2) (y : Members) : (x.writeM n y).p = x.p := rfl
@[simp] theorem Slot.writeM_w (x : Slot) (n : BitVec 2) (y : Members) : (x.writeM n y).w = x.w := rfl
@[simp] theorem Slot.writeM_pc (x : Slot) (n : BitVec 2) (y : Members) : (x.writeM n y).pc = x.pc := rfl
@[simp] theorem Slot.writeM_launch (x : Slot) (n : BitVec 2) (y : Members) : (x.writeM n y).launch = x.launch := rfl
@[simp] theorem Slot.writeM_handler (x : Slot) (n : BitVec 2) (y : Members) : (x.writeM n y).handler = x.handler := rfl
@[simp] theorem Slot.writeM_kind (x : Slot) (n : BitVec 2) (y : Members) : (x.writeM n y).kind = x.kind := rfl
@[simp] theorem Slot.writeM_count (x : Slot) (n : BitVec 2) (y : Members) : (x.writeM n y).count = x.count := rfl
@[simp] theorem Slot.writeM_depth (x : Slot) (n : BitVec 2) (y : Members) : (x.writeM n y).depth = x.depth := rfl
@[simp] theorem Slot.writeM_light (x : Slot) (n : BitVec 2) (y : Members) : (x.writeM n y).light = x.light := rfl
@[simp] theorem Slot.writeM_lightRet (x : Slot) (n : BitVec 2) (y : Members) : (x.writeM n y).lightRet = x.lightRet := rfl
@[simp] theorem Slot.writeM_inTrap (x : Slot) (n : BitVec 2) (y : Members) : (x.writeM n y).inTrap = x.inTrap := rfl
@[simp] theorem Slot.writeM_trapCause (x : Slot) (n : BitVec 2) (y : Members) : (x.writeM n y).trapCause = x.trapCause := rfl
@[simp] theorem Slot.writeM_trapPc (x : Slot) (n : BitVec 2) (y : Members) : (x.writeM n y).trapPc = x.trapPc := rfl
@[simp] theorem Slot.writeM_trapVal (x : Slot) (n : BitVec 2) (y : Members) : (x.writeM n y).trapVal = x.trapVal := rfl
@[simp] theorem Slot.writeM_trapAddr (x : Slot) (n : BitVec 2) (y : Members) : (x.writeM n y).trapAddr = x.trapAddr := rfl
@[simp] theorem Slot.writeM_qblock (x : Slot) (n : BitVec 2) (y : Members) : (x.writeM n y).qblock = x.qblock := rfl
@[simp] theorem Slot.writeM_meets (x : Slot) (n : BitVec 2) (y : Members) : (x.writeM n y).meets = x.meets := rfl
@[simp] theorem Slot.writeM_surrSett (x : Slot) (n : BitVec 2) (y : Members) : (x.writeM n y).surrSett = x.surrSett := rfl
@[simp] theorem Slot.writeM_wake (x : Slot) (n : BitVec 2) (y : Members) : (x.writeM n y).wake = x.wake := rfl
@[simp] theorem Slot.writeM_task (x : Slot) (n : BitVec 2) (y : Members) : (x.writeM n y).task = x.task := rfl
@[simp] theorem Slot.writeM_order (x : Slot) (n : BitVec 2) (y : Members) : (x.writeM n y).order = x.order := rfl
@[simp] theorem Slot.writeM_out4 (x : Slot) (n : BitVec 2) (y : Members) : (x.writeM n y).out4 = x.out4 := rfl
@[simp] theorem Slot.writeM_out5 (x : Slot) (n : BitVec 2) (y : Members) : (x.writeM n y).out5 = x.out5 := rfl
@[simp] theorem Slot.writeM_cmd (x : Slot) (n : BitVec 2) (y : Members) : (x.writeM n y).cmd = x.cmd := rfl
@[simp] theorem Slot.writeM_card (x : Slot) (n : BitVec 2) (y : Members) : (x.writeM n y).card = x.card := rfl
@[simp] theorem Slot.writeM_cover (x : Slot) (n : BitVec 2) (y : Members) : (x.writeM n y).cover = x.cover := rfl
@[simp] theorem Slot.writeM_verdict (x : Slot) (n : BitVec 2) (y : Members) : (x.writeM n y).verdict = x.verdict := rfl
@[simp] theorem Slot.writeM_grain (x : Slot) (n : BitVec 2) (y : Members) : (x.writeM n y).grain = x.grain := rfl
@[simp] theorem Slot.writeM_journal (x : Slot) (n : BitVec 2) (y : Members) : (x.writeM n y).journal = x.journal := rfl
@[simp] theorem Slot.writeM_met (x : Slot) (n : BitVec 2) (y : Members) : (x.writeM n y).met = x.met := rfl
@[simp] theorem Slot.writeM_spilling (x : Slot) (n : BitVec 2) (y : Members) : (x.writeM n y).spilling = x.spilling := rfl
@[simp] theorem Slot.writeM_fid (x : Slot) (n : BitVec 2) (y : Members) : (x.writeM n y).fid = x.fid := rfl

end Sys2Proof.Machine
end

