-- ==== Sys2Proof/Laws/Tab.lean ====
section
/-! SUPPORT. What a write to a sparse table does to its reads, and sets of full words. -/

namespace Sys2Proof.Machine

variable {α : Type}

theorem Tab.find_cons (k : Nat) (v : α) (r : Tab α) (i : Nat) : Tab.find ((k, v) :: r) i = if k = i then some v else Tab.find r i := rfl

theorem Tab.find_set (t : Tab α) (j i : Nat) (x : α) : Tab.find (Tab.set t j x) i = if i = j then some x else Tab.find t i := by
  have put : ∀ r : Tab α, Tab.find ((j, x) :: r) i = if i = j then some x else Tab.find r i := by
    intro r
    by_cases h : i = j
    · simp [Tab.find, h]
    · simp [Tab.find, h, Ne.symm h]
  induction t with
  | nil => exact put []
  | cons e r ih =>
    obtain ⟨k, v⟩ := e
    simp only [Tab.set]
    split
    · subst k
      rw [put, Tab.find_cons]
      by_cases h : i = j
      · simp [h]
      · simp [h, Ne.symm h]
    · split
      · exact put _
      · rw [Tab.find_cons, ih, Tab.find_cons]
        by_cases h : i = j
        · subst h; simp [*]
        · simp [h]

@[simp] theorem Tab.find_set_self (t : Tab α) (j : Nat) (x : α) : Tab.find (Tab.set t j x) j = some x := by simp [Tab.find_set]
theorem Tab.find_set_ne (t : Tab α) {i j : Nat} (x : α) (h : i ≠ j) : Tab.find (Tab.set t j x) i = Tab.find t i := by
  simp [Tab.find_set, h]

theorem Tab.get_set (d : α) (t : Tab α) (j i : Nat) (x : α) : Tab.get d (Tab.set t j x) i = if i = j then x else Tab.get d t i := by
  by_cases h : i = j <;> simp [Tab.get, Tab.find_set, h]
@[simp] theorem Tab.get_set_self (d : α) (t : Tab α) (j : Nat) (x : α) : Tab.get d (Tab.set t j x) j = x := by simp [Tab.get_set]
theorem Tab.get_set_ne (d : α) (t : Tab α) {i j : Nat} (x : α) (h : i ≠ j) : Tab.get d (Tab.set t j x) i = Tab.get d t i := by
  simp [Tab.get_set, h]

@[simp] theorem Tab.set_set (t : Tab α) (j : Nat) (x y : α) : Tab.set (Tab.set t j x) j y = Tab.set t j y := by
  induction t with
  | nil => simp [Tab.set]
  | cons e r ih =>
    obtain ⟨k, v⟩ := e
    simp only [Tab.set]
    split
    · simp [Tab.set]
    · split
      · simp [Tab.set]
      · simp [Tab.set, *]

theorem Full.mem_add (l : List Nat) (a b : Nat) : b ∈ Full.add l a ↔ b = a ∨ b ∈ l := by
  induction l with
  | nil => simp [Full.add]
  | cons k r ih =>
    simp only [Full.add]
    split
    · subst k; simp
    · split
      · simp
      · simp only [List.mem_cons, ih, or_left_comm]

/-- Setting or clearing a bit decides that bit and no other. -/
theorem Full.mem_put (l : List Nat) (a b : Nat) (x : Bool) : b ∈ Full.put l a x ↔ if b = a then x = true else b ∈ l := by
  cases x <;> by_cases h : b = a <;> simp [Full.put, Full.mem_add, h]

end Sys2Proof.Machine
end

