-- ==== Sys2Proof/Laws/Issue.lean ====
section
/-! SUPPORT. Reads of cores, slots and clusters after their writes; what issuing an instruction can do; and what retiring, stalling and
taking a fault leave. -/

namespace Sys2Proof.Machine

/-! ### Cores, slots, clusters, launches -/

@[simp] theorem State.core_setCore (s : State) (c : Nat) (k : Core) : (s.setCore c k).core c = k := by simp [State.core]
theorem State.core_setCore_ne (s : State) {c d : Nat} (k : Core) (h : d ≠ c) : (s.setCore c k).core d = s.core d := by
  simp [State.core, Tab.get_set_ne, h]
@[simp] theorem State.setCore_setCore (s : State) (c : Nat) (k j : Core) : (s.setCore c k).setCore c j = s.setCore c j := by
  simp [State.setCore]
@[simp] theorem Core.slot_setSlot (k : Core) (n : Nat) (x : Slot) : (k.setSlot n x).slot n = x := by simp [Core.slot]
theorem Core.slot_setSlot_ne (k : Core) {n m : Nat} (x : Slot) (h : m ≠ n) : (k.setSlot n x).slot m = k.slot m := by
  simp [Core.slot, Tab.get_set_ne, h]
@[simp] theorem Core.setSlot_setSlot (k : Core) (n : Nat) (x y : Slot) : (k.setSlot n x).setSlot n y = k.setSlot n y := by
  simp [Core.setSlot]
@[simp] theorem State.cluster_setCluster (s : State) (c : Nat) (k : Cluster) : (s.setCluster c k).cluster c = k := by simp [State.cluster]
theorem State.cluster_setCluster_ne (s : State) {c d : Nat} (k : Cluster) (h : d ≠ c) : (s.setCluster c k).cluster d = s.cluster d := by
  simp [State.cluster, Tab.get_set_ne, h]
@[simp] theorem State.launch?_setLaunch (s : State) (l : Nat) (x : Launch) : (s.setLaunch l x).launch? l = some x := by simp [State.launch?]
theorem State.launch?_setLaunch_ne (s : State) {l m : Nat} (x : Launch) (h : m ≠ l) : (s.setLaunch l x).launch? m = s.launch? m := by
  simp [State.launch?, Tab.find_set_ne, h]

@[simp] theorem State.here_setHere (s : State) (k : Core) : (s.setHere k).here = k := by simp [State.here, State.setHere]
@[simp] theorem State.cur_setHere (s : State) (k : Core) : (s.setHere k).cur = s.cur := rfl
@[simp] theorem State.curSlot_setHere (s : State) (k : Core) : (s.setHere k).curSlot = s.curSlot := rfl
@[simp] theorem State.me_setMe (s : State) (x : Slot) : (s.setMe x).me = x := by simp [State.me, State.setMe, State.setSlot, State.slot]
@[simp] theorem State.me_setHere (s : State) (k : Core) : (s.setHere k).me = k.slot s.curSlot := by
  simp [State.me, State.slot, State.setHere]
@[simp] theorem State.here_setMe (s : State) (x : Slot) : (s.setMe x).here = s.here.setSlot s.curSlot x := by
  simp [State.here, State.setMe, State.setSlot]
theorem State.setMe_eq (s : State) (x : Slot) : s.setMe x = s.setHere (s.here.setSlot s.curSlot x) := rfl
theorem State.me_eq (s : State) : s.me = s.here.slot s.curSlot := rfl

/-! ### Issue -/

/-- An instruction that passes its checks and its guard does what its body answers. -/
theorem State.issue_run (s : State) (op : Nat) (f : Fields) (body : State → Res After) (h : s.preCheck op f = none) (g : s.me.guard f = true)
    (q : s.pushBlocked op f = none) : s.issue op f body = .next (s.settle (body s)) := by simp [State.issue, h, g, q]
/-- Where its destination is a port that is full, it stalls. -/
theorem State.issue_blocked (s : State) (op : Nat) (f : Fields) (body : State → Res After) {w : Stall} (h : s.preCheck op f = none)
    (g : s.me.guard f = true) (q : s.pushBlocked op f = some w) : s.issue op f body = .next (s.stallMe w) := by simp [State.issue, h, g, q]
/-- A failed check is an exact fault. -/
theorem State.issue_fault (s : State) (op : Nat) (f : Fields) (body : State → Res After) {c : Nat} {v a : Word} (h : s.preCheck op f = some (c, v, a)) :
    s.issue op f body = .next (s.takeExact c v a) := by simp [State.issue, h]
/-- A guard that does not hold annuls the instruction. -/
theorem State.issue_annul (s : State) (op : Nat) (f : Fields) (body : State → Res After) (h : s.preCheck op f = none) (g : s.me.guard f = false) :
    s.issue op f body = .next (s.setHere (s.here.bump 0x0D 1)).retire := by simp [State.issue, h, g]

/-! ### Counters -/

@[simp] theorem Core.bump_slots (k : Core) (e n : Nat) : (k.bump e n).slots = k.slots := rfl
@[simp] theorem Core.bump_slot (k : Core) (e n m : Nat) : (k.bump e n).slot m = k.slot m := rfl
@[simp] theorem Core.issued_slots (k : Core) : k.issued.slots = k.slots := rfl
@[simp] theorem Core.issued_slot (k : Core) (m : Nat) : k.issued.slot m = k.slot m := rfl
/-- Counting changes counters only. -/
theorem Core.bump_eq (k : Core) (e n : Nat) : k.bump e n = { k with perf := (k.bump e n).perf } := rfl
theorem Core.issued_eq (k : Core) : k.issued = { k with perf := k.issued.perf } := rfl

/-! ### Retiring -/

/-- Retiring moves the pc and counts, and changes no other part of the issuing slot. -/
@[simp] theorem State.me_retireTo (s : State) (pc : Word) : (s.retireTo pc).me = { s.me with pc := pc, count := s.me.count + 1, met := none, spilling := false } := by
  simp [State.retireTo, State.me_eq]
@[simp] theorem State.me_retire (s : State) : s.retire.me = { s.me with pc := s.me.pc + 12, count := s.me.count + 1, met := none, spilling := false } := by
  simp [State.retire]
theorem State.retireTo_rest (s : State) (pc : Word) : s.retireTo pc = { s with cores := (s.retireTo pc).cores } := rfl
theorem State.retireTo_core (s : State) (pc : Word) {c : Nat} (h : c ≠ s.cur) : (s.retireTo pc).core c = s.core c :=
  State.core_setCore_ne s _ h
theorem State.retireTo_here (s : State) (pc : Word) :
    (s.retireTo pc).here = { s.here with slots := (s.retireTo pc).here.slots, perf := (s.retireTo pc).here.perf } := by
  unfold State.retireTo
  rw [State.here_setHere]
  generalize s.here = k
  rfl
theorem State.retireTo_slot (s : State) (pc : Word) {n : Nat} (h : n ≠ s.curSlot) : (s.retireTo pc).slot s.cur n = s.slot s.cur n := by
  simp [State.retireTo, State.slot, State.setHere, Core.slot_setSlot_ne, h, State.here]

/-! ### What a body answers -/

@[simp] theorem State.settle_seq (s s' : State) : s.settle (.ok (.seq s')) = s'.retire := rfl
@[simp] theorem State.settle_goto (s s' : State) (pc : Word) : s.settle (.ok (.goto s' pc)) = s'.retireTo pc := rfl
@[simp] theorem State.settle_gone (s s' : State) : s.settle (.ok (.gone s')) = s' := rfl
@[simp] theorem State.settle_trap (s : State) (c : Nat) (v a : Word) : s.settle (.error (.trap c v a)) = s.takeExact c v a := rfl
@[simp] theorem State.settle_stall (s : State) (w : Stall) : s.settle (.error (.stall w)) = s.stallMe w := rfl

/-! ### Registers -/

@[simp] theorem Slot.readG_zero (x : Slot) : x.readG 0 = 0 := rfl
@[simp] theorem Slot.writeG_zero (x : Slot) (y : Word) : x.writeG 0 y = x := rfl
@[simp] theorem Slot.readP_zero (x : Slot) : x.readP 0 = true := rfl
@[simp] theorem Slot.readW_zero (x : Slot) : x.readW 0 = BitVec.allOnes 64 := rfl
theorem Slot.readG_writeG (x : Slot) (n m : BitVec 5) (y : Word) (h : n ≠ 0) : (x.writeG n y).readG m = if m = n then y else x.readG m := by
  unfold Slot.readG Slot.writeG
  rw [if_neg h]
  by_cases hm : m = n
  · subst hm; rw [if_neg h, if_pos rfl]; simp
  · rw [if_neg hm]
    split
    · rfl
    · have : n.toNat ≠ m.toNat := fun e => hm (BitVec.eq_of_toNat_eq e.symm)
      simp [Vector.getElem_set_ne, this]
theorem Slot.readV_writeV (x : Slot) (n m : BitVec 5) (y : Line) : (x.writeV n y).readV m = if m = n then y else x.readV m := by
  unfold Slot.readV Slot.writeV
  by_cases hm : m = n
  · subst hm; rw [if_pos rfl]; simp
  · rw [if_neg hm]
    have : n.toNat ≠ m.toNat := fun e => hm (BitVec.eq_of_toNat_eq e.symm)
    simp [Vector.getElem_set_ne, this]

/-! ### Operands -/

@[simp] theorem State.src_g (s : State) (n : BitVec 5) : s.src (.g n) = .ok (s.me.readG n, s) := rfl
@[simp] theorem State.src_imm (s : State) (x : BitVec 17) : s.src (.imm x) = .ok (x.signExtend 64, s) := rfl
@[simp] theorem State.src_none (s : State) : s.src .none = .ok (0, s) := rfl
@[simp] theorem State.src_port (s : State) (n : BitVec 3) : s.src (.port n) = s.pop n.toNat := rfl
@[simp] theorem State.dst_g (s : State) (n : BitVec 5) (x : Word) : s.dst (.g n) x = .ok (s.setMe (s.me.writeG n x)) := rfl
@[simp] theorem State.dst_port (s : State) (n : BitVec 3) (x : Word) : s.dst (.port n) x = s.push n.toNat x := rfl

end Sys2Proof.Machine
end

