-- ==== Sys2Proof/Laws/Mem.lean ====
section
/-! SUPPORT. Memory: what a write does to every read, and that each operation keeps the canonical form. -/

namespace Sys2Proof.Machine

/-! ### Reads -/

theorem Mem.read_cons (k : Nat) (b : Byte) (r : Mem) (a : Nat) : Mem.read ((k, b) :: r) a = if k = a then b else Mem.read r a := rfl

theorem Mem.read_filter_ne (m : Mem) (a i : Nat) : Mem.read (m.filter (fun c => c.1 != a)) i = if i = a then 0 else Mem.read m i := by
  induction m with
  | nil => simp [Mem.read]
  | cons c r ih =>
    obtain ⟨k, b⟩ := c
    by_cases hk : k = a
    · subst hk
      simp only [List.filter_cons, bne_self_eq_false, Bool.false_eq_true, if_false, ih, Mem.read_cons]
      by_cases h : i = k
      · simp [h]
      · simp [h, Ne.symm h]
    · have : (k != a) = true := by simp [hk]
      simp only [List.filter_cons, this, if_true, Mem.read_cons, ih]
      by_cases h : k = i
      · subst h; simp [hk]
      · simp [h]

theorem Mem.read_insert (m : Mem) (a i : Nat) (x : Byte) (h : Mem.read m a = 0) (hm : ∀ c ∈ m, c.1 ≠ a) :
    Mem.read (Mem.insert m a x) i = if i = a then x else Mem.read m i := by
  induction m with
  | nil =>
    by_cases hi : i = a
    · simp [Mem.insert, Mem.read, hi]
    · simp [Mem.insert, Mem.read, hi, Ne.symm hi]
  | cons c r ih =>
    obtain ⟨k, b⟩ := c
    have hk : k ≠ a := hm (k, b) (by simp)
    simp only [Mem.insert]
    split
    · rw [Mem.read_cons]
      by_cases hi : i = a
      · simp [hi]
      · simp [hi, Ne.symm hi]
    · have hr : Mem.read r a = 0 := by simpa [Mem.read_cons, hk] using h
      simp only [Mem.read_cons, ih hr (fun c hc => hm c (by simp [hc]))]
      by_cases hi : k = i
      · subst hi; simp [hk]
      · simp [hi]

/-- A write decides its own byte and no other. -/
theorem Mem.read_write (m : Mem) (a i : Nat) (x : Byte) : Mem.read (Mem.write m a x) i = if i = a then x else Mem.read m i := by
  unfold Mem.write
  simp only
  split
  · subst x; exact Mem.read_filter_ne m a i
  · rw [Mem.read_insert _ _ _ _ (by simp [Mem.read_filter_ne]) (by intro c hc; simpa using (List.mem_filter.1 hc).2)]
    by_cases h : i = a <;> simp [h, Mem.read_filter_ne]

@[simp] theorem Mem.read_write_self (m : Mem) (a : Nat) (x : Byte) : Mem.read (Mem.write m a x) a = x := by simp [Mem.read_write]
theorem Mem.read_write_ne (m : Mem) {a i : Nat} (x : Byte) (h : i ≠ a) : Mem.read (Mem.write m a x) i = Mem.read m i := by
  simp [Mem.read_write, h]

/-- n written bytes decide themselves and no others. -/
theorem Mem.read_writeN (m : Mem) (a n x i : Nat) :
    Mem.read (Mem.writeN m a n x) i = if a ≤ i ∧ i < a + n then BitVec.ofNat 8 (x / 256 ^ (i - a)) else Mem.read m i := by
  induction n generalizing m a x with
  | zero => rw [Mem.writeN, if_neg (by omega)]
  | succ n ih =>
    simp only [Mem.writeN, ih, Mem.read_write]
    by_cases h : i = a
    · subst h; rw [if_neg (by omega), if_pos rfl, if_pos (by omega)]; simp
    · by_cases h2 : a + 1 ≤ i ∧ i < a + 1 + n
      · have : i - a = (i - (a + 1)) + 1 := by omega
        rw [if_pos h2, if_pos (by omega), this, Nat.pow_succ, Nat.div_div_eq_div_mul, Nat.mul_comm]
      · rw [if_neg h2, if_neg h, if_neg (by omega)]

theorem Mem.read_writeN_out (m : Mem) (a n x i : Nat) (h : i < a ∨ a + n ≤ i) : Mem.read (Mem.writeN m a n x) i = Mem.read m i := by
  rw [Mem.read_writeN, if_neg (by omega)]

/-- A written number reads back. -/
theorem Mem.readN_writeN (m : Mem) (a n x : Nat) : Mem.readN (Mem.writeN m a n x) a n = x % 256 ^ n := by
  have key : ∀ (k b : Nat) (m' : Mem) (y : Nat), (∀ j, j < k → Mem.read m' (b + j) = BitVec.ofNat 8 (y / 256 ^ j)) → Mem.readN m' b k = y % 256 ^ k := by
    intro k
    induction k with
    | zero => intros; simp [Mem.readN, Nat.mod_one]
    | succ k ih =>
      intro b m' y h
      rw [Mem.readN, ih (b + 1) m' (y / 256) (fun j hj => by
        have := h (j + 1) (by omega)
        rw [show b + 1 + j = b + (j + 1) by omega, this, Nat.pow_succ, Nat.div_div_eq_div_mul, Nat.mul_comm]),
        show Mem.read m' b = BitVec.ofNat 8 (y / 256 ^ 0) from h 0 (by omega), Nat.pow_succ, Nat.mul_comm (256 ^ k) 256, Nat.mod_mul]
      simp
  refine key n a _ x (fun j hj => ?_)
  rw [Mem.read_writeN, if_pos (by omega)]
  congr 2
  simp

theorem Mem.readN_congr (m m' : Mem) (a n : Nat) (h : ∀ i, a ≤ i → i < a + n → Mem.read m i = Mem.read m' i) : Mem.readN m a n = Mem.readN m' a n := by
  induction n generalizing a with
  | zero => rfl
  | succ n ih => simp only [Mem.readN]; rw [h a (by omega) (by omega), ih (a + 1) (fun i h1 h2 => h i (by omega) (by omega))]

/-- A stored word loads back. -/
theorem Mem.word_writeN (m : Mem) (a : Nat) (x : Word) : Mem.word (Mem.writeN m a 8 x.toNat) a = x := by
  have h : x.toNat % 256 ^ 8 = x.toNat := Nat.mod_eq_of_lt (by simpa using x.isLt)
  rw [Mem.word, Mem.readN_writeN, h, BitVec.ofNat_toNat, BitVec.setWidth_eq]

/-! ### The canonical form -/

theorem Mem.wf_nil : Mem.wf [] := ⟨List.Pairwise.nil, by simp⟩

theorem Mem.wf_filter {m : Mem} (p : Host.Cell → Bool) (h : m.wf) : Mem.wf (m.filter p) :=
  ⟨h.1.filter p, fun c hc => h.2 c (List.mem_filter.1 hc).1⟩

theorem Mem.mem_insert (m : Mem) (a : Nat) (x : Byte) (c : Host.Cell) (h : c ∈ Mem.insert m a x) : c = (a, x) ∨ c ∈ m := by
  induction m with
  | nil => simpa [Mem.insert] using h
  | cons d r ih =>
    obtain ⟨k, b⟩ := d
    simp only [Mem.insert] at h
    split at h
    · simpa using h
    · rcases List.mem_cons.1 h with rfl | h
      · simp
      · rcases ih h with h | h <;> simp [h]

theorem Mem.wf_insert {m : Mem} (a : Nat) (x : Byte) (hx : x ≠ 0) (hm : ∀ c ∈ m, c.1 ≠ a) (h : m.wf) : Mem.wf (Mem.insert m a x) := by
  refine ⟨?_, fun c hc => ?_⟩
  · induction m with
    | nil => simp [Mem.insert]
    | cons d r ih =>
      obtain ⟨k, b⟩ := d
      have hp := List.pairwise_cons.1 h.1
      have hk : k ≠ a := hm (k, b) (by simp)
      simp only [Mem.insert]
      split
      · refine List.pairwise_cons.2 ⟨fun c hc => ?_, h.1⟩
        rcases List.mem_cons.1 hc with rfl | hc
        · assumption
        · have := hp.1 c hc; simp only at *; omega
      · refine List.pairwise_cons.2 ⟨fun c hc => ?_, ih (fun c hc => hm c (by simp [hc])) ⟨hp.2, fun c hc => h.2 c (by simp [hc])⟩⟩
        rcases Mem.mem_insert r a x c hc with rfl | hc
        · simp only at *; omega
        · exact hp.1 c hc
  · rcases Mem.mem_insert m a x c hc with rfl | hc
    · exact hx
    · exact h.2 c hc

theorem Mem.wf_write {m : Mem} (a : Nat) (x : Byte) (h : m.wf) : Mem.wf (Mem.write m a x) := by
  unfold Mem.write
  simp only
  split
  · exact Mem.wf_filter _ h
  · exact Mem.wf_insert a x ‹_› (by intro c hc; simpa using (List.mem_filter.1 hc).2) (Mem.wf_filter _ h)

theorem Mem.wf_writeN {m : Mem} (a n x : Nat) (h : m.wf) : Mem.wf (Mem.writeN m a n x) := by
  induction n generalizing m a x with
  | zero => exact h
  | succ n ih => exact ih (a + 1) (x / 256) (Mem.wf_write a _ h)

theorem Mem.wf_zero {m : Mem} (a n : Nat) (h : m.wf) : Mem.wf (Mem.zero m a n) := Mem.wf_filter _ h

theorem Mem.wf_foldl {β : Type} {m : Mem} (f : Mem → β → Mem) (l : List β) (hf : ∀ m b, Mem.wf m → Mem.wf (f m b)) (h : m.wf) :
    Mem.wf (l.foldl f m) := by
  induction l generalizing m with
  | nil => exact h
  | cons b l ih => exact ih (hf m b h)

theorem Mem.wf_overlay {m : Mem} (x : Mem) (h : m.wf) : Mem.wf (Mem.overlay m x) := Mem.wf_foldl _ x (fun _ _ h => Mem.wf_write _ _ h) h
theorem Mem.wf_moved (m : Mem) (a n : Nat) (f : Nat → Nat) : Mem.wf (Mem.moved m a n f) :=
  Mem.wf_foldl _ _ (fun _ _ h => Mem.wf_write _ _ h) Mem.wf_nil

end Sys2Proof.Machine
end

