-- ==== Sys2Proof/Laws/PerInstr.lean ====
section
/-! SUPPORT. Per-instruction facts: the opcode of an instruction's word leads the decoder back to the instruction. -/

namespace Sys2Proof.Laws.Encoding

/-- The opcode and fields of an encodable instruction's word decode to that instruction (R171, R180). -/
def Statement (i : Instr) : Prop := i.encodable = true → ∀ op f, i.word? = some (op, f) → instrOf op f = i

/-- A reserved opcode has no forms, and the decoder maps it to no instruction (R183 check 1). -/
theorem reserved (op : BitVec 8) (f : Fields) (h : (formsOf op.toNat).isEmpty = true) : instrOf op f = .illegalInstruction (.reserved op f) := by
  unfold instrOf
  have hl := op.isLt
  generalize op.toNat = n at h hl
  interval_cases n
  all_goals first | rfl | exact absurd h (by decide)

theorem nop (f : Fields) : Statement (.nop f) := fun _ _ _ e => by cases e; rfl
theorem bra (f : Fields) : Statement (.bra f) := fun _ _ _ e => by cases e; rfl
theorem jmp (f : Fields) : Statement (.jmp f) := fun _ _ _ e => by cases e; rfl
theorem call (f : Fields) : Statement (.call f) := fun _ _ _ e => by cases e; rfl
theorem ret (f : Fields) : Statement (.ret f) := fun _ _ _ e => by cases e; rfl
theorem loop (f : Fields) : Statement (.loop f) := fun _ _ _ e => by cases e; rfl
theorem endFiring (f : Fields) : Statement (.endFiring f) := fun _ _ _ e => by cases e; rfl
theorem yield (f : Fields) : Statement (.yield f) := fun _ _ _ e => by cases e; rfl
theorem jtab (f : Fields) : Statement (.jtab f) := fun _ _ _ e => by cases e; rfl
theorem trap (f : Fields) : Statement (.trap f) := fun _ _ _ e => by cases e; rfl
theorem waitb (f : Fields) : Statement (.waitb f) := fun _ _ _ e => by cases e; rfl
theorem waitc (f : Fields) : Statement (.waitc f) := fun _ _ _ e => by cases e; rfl
theorem brk (f : Fields) : Statement (.brk f) := fun _ _ _ e => by cases e; rfl
theorem sleep (f : Fields) : Statement (.sleep f) := fun _ _ _ e => by cases e; rfl
theorem add (f : Fields) : Statement (.add f) := fun _ _ _ e => by cases e; rfl
theorem sub (f : Fields) : Statement (.sub f) := fun _ _ _ e => by cases e; rfl
theorem mul (f : Fields) : Statement (.mul f) := fun _ _ _ e => by cases e; rfl
theorem mulh (f : Fields) : Statement (.mulh f) := fun _ _ _ e => by cases e; rfl
theorem mad (f : Fields) : Statement (.mad f) := fun _ _ _ e => by cases e; rfl
theorem div (f : Fields) : Statement (.div f) := fun _ _ _ e => by cases e; rfl
theorem rem (f : Fields) : Statement (.rem f) := fun _ _ _ e => by cases e; rfl
theorem abs (f : Fields) : Statement (.abs f) := fun _ _ _ e => by cases e; rfl
theorem min (f : Fields) : Statement (.min f) := fun _ _ _ e => by cases e; rfl
theorem max (f : Fields) : Statement (.max f) := fun _ _ _ e => by cases e; rfl
theorem adds (f : Fields) : Statement (.adds f) := fun _ _ _ e => by cases e; rfl
theorem subs (f : Fields) : Statement (.subs f) := fun _ _ _ e => by cases e; rfl
theorem avg (f : Fields) : Statement (.avg f) := fun _ _ _ e => by cases e; rfl
theorem sad (f : Fields) : Statement (.sad f) := fun _ _ _ e => by cases e; rfl
theorem clamp (f : Fields) : Statement (.clamp f) := fun _ _ _ e => by cases e; rfl
theorem and (f : Fields) : Statement (.and f) := fun _ _ _ e => by cases e; rfl
theorem or (f : Fields) : Statement (.or f) := fun _ _ _ e => by cases e; rfl
theorem xor (f : Fields) : Statement (.xor f) := fun _ _ _ e => by cases e; rfl
theorem andn (f : Fields) : Statement (.andn f) := fun _ _ _ e => by cases e; rfl
theorem shl (f : Fields) : Statement (.shl f) := fun _ _ _ e => by cases e; rfl
theorem shr (f : Fields) : Statement (.shr f) := fun _ _ _ e => by cases e; rfl
theorem sar (f : Fields) : Statement (.sar f) := fun _ _ _ e => by cases e; rfl
theorem rol (f : Fields) : Statement (.rol f) := fun _ _ _ e => by cases e; rfl
theorem clz (f : Fields) : Statement (.clz f) := fun _ _ _ e => by cases e; rfl
theorem popc (f : Fields) : Statement (.popc f) := fun _ _ _ e => by cases e; rfl
theorem brev (f : Fields) : Statement (.brev f) := fun _ _ _ e => by cases e; rfl
theorem ext (f : Fields) : Statement (.ext f) := fun _ _ _ e => by cases e; rfl
theorem ins (f : Fields) : Statement (.ins f) := fun _ _ _ e => by cases e; rfl
theorem hash (f : Fields) : Statement (.hash f) := fun _ _ _ e => by cases e; rfl
theorem mix (f : Fields) : Statement (.mix f) := fun _ _ _ e => by cases e; rfl
theorem mov (f : Fields) : Statement (.mov f) := fun _ _ _ e => by cases e; rfl
theorem movh (f : Fields) : Statement (.movh f) := fun _ _ _ e => by cases e; rfl
theorem sel (f : Fields) : Statement (.sel f) := fun _ _ _ e => by cases e; rfl
theorem cmp (f : Fields) : Statement (.cmp f) := fun _ _ _ e => by cases e; rfl
theorem pand (f : Fields) : Statement (.pand f) := fun _ _ _ e => by cases e; rfl
theorem por (f : Fields) : Statement (.por f) := fun _ _ _ e => by cases e; rfl
theorem pxor (f : Fields) : Statement (.pxor f) := fun _ _ _ e => by cases e; rfl
theorem lea (f : Fields) : Statement (.lea f) := fun _ _ _ e => by cases e; rfl
theorem movs (f : Fields) : Statement (.movs f) := fun _ _ _ e => by cases e; rfl
theorem movw (f : Fields) : Statement (.movw f) := fun _ _ _ e => by cases e; rfl
theorem iota (f : Fields) : Statement (.iota f) := fun _ _ _ e => by cases e; rfl
theorem bcast (f : Fields) : Statement (.bcast f) := fun _ _ _ e => by cases e; rfl
theorem extl (f : Fields) : Statement (.extl f) := fun _ _ _ e => by cases e; rfl
theorem insl (f : Fields) : Statement (.insl f) := fun _ _ _ e => by cases e; rfl
theorem cmpv (f : Fields) : Statement (.cmpv f) := fun _ _ _ e => by cases e; rfl
theorem fadd (f : Fields) : Statement (.fadd f) := fun _ _ _ e => by cases e; rfl
theorem fsub (f : Fields) : Statement (.fsub f) := fun _ _ _ e => by cases e; rfl
theorem fmul (f : Fields) : Statement (.fmul f) := fun _ _ _ e => by cases e; rfl
theorem fma (f : Fields) : Statement (.fma f) := fun _ _ _ e => by cases e; rfl
theorem fms (f : Fields) : Statement (.fms f) := fun _ _ _ e => by cases e; rfl
theorem fnma (f : Fields) : Statement (.fnma f) := fun _ _ _ e => by cases e; rfl
theorem fmin (f : Fields) : Statement (.fmin f) := fun _ _ _ e => by cases e; rfl
theorem fmax (f : Fields) : Statement (.fmax f) := fun _ _ _ e => by cases e; rfl
theorem fabs (f : Fields) : Statement (.fabs f) := fun _ _ _ e => by cases e; rfl
theorem fneg (f : Fields) : Statement (.fneg f) := fun _ _ _ e => by cases e; rfl
theorem fcmp (f : Fields) : Statement (.fcmp f) := fun _ _ _ e => by cases e; rfl
theorem fclass (f : Fields) : Statement (.fclass f) := fun _ _ _ e => by cases e; rfl
theorem fdiv (f : Fields) : Statement (.fdiv f) := fun _ _ _ e => by cases e; rfl
theorem fsqrt (f : Fields) : Statement (.fsqrt f) := fun _ _ _ e => by cases e; rfl
theorem frcp (f : Fields) : Statement (.frcp f) := fun _ _ _ e => by cases e; rfl
theorem frsq (f : Fields) : Statement (.frsq f) := fun _ _ _ e => by cases e; rfl
theorem fexp2 (f : Fields) : Statement (.fexp2 f) := fun _ _ _ e => by cases e; rfl
theorem flog2 (f : Fields) : Statement (.flog2 f) := fun _ _ _ e => by cases e; rfl
theorem ftanh (f : Fields) : Statement (.ftanh f) := fun _ _ _ e => by cases e; rfl
theorem fscale (f : Fields) : Statement (.fscale f) := fun _ _ _ e => by cases e; rfl
theorem fcvt (f : Fields) : Statement (.fcvt f) := fun _ _ _ e => by cases e; rfl
theorem ftoi (f : Fields) : Statement (.ftoi f) := fun _ _ _ e => by cases e; rfl
theorem itof (f : Fields) : Statement (.itof f) := fun _ _ _ e => by cases e; rfl
theorem frnd (f : Fields) : Statement (.frnd f) := fun _ _ _ e => by cases e; rfl
theorem fdot (f : Fields) : Statement (.fdot f) := fun _ _ _ e => by cases e; rfl
theorem qnt (f : Fields) : Statement (.qnt f) := fun _ _ _ e => by cases e; rfl
theorem dqnt (f : Fields) : Statement (.dqnt f) := fun _ _ _ e => by cases e; rfl
theorem plsplit (f : Fields) : Statement (.plsplit f) := fun _ _ _ e => by cases e; rfl
theorem pljoin (f : Fields) : Statement (.pljoin f) := fun _ _ _ e => by cases e; rfl
theorem vshuf (f : Fields) : Statement (.vshuf f) := fun _ _ _ e => by cases e; rfl
theorem vperm2 (f : Fields) : Statement (.vperm2 f) := fun _ _ _ e => by cases e; rfl
theorem vrot (f : Fields) : Statement (.vrot f) := fun _ _ _ e => by cases e; rfl
theorem vzip (f : Fields) : Statement (.vzip f) := fun _ _ _ e => by cases e; rfl
theorem vunzip (f : Fields) : Statement (.vunzip f) := fun _ _ _ e => by cases e; rfl
theorem vcomp (f : Fields) : Statement (.vcomp f) := fun _ _ _ e => by cases e; rfl
theorem vexp (f : Fields) : Statement (.vexp f) := fun _ _ _ e => by cases e; rfl
theorem vred (f : Fields) : Statement (.vred f) := fun _ _ _ e => by cases e; rfl
theorem vscan (f : Fields) : Statement (.vscan f) := fun _ _ _ e => by cases e; rfl
theorem vtopk (f : Fields) : Statement (.vtopk f) := fun _ _ _ e => by cases e; rfl
theorem vsort (f : Fields) : Statement (.vsort f) := fun _ _ _ e => by cases e; rfl
theorem vdist (f : Fields) : Statement (.vdist f) := fun _ _ _ e => by cases e; rfl
theorem vmatch (f : Fields) : Statement (.vmatch f) := fun _ _ _ e => by cases e; rfl
theorem vseg (f : Fields) : Statement (.vseg f) := fun _ _ _ e => by cases e; rfl
theorem mset (f : Fields) : Statement (.mset f) := fun _ _ _ e => by cases e; rfl
theorem mand (f : Fields) : Statement (.mand f) := fun _ _ _ e => by cases e; rfl
theorem mor (f : Fields) : Statement (.mor f) := fun _ _ _ e => by cases e; rfl
theorem mandn (f : Fields) : Statement (.mandn f) := fun _ _ _ e => by cases e; rfl
theorem mcnt (f : Fields) : Statement (.mcnt f) := fun _ _ _ e => by cases e; rfl
theorem mfind (f : Fields) : Statement (.mfind f) := fun _ _ _ e => by cases e; rfl
theorem msplit (f : Fields) : Statement (.msplit f) := fun _ _ _ e => by cases e; rfl
theorem mpred (f : Fields) : Statement (.mpred f) := fun _ _ _ e => by cases e; rfl
theorem qld (f : Fields) : Statement (.qld f) := fun _ _ _ e => by cases e; rfl
theorem qst (f : Fields) : Statement (.qst f) := fun _ _ _ e => by cases e; rfl
theorem walk (f : Fields) : Statement (.walk f) := fun _ _ _ e => by cases e; rfl
theorem mtov (f : Fields) : Statement (.mtov f) := fun _ _ _ e => by cases e; rfl
theorem vtom (f : Fields) : Statement (.vtom f) := fun _ _ _ e => by cases e; rfl
theorem mmeet (f : Fields) : Statement (.mmeet f) := fun _ _ _ e => by cases e; rfl
theorem ld (f : Fields) : Statement (.ld f) := fun _ _ _ e => by cases e; rfl
theorem st (f : Fields) : Statement (.st f) := fun _ _ _ e => by cases e; rfl
theorem ldv (f : Fields) : Statement (.ldv f) := fun _ _ _ e => by cases e; rfl
theorem stv (f : Fields) : Statement (.stv f) := fun _ _ _ e => by cases e; rfl
theorem ldx (f : Fields) : Statement (.ldx f) := fun _ _ _ e => by cases e; rfl
theorem stx (f : Fields) : Statement (.stx f) := fun _ _ _ e => by cases e; rfl
theorem ldfe (f : Fields) : Statement (.ldfe f) := fun _ _ _ e => by cases e; rfl
theorem ldff (f : Fields) : Statement (.ldff f) := fun _ _ _ e => by cases e; rfl
theorem stef (f : Fields) : Statement (.stef f) := fun _ _ _ e => by cases e; rfl
theorem stxf (f : Fields) : Statement (.stxf f) := fun _ _ _ e => by cases e; rfl
theorem femark (f : Fields) : Statement (.femark f) := fun _ _ _ e => by cases e; rfl
theorem fepoll (f : Fields) : Statement (.fepoll f) := fun _ _ _ e => by cases e; rfl
theorem latom (f : Fields) : Statement (.latom f) := fun _ _ _ e => by cases e; rfl
theorem binit (f : Fields) : Statement (.binit f) := fun _ _ _ e => by cases e; rfl
theorem bexpect (f : Fields) : Statement (.bexpect f) := fun _ _ _ e => by cases e; rfl
theorem barrive (f : Fields) : Statement (.barrive f) := fun _ _ _ e => by cases e; rfl
theorem bpoll (f : Fields) : Statement (.bpoll f) := fun _ _ _ e => by cases e; rfl
theorem fence (f : Fields) : Statement (.fence f) := fun _ _ _ e => by cases e; rfl
theorem send (f : Fields) : Statement (.send f) := fun _ _ _ e => by cases e; rfl
theorem sendt (f : Fields) : Statement (.sendt f) := fun _ _ _ e => by cases e; rfl
theorem trysend (f : Fields) : Statement (.trysend f) := fun _ _ _ e => by cases e; rfl
theorem recv (f : Fields) : Statement (.recv f) := fun _ _ _ e => by cases e; rfl
theorem peek (f : Fields) : Statement (.peek f) := fun _ _ _ e => by cases e; rfl
theorem ctrl (f : Fields) : Statement (.ctrl f) := fun _ _ _ e => by cases e; rfl
theorem chcnt (f : Fields) : Statement (.chcnt f) := fun _ _ _ e => by cases e; rfl
theorem gang (f : Fields) : Statement (.gang f) := fun _ _ _ e => by cases e; rfl
theorem hmask (f : Fields) : Statement (.hmask f) := fun _ _ _ e => by cases e; rfl
theorem hprio (f : Fields) : Statement (.hprio f) := fun _ _ _ e => by cases e; rfl
theorem spawn (f : Fields) : Statement (.spawn f) := fun _ _ _ e => by cases e; rfl
theorem copy (f : Fields) : Statement (.copy f) := fun _ _ _ e => by cases e; rfl
theorem copy2 (f : Fields) : Statement (.copy2 f) := fun _ _ _ e => by cases e; rfl
theorem get (f : Fields) : Statement (.get f) := fun _ _ _ e => by cases e; rfl
theorem put (f : Fields) : Statement (.put f) := fun _ _ _ e => by cases e; rfl
theorem getx (f : Fields) : Statement (.getx f) := fun _ _ _ e => by cases e; rfl
theorem putx (f : Fields) : Statement (.putx f) := fun _ _ _ e => by cases e; rfl
theorem amo (f : Fields) : Statement (.amo f) := fun _ _ _ e => by cases e; rfl
theorem amox (f : Fields) : Statement (.amox f) := fun _ _ _ e => by cases e; rfl
theorem amof (f : Fields) : Statement (.amof f) := fun _ _ _ e => by cases e; rfl
theorem rotate (f : Fields) : Statement (.rotate f) := fun _ _ _ e => by cases e; rfl
theorem job (f : Fields) : Statement (.job f) := fun _ _ _ e => by cases e; rfl
theorem emsg (f : Fields) : Statement (.emsg f) := fun _ _ _ e => by cases e; rfl
theorem xsend (f : Fields) : Statement (.xsend f) := fun _ _ _ e => by cases e; rfl
theorem xpost (f : Fields) : Statement (.xpost f) := fun _ _ _ e => by cases e; rfl
theorem xget (f : Fields) : Statement (.xget f) := fun _ _ _ e => by cases e; rfl
theorem mlds (f : Fields) : Statement (.mlds f) := fun _ _ _ e => by cases e; rfl
theorem mswap (f : Fields) : Statement (.mswap f) := fun _ _ _ e => by cases e; rfl
theorem mma (f : Fields) : Statement (.mma f) := fun _ _ _ e => by cases e; rfl
theorem mmag (f : Fields) : Statement (.mmag f) := fun _ _ _ e => by cases e; rfl
theorem macc (f : Fields) : Statement (.macc f) := fun _ _ _ e => by cases e; rfl
theorem mcvt (f : Fields) : Statement (.mcvt f) := fun _ _ _ e => by cases e; rfl
theorem mrda (f : Fields) : Statement (.mrda f) := fun _ _ _ e => by cases e; rfl
theorem mwra (f : Fields) : Statement (.mwra f) := fun _ _ _ e => by cases e; rfl
theorem mstat (f : Fields) : Statement (.mstat f) := fun _ _ _ e => by cases e; rfl
theorem srch (f : Fields) : Statement (.srch f) := fun _ _ _ e => by cases e; rfl
theorem srchf (f : Fields) : Statement (.srchf f) := fun _ _ _ e => by cases e; rfl
theorem mpath (f : Fields) : Statement (.mpath f) := fun _ _ _ e => by cases e; rfl
theorem sacq (f : Fields) : Statement (.sacq f) := fun _ _ _ e => by cases e; rfl
theorem srel (f : Fields) : Statement (.srel f) := fun _ _ _ e => by cases e; rfl
theorem sshrink (f : Fields) : Statement (.sshrink f) := fun _ _ _ e => by cases e; rfl
theorem surr (f : Fields) : Statement (.surr f) := fun _ _ _ e => by cases e; rfl
theorem sverd (f : Fields) : Statement (.sverd f) := fun _ _ _ e => by cases e; rfl
theorem sqry (f : Fields) : Statement (.sqry f) := fun _ _ _ e => by cases e; rfl
theorem estset (f : Fields) : Statement (.estset f) := fun _ _ _ e => by cases e; rfl
theorem commit (f : Fields) : Statement (.commit f) := fun _ _ _ e => by cases e; rfl
theorem wuend (f : Fields) : Statement (.wuend f) := fun _ _ _ e => by cases e; rfl
theorem launch (f : Fields) : Statement (.launch f) := fun _ _ _ e => by cases e; rfl
theorem movsw (f : Fields) : Statement (.movsw f) := fun _ _ _ e => by cases e; rfl
theorem rft (f : Fields) : Statement (.rft f) := fun _ _ _ e => by cases e; rfl
theorem csave (f : Fields) : Statement (.csave f) := fun _ _ _ e => by cases e; rfl
theorem crest (f : Fields) : Statement (.crest f) := fun _ _ _ e => by cases e; rfl
theorem niinv (f : Fields) : Statement (.niinv f) := fun _ _ _ e => by cases e; rfl
theorem nisync (f : Fields) : Statement (.nisync f) := fun _ _ _ e => by cases e; rfl
theorem jrnl (f : Fields) : Statement (.jrnl f) := fun _ _ _ e => by cases e; rfl
theorem evpost (f : Fields) : Statement (.evpost f) := fun _ _ _ e => by cases e; rfl
theorem perf (f : Fields) : Statement (.perf f) := fun _ _ _ e => by cases e; rfl
theorem idle (f : Fields) : Statement (.idle f) := fun _ _ _ e => by cases e; rfl
theorem spillni (f : Fields) : Statement (.spillni f) := fun _ _ _ e => by cases e; rfl
theorem placement (q : Nat) : Statement (.placement q) := fun _ _ _ e => nomatch e
theorem expiredInQueue (q : Nat) : Statement (.expiredInQueue q) := fun _ _ _ e => nomatch e
theorem seedSend (l : Nat) : Statement (.seedSend l) := fun _ _ _ e => nomatch e
theorem firingStart (c : Nat) : Statement (.firingStart c) := fun _ _ _ e => nomatch e
theorem bucketRecompute (c : Nat) : Statement (.bucketRecompute c) := fun _ _ _ e => nomatch e
theorem estimateArrival (l : Nat) : Statement (.estimateArrival l) := fun _ _ _ e => nomatch e
theorem stallResume (c k : Nat) : Statement (.stallResume c k) := fun _ _ _ e => nomatch e
theorem fullEmptyGrant (cl a : Nat) : Statement (.fullEmptyGrant cl a) := fun _ _ _ e => nomatch e
theorem channelWordArrival (c : Nat) (net : Nat) : Statement (.channelWordArrival c net) := fun _ _ _ e => nomatch e
theorem wordReoffer (c : Nat) (net : Nat) : Statement (.wordReoffer c net) := fun _ _ _ e => nomatch e
theorem freeSlotReturn (c ch : Nat) : Statement (.freeSlotReturn c ch) := fun _ _ _ e => nomatch e
theorem ringWordArrival (c : Nat) : Statement (.ringWordArrival c) := fun _ _ _ e => nomatch e
theorem walkerMessageArrival (c : Nat) : Statement (.walkerMessageArrival c) := fun _ _ _ e => nomatch e
theorem holdReached (cl e : Nat) : Statement (.holdReached cl e) := fun _ _ _ e => nomatch e
theorem jobPieceLand (j : Nat) : Statement (.jobPieceLand j) := fun _ _ _ e => nomatch e
theorem searchListLand (j ch : Nat) : Statement (.searchListLand j ch) := fun _ _ _ e => nomatch e
theorem rotationRun (cl : Nat) : Statement (.rotationRun cl) := fun _ _ _ e => nomatch e
theorem asyncTrapDelivery (c : Nat) : Statement (.asyncTrapDelivery c) := fun _ _ _ e => nomatch e
theorem gangFormation (cl : Nat) : Statement (.gangFormation cl) := fun _ _ _ e => nomatch e
theorem mswapApply (cl : Nat) : Statement (.mswapApply cl) := fun _ _ _ e => nomatch e
theorem arrayOperationForm (cl : Nat) : Statement (.arrayOperationForm cl) := fun _ _ _ e => nomatch e
theorem arrayOperationComplete (cl k : Nat) : Statement (.arrayOperationComplete cl k) := fun _ _ _ e => nomatch e
theorem deadlineExpiry (l c : Nat) : Statement (.deadlineExpiry l c) := fun _ _ _ e => nomatch e
theorem descheduledExpiry (l : Nat) : Statement (.descheduledExpiry l) := fun _ _ _ e => nomatch e
theorem wrapupQuietPoint (l : Nat) : Statement (.wrapupQuietPoint l) := fun _ _ _ e => nomatch e
theorem wrapupBudgetExhausted (c k : Nat) : Statement (.wrapupBudgetExhausted c k) := fun _ _ _ e => nomatch e
theorem wallBudgetExpiry (l : Nat) : Statement (.wallBudgetExpiry l) := fun _ _ _ e => nomatch e
theorem launchComplete (l : Nat) : Statement (.launchComplete l) := fun _ _ _ e => nomatch e
theorem completionRecordWrite (l : Nat) : Statement (.completionRecordWrite l) := fun _ _ _ e => nomatch e
theorem recallHead (c : Nat) : Statement (.recallHead c) := fun _ _ _ e => nomatch e
theorem recallPlace (c : Nat) : Statement (.recallPlace c) := fun _ _ _ e => nomatch e
theorem surrenderBoundExceeded (c k : Nat) : Statement (.surrenderBoundExceeded c k) := fun _ _ _ e => nomatch e
theorem finishLimitPassed (cl g : Nat) : Statement (.finishLimitPassed cl g) := fun _ _ _ e => nomatch e
theorem mailboxSlotConsume (f m : Nat) : Statement (.mailboxSlotConsume f m) := fun _ _ _ e => nomatch e
theorem requestPageInvalidate (r : Nat) : Statement (.requestPageInvalidate r) := fun _ _ _ e => nomatch e
theorem requestTenantInvalidate (r : Nat) : Statement (.requestTenantInvalidate r) := fun _ _ _ e => nomatch e
theorem requestAllInvalidate (r : Nat) : Statement (.requestAllInvalidate r) := fun _ _ _ e => nomatch e
theorem contextLoad (r : Nat) : Statement (.contextLoad r) := fun _ _ _ e => nomatch e
theorem quotaChange (r : Nat) : Statement (.quotaChange r) := fun _ _ _ e => nomatch e
theorem reclaim (r : Nat) : Statement (.reclaim r) := fun _ _ _ e => nomatch e
theorem tenantReset (r : Nat) : Statement (.tenantReset r) := fun _ _ _ e => nomatch e
theorem jobRetry (j : Nat) : Statement (.jobRetry j) := fun _ _ _ e => nomatch e
theorem sliceBoundary (t : Nat) : Statement (.sliceBoundary t) := fun _ _ _ e => nomatch e
theorem quiescenceLimit (t : Nat) : Statement (.quiescenceLimit t) := fun _ _ _ e => nomatch e
theorem contextSaveComplete (t : Nat) : Statement (.contextSaveComplete t) := fun _ _ _ e => nomatch e
theorem preemptionInterrupt (c : Nat) : Statement (.preemptionInterrupt c) := fun _ _ _ e => nomatch e
theorem contextRestore (c : Nat) : Statement (.contextRestore c) := fun _ _ _ e => nomatch e
theorem resetInterrupt (c : Nat) : Statement (.resetInterrupt c) := fun _ _ _ e => nomatch e
theorem illegalInstruction (x : IllegalFetch) : Statement (.illegalInstruction x) := by
  cases x with
  | reserved op f =>
    intro h op' f' e
    obtain ⟨rfl, rfl⟩ := Prod.mk.inj (Option.some.inj e)
    simp only [Instr.encodable, Bool.and_eq_true] at h
    exact reserved op f h.1
  | pastEnd => intro _ op f e; cases e
theorem deadlineBeforePlacement (q : Nat) : Statement (.deadlineBeforePlacement q) := fun _ _ _ e => nomatch e
theorem launchNumberRelease : Statement .launchNumberRelease := fun _ _ _ e => nomatch e
theorem refusalWindowEnd : Statement .refusalWindowEnd := fun _ _ _ e => nomatch e
theorem tailWrite : Statement .tailWrite := fun _ _ _ e => nomatch e
theorem cancelWrite : Statement .cancelWrite := fun _ _ _ e => nomatch e
theorem mailboxConfigWrite : Statement .mailboxConfigWrite := fun _ _ _ e => nomatch e
theorem eventRingConfigWrite : Statement .eventRingConfigWrite := fun _ _ _ e => nomatch e
theorem miggive : Statement .miggive := fun _ _ _ e => nomatch e
theorem migtake : Statement .migtake := fun _ _ _ e => nomatch e
theorem migholdWrite : Statement .migholdWrite := fun _ _ _ e => nomatch e
theorem pageHoldEnd : Statement .pageHoldEnd := fun _ _ _ e => nomatch e
theorem hostWindowRequest : Statement .hostWindowRequest := fun _ _ _ e => nomatch e
theorem registerWrite : Statement .registerWrite := fun _ _ _ e => nomatch e
theorem functionLevelReset : Statement .functionLevelReset := fun _ _ _ e => nomatch e
theorem secondStageRecordMove : Statement .secondStageRecordMove := fun _ _ _ e => nomatch e
theorem debuggerHalt : Statement .debuggerHalt := fun _ _ _ e => nomatch e
theorem debuggerResume : Statement .debuggerResume := fun _ _ _ e => nomatch e
theorem launchAreaRelease : Statement .launchAreaRelease := fun _ _ _ e => nomatch e
theorem flitCrcFailure : Statement .flitCrcFailure := fun _ _ _ e => nomatch e
theorem powerNarrowing : Statement .powerNarrowing := fun _ _ _ e => nomatch e
theorem linkWidening : Statement .linkWidening := fun _ _ _ e => nomatch e
theorem renegotiationEnd : Statement .renegotiationEnd := fun _ _ _ e => nomatch e
theorem routerFailure : Statement .routerFailure := fun _ _ _ e => nomatch e
theorem requestResend : Statement .requestResend := fun _ _ _ e => nomatch e
theorem uePortStateChange : Statement .uePortStateChange := fun _ _ _ e => nomatch e
theorem transportPacketArrival : Statement .transportPacketArrival := fun _ _ _ e => nomatch e
theorem packetResend : Statement .packetResend := fun _ _ _ e => nomatch e
theorem congestionTableUpdate : Statement .congestionTableUpdate := fun _ _ _ e => nomatch e
theorem tokenBucketRefill : Statement .tokenBucketRefill := fun _ _ _ e => nomatch e
theorem servoLock : Statement .servoLock := fun _ _ _ e => nomatch e
theorem disciplineLost : Statement .disciplineLost := fun _ _ _ e => nomatch e
theorem holdoverLimitPassed : Statement .holdoverLimitPassed := fun _ _ _ e => nomatch e
theorem moduleReset : Statement .moduleReset := fun _ _ _ e => nomatch e
theorem selfTestComplete : Statement .selfTestComplete := fun _ _ _ e => nomatch e
theorem selfTestFailure : Statement .selfTestFailure := fun _ _ _ e => nomatch e
theorem secondTierTrained : Statement .secondTierTrained := fun _ _ _ e => nomatch e
theorem hbmTrained : Statement .hbmTrained := fun _ _ _ e => nomatch e
theorem hbmTrainingFailure : Statement .hbmTrainingFailure := fun _ _ _ e => nomatch e
theorem clockSwitchComplete : Statement .clockSwitchComplete := fun _ _ _ e => nomatch e
theorem updateCommand : Statement .updateCommand := fun _ _ _ e => nomatch e
theorem attestCommand : Statement .attestCommand := fun _ _ _ e => nomatch e
theorem powerLimitSet : Statement .powerLimitSet := fun _ _ _ e => nomatch e
theorem throttleStart : Statement .throttleStart := fun _ _ _ e => nomatch e
theorem throttleEnd : Statement .throttleEnd := fun _ _ _ e => nomatch e
theorem criticalTemperature : Statement .criticalTemperature := fun _ _ _ e => nomatch e
theorem telemetryRecord : Statement .telemetryRecord := fun _ _ _ e => nomatch e
theorem scrubPass : Statement .scrubPass := fun _ _ _ e => nomatch e
theorem servoUpdate : Statement .servoUpdate := fun _ _ _ e => nomatch e
theorem commandDone : Statement .commandDone := fun _ _ _ e => nomatch e
theorem powerLoss : Statement .powerLoss := fun _ _ _ e => nomatch e

end Sys2Proof.Laws.Encoding
end

