-- ==== Sys2Proof/Tests/Slice0.lean ====
section
/-! SUPPORT. Tests: ill-formed terms that each check refuses, words written out from the encodings of the manual, a witness for every
statement that has hypotheses, and single instructions with results from the manual's words. -/

namespace Sys2Proof.Tests
set_option Elab.async false
open Sys2Proof.Machine Sys2Proof.Num Sys2Proof.Claims

/-! ### Helpers -/

/-- Fields with every part but the reserved bit given, and plain fields. -/
def at_ (neg : Bool) (pred : BitVec 3) (hints : BitVec 7) (d a b : Operand) (modf : BitVec 16) : Fields := ⟨neg, pred, hints, false, d, a, b, modf⟩
def fl (d a b : Operand) (modf : BitVec 16) : Fields := at_ false 0 0 d a b modf

/-- A launch message for one cluster, priority 3: partition word with 8 frames and 1 accumulator bank, deadline 0, no results. -/
def message : List Word := [0x0000000700000301, 0, 0x0018000000010000, 0, 0x0001000100000004, 0x1000, 0, 0, 0, 0, 0, 0, 0, 0, 0, 0]

/-- A live launch, number 1. -/
def live : Launch where
  number := 1
  msg := message
  tenant := 0
  fn := 0
  mailbox := 0
  image := 0
  context := none
  phase := .running
  estimate := 0
  estMsgs := []
  estLast := (0, 0)
  map := 0
  chanWords := 0
  walkWords := 0
  refusals := 0
  strips := 0
  recalls := 0
  demotions := 0
  wrapCount := 0
  wrapStart := none
  wallUsed := 0
  expired := false
  met := none
  area := 0
  ranges := []
  seedNext := 0
  seedEnd := none
  boundCap := 0
  refLimit := 0
  status := 0
  cls := 0
  value := 0
  place := 0
  seen := []
  told := []

/-- Handlers: 0 plain, 1 walker, 2 trap, 3 surrender, 4 wrap-up, 5 plain with an input and an output channel. -/
def handlers : Tab Handler :=
  [(0, ⟨0, 0, 0, 0⟩), (1, ⟨0x10018, 0, 0, 0⟩), (2, ⟨0x30024, 0, 0, 0⟩), (3, ⟨0x40030, 0, 0, 0⟩), (4, ⟨0x5003C, 0, 0, 0⟩),
   (5, ⟨0x2400048, 0x804, 0, 0x42801⟩)]

/-- An image with those handlers and one sett of two granules, held. -/
def image : Image := ⟨0, 0, Mem.writeN [] 0 12 0, 12, handlers, [(0, 0x210)], some 2, (0, 0), (0, 0), 0x0018⟩

/-- A Running slot: g1 a pool address, g2 a store address, and small numbers in g3, g4, g5. -/
def runner : Slot :=
  { Slot.empty with
    st := .running
    launch := 1
    fid := 7
    g := ((((Vector.replicate 32 (0 : Word)).set 1 0x4000000000000400).set 2 0x5000000000000400).set 3 3).set 4 4 }

/-- A core on which that slot runs. -/
def core0 : Core := { Core.initial with slots := [(0, runner)], image := some 0, partw := 0x0018, handlers := handlers }

/-- The launch placed on cluster 0, granule 0 its image's; slot 0 of core 0 issues. -/
def base : State :=
  { State.reset with
    cores := [(0, core0)]
    clusters := [(0, { Cluster.initial with granules := [(0, .image)], tenant := some 0 })]
    images := [(0, image)]
    launches := [(1, live)] }

/-- The same with another slot to issue, or another core. -/
def withSlot (x : Slot) : State := { base with cores := [(0, { core0 with slots := [(0, x)] })] }
def withCore (k : Core) : State := { base with cores := [(0, k)] }

/-- Completion words at k6, the first without a tag (R90). -/
def words6 : State := withCore { core0 with completions := [⟨5, false, 1, []⟩, ⟨6, true, 1, []⟩] }

/-- Does an instruction issue? -/
def can (s : State) (e : Nat × Fields) : Bool := decide (s.preCheck e.1 e.2 = none) && (s.me.guard e.2 && decide (s.pushBlocked e.1 e.2 = none))

/-- An instruction issues, its sources are read with nothing changed, and its scalar destination can be written. -/
structure Ready (s : State) (op : Nat) (f : Fields) : Prop where
  issues : s.issues op f
  a : ∃ a, s.src f.a = .ok (a, s)
  b : ∃ b, s.src f.b = .ok (b, s)
  d : ∀ x, ∃ t, s.dst f.d x = .ok t
  lanes : ∀ w, ∃ b : List Nat, s.laneB f.b w = .ok (b, s) ∧ b.length = 512 / w

/-- An instruction issues. -/
structure Goes (s : State) (op : Nat) (f : Fields) : Prop where
  issues : s.issues op f

theorem issues_of {s : State} {op : Nat} {f : Fields} (h : can s (op, f) = true) : s.issues op f := by
  simpa [can, State.issues] using h

theorem goes_of {s : State} {op : Nat} {f : Fields} (h : can s (op, f) = true) : Goes s op f := ⟨issues_of h⟩

theorem issues_all {s : State} {l : List (Nat × Fields)} (h : l.all (can s) = true) : ∀ e ∈ l, s.issues e.1 e.2 :=
  fun _ he => issues_of (List.all_eq_true.mp h _ he)

theorem src_plain (s : State) {o : Operand} (h : Operand.portNum o = none) : ∃ x, s.src o = .ok (x, s) := by
  cases o <;> simp_all [State.src, Operand.portNum]

theorem dst_plain (s : State) {o : Operand} (h : Operand.portNum o = none) (x : Word) : ∃ t, s.dst o x = .ok t := by
  cases o <;> simp_all [State.dst, Operand.portNum]

theorem laneB_plain (s : State) {o : Operand} (h : Operand.portNum o = none) (w : Nat) :
    ∃ b : List Nat, s.laneB o w = .ok (b, s) ∧ b.length = 512 / w := by
  cases o <;> simp_all [State.laneB, State.src, Operand.portNum, lanesOf, elems]

/-- Do a list of opcodes and fields, none of which names a port, issue? -/
def readyList (s : State) (l : List (Nat × Fields)) : Bool :=
  l.all (fun e => can s e && (Operand.portNum e.2.d).isNone && (Operand.portNum e.2.a).isNone && (Operand.portNum e.2.b).isNone)

theorem ready_all {s : State} {l : List (Nat × Fields)} (h : readyList s l = true) : ∀ e ∈ l, Ready s e.1 e.2 := by
  intro e he
  have := List.all_eq_true.mp h _ he
  simp only [Bool.and_eq_true, Option.isNone_iff_eq_none] at this
  exact ⟨issues_of this.1.1.1, src_plain s this.1.2, src_plain s this.2, dst_plain s this.1.1.2, laneB_plain s this.2⟩

theorem ready_of {s : State} {op : Nat} {f : Fields} (h : readyList s [(op, f)] = true) : Ready s op f := ready_all h (op, f) (by simp)

theorem ok_of {α : Type} {r : Res α} (h : (match r with | .ok _ => true | .error _ => false) = true) : ∃ t, r = .ok t := by
  cases r <;> simp_all

/-- Is a result a success with this value? -/
def gives {ε α : Type} [DecidableEq α] (r : Except ε α) (x : α) : Bool := match r with | .ok y => decide (y = x) | .error _ => false
theorem gives_of {ε α : Type} [DecidableEq α] {r : Except ε α} {x : α} (h : gives r x = true) : r = .ok x := by
  cases r <;> simp_all [gives]

/-! ### Well-formedness: for each check, a term that it refuses -/

/-- Check 4 by its fields: the reserved bit, D, A, B, the modifier; and operands with reserved bits. -/
theorem test_ill_formed_refused :
    (Instr.add { fl (.g 1) (.g 2) (.g 3) 0 with rsv := true }).wellFormed = false ∧
    (Instr.add (fl (.p 1) (.g 2) (.g 3) 0)).wellFormed = false ∧
    (Instr.add (fl (.g 1) (.w 2) (.g 3) 0)).wellFormed = false ∧
    (Instr.add (fl (.g 1) (.g 2) .none 0)).wellFormed = false ∧
    (Instr.add (fl (.g 1) (.g 2) (.g 3) 1)).wellFormed = false ∧
    (Instr.add (fl (.g 1) (.g 2) (.bad 0x00020) 0)).wellFormed = false ∧
    (Instr.mrda (fl (.v 1) (.row 1280) .none 0)).wellFormed = false ∧
    (Instr.add (fl (.g 1) (.g 2) (.g 3) 0)).wellFormed = true := by decide +kernel

/-- A mapped opcode is no illegal instruction, and a field that a class decodes is no bad operand. -/
theorem test_unencodable_refused :
    (Instr.illegalInstruction (.reserved 0x10 (fl .none .none .none 0))).encodable = false ∧
    (Instr.illegalInstruction (.reserved 0xFF (fl .none .none .none 0))).encodable = true ∧
    (Operand.bad 0x00001).encodable = false ∧ (Operand.bad 0x00020).encodable = true ∧
    (Operand.row 1280).encodable = false ∧ (Operand.row 1279).encodable = true := by decide +kernel

/-! ### Words written out from the encodings (R171 to R175, R180) -/

theorem test_decode_control : ∀ e ∈ ([(0x001BAE0000E0000E00000000, .nop (at_ false 1 93 .none .none .none 0)),
    (0x0197AE00008BC0DE00000000, .bra (at_ true 1 61 .none (.imm 48141) .none 0)),
    (0x02618E000000008E00000000, .jmp (at_ false 6 12 .none (.g 8) .none 0)),
    (0x0345C0000E00005E00000000, .call (at_ false 4 46 (.g 14) (.g 5) .none 0)),
    (0x04068E0000E0000E00000000, .ret (at_ false 0 52 .none .none .none 0)),
    (0x05C7E000138D00FE00000000, .loop (at_ true 4 63 (.g 19) (.imm 53263) .none 0)),
    (0x06DE4E0000E0000E00000000, .endFiring (at_ true 5 114 .none .none .none 0)),
    (0x0754CE0000E0000E00000000, .yield (at_ false 5 38 .none .none .none 0)),
    (0x08DFEE000000012841470000, .jtab (at_ true 5 127 .none (.g 18) (.imm 16711) 0)),
    (0x0909EE000000010E00000000, .trap (at_ false 0 79 .none (.g 16) .none 0)),
    (0x0A1FCE0000A16C686BFE0000, .waitb (at_ false 1 126 .none (.mem 1 1734) (.imm 27646) 0)),
    (0x0B95400008600070000D0000, .waitc (at_ true 1 42 (.g 8) (.port 7) (.g 13) 0)),
    (0x0CCD4E0000E0000E00000000, .brk (at_ true 4 106 .none .none .none 0)),
    (0x0D276E000000003E00000000, .sleep (at_ false 2 59 .none (.g 3) .none 0))] : List (BitVec 96 × Instr)),
    decodeWord e.1 = e.2 ∧ e.2.wellFormed = true := by decide +kernel

theorem test_decode_integer : ∀ e ∈ ([(0x106BC000090000A000010040, .add (at_ false 6 94 (.g 9) (.g 10) (.g 1) 64)),
    (0x119F620019200190000D0040, .sub (at_ true 1 123 (.v 25) (.v 25) (.g 13) 64)),
    (0x1251A2000D2001C2000A0040, .mul (at_ false 5 13 (.v 13) (.v 28) (.v 10) 64)),
    (0x1364C0000C00001000030040, .mulh (at_ false 6 38 (.g 12) (.g 1) (.g 3) 64)),
    (0x14FF62000720007000100040, .mad (at_ true 7 123 (.v 7) (.v 7) (.g 16) 64)),
    (0x1506820015200102001E0040, .div (at_ false 0 52 (.v 21) (.v 16) (.v 30) 64)),
    (0x16AB6200132000580B610040, .rem (at_ true 2 91 (.v 19) (.v 5) (.imm 2913) 64)),
    (0x173FC000080000DE00000040, .abs (at_ false 3 126 (.g 8) (.g 13) .none 64)),
    (0x18FB22001E20010000070040, .min (at_ true 7 89 (.v 30) (.v 16) (.g 7) 64)),
    (0x19BF62000E2001E2000C0040, .max (at_ true 3 123 (.v 14) (.v 30) (.v 12) 64)),
    (0x1AADE000040000D000070040, .adds (at_ true 2 111 (.g 4) (.g 13) (.g 7) 64)),
    (0x1B20E2001920005000060040, .subs (at_ false 2 7 (.v 25) (.v 5) (.g 6) 64)),
    (0x1C0340000C00005986200040, .avg (at_ false 0 26 (.g 12) (.g 5) (.imm (-31200)) 64)),
    (0x1DBA60000100009000070040, .sad (at_ true 3 83 (.g 1) (.g 9) (.g 7) 64)),
    (0x1E208200162001D2001A0040, .clamp (at_ false 2 4 (.v 22) (.v 29) (.v 26) 64)),
    (0x200A62000B200092001E0040, .and (at_ false 0 83 (.v 11) (.v 9) (.v 30) 64)),
    (0x2170E2000C20011200020040, .or (at_ false 7 7 (.v 12) (.v 17) (.v 2) 64)),
    (0x22B84000090000F000110040, .xor (at_ true 3 66 (.g 9) (.g 15) (.g 17) 64)),
    (0x2397A000040000D8C4BA0040, .andn (at_ true 1 61 (.g 4) (.g 13) (.imm 50362) 64)),
    (0x24A80200132000799E270040, .shl (at_ true 2 64 (.v 19) (.v 7) (.imm (-25049)) 64)),
    (0x252DC0000D00010000060040, .shr (at_ false 2 110 (.g 13) (.g 16) (.g 6) 64)),
    (0x268AC2001620014200050040, .sar (at_ true 0 86 (.v 22) (.v 20) (.v 5) 64)),
    (0x271742001520012000110040, .rol (at_ false 1 58 (.v 21) (.v 18) (.g 17) 64)),
    (0x28AD80000200006E00000040, .clz (at_ true 2 108 (.g 2) (.g 6) .none 64)),
    (0x2985C2001420005E00000040, .popc (at_ true 0 46 (.v 20) (.v 5) .none 64)),
    (0x2A3222000520010E00000040, .brev (at_ false 3 17 (.v 5) (.v 16) .none 64)),
    (0x2B07A200152001A200110040, .ext (at_ false 0 61 (.v 21) (.v 26) (.v 17) 64)),
    (0x2CB9400006000070000A0040, .ins (at_ true 3 74 (.g 6) (.g 7) (.g 10) 64)),
    (0x2D0602000120010000020000, .hash (at_ false 0 48 (.v 1) (.v 16) (.g 2) 0)),
    (0x2EB742001B2001F200190000, .mix (at_ true 3 58 (.v 27) (.v 31) (.v 25) 0))] : List (BitVec 96 × Instr)),
    decodeWord e.1 = e.2 ∧ e.2.wellFormed = true := by decide +kernel

theorem test_decode_moves : ∀ e ∈ ([(0x300244000540000E00000000, .mov (at_ false 0 18 (.p 5) (.p 0) .none 0)),
    (0x31B960000388605E00000002, .movh (at_ true 3 75 (.g 3) (.imm 34309) .none 2)),
    (0x324BA2000A200112001C0044, .sel (at_ false 4 93 (.v 10) (.v 17) (.v 28) 68)),
    (0x330AA40004000070000C0051, .cmp (at_ false 0 85 (.p 4) (.g 7) (.g 12) 81)),
    (0x3442C4000B4000B400080000, .pand (at_ false 4 22 (.w 3) (.w 3) (.w 0) 0)),
    (0x3514E4000040004400040000, .por (at_ false 1 39 (.p 0) (.p 4) (.p 4) 0)),
    (0x36A084000C4000A400080000, .pxor (at_ true 2 4 (.w 4) (.w 2) (.w 0) 0)),
    (0x37F1800005B7B5BE00000040, .lea (at_ true 7 12 (.g 5) (.mem 23 (-1189)) .none 64)),
    (0x38722C001100009E00000000, .movs (at_ false 7 17 (.sys 0x11) (.g 9) .none 0)),
    (0x39376000094001080FEE0000, .movw (at_ false 3 59 (.g 9) (.m 0) (.imm 4078) 0)),
    (0x3A14A2001E82636000020040, .iota (at_ false 1 37 (.v 30) (.imm 9782) (.g 2) 64)),
    (0x3BC32200002001E000020040, .bcast (at_ true 4 25 (.v 0) (.v 30) (.g 2) 64)),
    (0x3C39E0000F2001D8DD880040, .extl (at_ false 3 79 (.g 15) (.v 29) (.imm 56712) 64)),
    (0x3DE6A2001D000038CC3C0040, .insl (at_ true 6 53 (.v 29) (.g 3) (.imm 52284) 64)),
    (0x3E9BA4000C20017200080051, .cmpv (at_ true 1 93 (.w 4) (.v 23) (.v 8) 81))] : List (BitVec 96 × Instr)),
    decodeWord e.1 = e.2 ∧ e.2.wellFormed = true := by decide +kernel

theorem test_decode_float : ∀ e ∈ ([(0x40FCE0000100006000011000, .fadd (at_ true 7 103 (.g 1) (.g 6) (.g 1) 4096)),
    (0x418A62001820014000041000, .fsub (at_ true 0 83 (.v 24) (.v 20) (.g 4) 4096)),
    (0x429C82000020012200101000, .fmul (at_ true 1 100 (.v 0) (.v 18) (.v 16) 4096)),
    (0x430922001120003000091000, .fma (at_ false 0 73 (.v 17) (.v 3) (.g 9) 4096)),
    (0x44E0E000110000B000071000, .fms (at_ true 6 7 (.g 17) (.g 11) (.g 7) 4096)),
    (0x45F182001A2001C200081000, .fnma (at_ true 7 12 (.v 26) (.v 28) (.v 8) 4096)),
    (0x46CCE0000B0000A0000A1000, .fmin (at_ true 4 103 (.g 11) (.g 10) (.g 10) 4096)),
    (0x473FE0000400006000061000, .fmax (at_ false 3 127 (.g 4) (.g 6) (.g 6) 4096)),
    (0x4832E0000E00005E00001000, .fabs (at_ false 3 23 (.g 14) (.g 5) .none 4096)),
    (0x49B0A000080000CE00001000, .fneg (at_ true 3 5 (.g 8) (.g 12) .none 4096)),
    (0x4A78E4000E20011200151000, .fcmp (at_ false 7 71 (.w 6) (.v 17) (.v 21) 4096)),
    (0x4BEE4200112000FE00001000, .fclass (at_ true 6 114 (.v 17) (.v 15) .none 4096)),
    (0x4C824200022001B2001E1000, .fdiv (at_ true 0 18 (.v 2) (.v 27) (.v 30) 4096)),
    (0x4D236200062000EE00001000, .fsqrt (at_ false 2 27 (.v 6) (.v 14) .none 4096)),
    (0x4E440200082000EE00001000, .frcp (at_ false 4 32 (.v 8) (.v 14) .none 4096)),
    (0x4F6842000420013E00001000, .frsq (at_ false 6 66 (.v 4) (.v 19) .none 4096)),
    (0x50BF20000F00009E00001000, .fexp2 (at_ true 3 121 (.g 15) (.g 9) .none 4096)),
    (0x513FE0000A00002E00001000, .flog2 (at_ false 3 127 (.g 10) (.g 2) .none 4096)),
    (0x527102001B20017E00001000, .ftanh (at_ false 7 8 (.v 27) (.v 23) .none 4096)),
    (0x53968200192000C906EA1000, .fscale (at_ true 1 52 (.v 25) (.v 12) (.imm (-63766)) 4096)),
    (0x54C362000E2001D000085A00, .fcvt (at_ true 4 27 (.v 14) (.v 29) (.g 8) 23040)),
    (0x5561A2001A20003E00001000, .ftoi (at_ false 6 13 (.v 26) (.v 3) .none 4096)),
    (0x566E60000200002E00001000, .itof (at_ false 6 115 (.g 2) (.g 2) .none 4096)),
    (0x57710200152000CE00001000, .frnd (at_ false 7 8 (.v 21) (.v 12) .none 4096)),
    (0x5818E0000F2000A200062A00, .fdot (at_ false 1 71 (.g 15) (.v 10) (.v 6) 10752)),
    (0x59E2C2000D2001820016E200, .qnt (at_ true 6 22 (.v 13) (.v 24) (.v 22) 57856)),
    (0x5AF0E2001C2000C84B111017, .dqnt (at_ true 7 7 (.v 28) (.v 12) (.imm 19217) 4119)),
    (0x5B0820000D200020000F0000, .plsplit (at_ false 0 65 (.g 13) (.v 2) (.g 15) 0)),
    (0x5CD8C200110000B92CA10000, .pljoin (at_ true 5 70 (.v 17) (.g 11) (.imm (-54111)) 0))] : List (BitVec 96 × Instr)),
    decodeWord e.1 = e.2 ∧ e.2.wellFormed = true := by decide +kernel

theorem test_decode_vector : ∀ e ∈ ([(0x60E802000E200062001E0040, .vshuf (at_ true 6 64 (.v 14) (.v 6) (.v 30) 64)),
    (0x613A62000B20000200130040, .vperm2 (at_ false 3 83 (.v 11) (.v 0) (.v 19) 64)),
    (0x626202000C20019000060040, .vrot (at_ false 6 16 (.v 12) (.v 25) (.g 6) 64)),
    (0x6396A2001B20006200040040, .vzip (at_ true 1 53 (.v 27) (.v 6) (.v 4) 64)),
    (0x64F782000B2000E200080040, .vunzip (at_ true 7 60 (.v 11) (.v 14) (.v 8) 64)),
    (0x65BE020011200174000C0040, .vcomp (at_ true 3 112 (.v 17) (.v 23) (.w 4) 64)),
    (0x669CA20009200124000B0040, .vexp (at_ true 1 101 (.v 9) (.v 18) (.w 3) 64)),
    (0x677760000F20002400090C07, .vred (at_ false 7 59 (.g 15) (.v 2) (.w 1) 3079)),
    (0x683622000E20007E00000C0E, .vscan (at_ false 3 49 (.v 14) (.v 7) .none 3086)),
    (0x69B12200102000096C510000, .vtopk (at_ true 3 9 (.v 16) (.v 0) (.imm (-37807)) 0)),
    (0x6A3042000D20010E00000060, .vsort (at_ false 3 2 (.v 13) (.v 16) .none 96)),
    (0x6B7F60000A200042000D4800, .vdist (at_ false 7 123 (.g 10) (.v 4) (.v 13) 18432)),
    (0x6CCD04000A200052000A0040, .vmatch (at_ true 4 104 (.w 2) (.v 5) (.v 10) 64)),
    (0x6D8BA20013200164000E0C0E, .vseg (at_ true 0 93 (.v 19) (.v 22) (.w 6) 3086))] : List (BitVec 96 × Instr)),
    decodeWord e.1 = e.2 ∧ e.2.wellFormed = true := by decide +kernel

theorem test_decode_membership : ∀ e ∈ ([(0x70AD840010E0000E00000000, .mset (at_ true 2 108 (.m 0) .none .none 0)),
    (0x710484001340011200080000, .mand (at_ false 0 36 (.m 3) (.m 1) (.v 8) 0)),
    (0x722224001140012400120000, .mor (at_ false 2 17 (.m 1) (.m 2) (.m 2) 0)),
    (0x73D1A4001240011400100000, .mandn (at_ true 5 13 (.m 2) (.m 1) (.m 0) 0)),
    (0x7475C0000840013E00000000, .mcnt (at_ false 7 46 (.g 8) (.m 3) .none 0)),
    (0x7594C0000640013E00000000, .mfind (at_ true 1 38 (.g 6) (.m 3) .none 0)),
    (0x76CD64001240010400130000, .msplit (at_ true 4 107 (.m 2) (.m 0) (.m 3) 0)),
    (0x7700040012400134000F0024, .mpred (at_ false 0 0 (.m 2) (.m 3) (.w 7) 36)),
    (0x781402001DAB724899F30006, .qld (at_ false 1 32 (.v 29) (.mem 11 1828) (.imm 39411) 6)),
    (0x7991A0000FA294DA8AA10002, .qst (at_ true 1 13 (.g 15) (.mem 2 (-1715)) (.mem 8 (-1375)) 2)),
    (0x7AC542000700007400110014, .walk (at_ true 4 42 (.v 7) (.g 7) (.m 1) 20)),
    (0x7BF482000A40012E00000021, .mtov (at_ true 7 36 (.v 10) (.m 2) .none 33)),
    (0x7C8644001120014E00000021, .vtom (at_ true 0 50 (.m 1) (.v 20) .none 33)),
    (0x7D43A400120000DE00000000, .mmeet (at_ false 4 29 (.m 2) (.g 13) .none 0))] : List (BitVec 96 × Instr)),
    decodeWord e.1 = e.2 ∧ e.2.wellFormed = true := by decide +kernel

theorem test_decode_local_memory : ∀ e ∈ ([(0x80EBC00009B93E3E00000058, .ld (at_ true 6 94 (.g 9) (.mem 25 995) .none 88)),
    (0x81480E0000BCF5C000060058, .st (at_ false 4 64 .none (.mem 28 (-164)) (.g 6) 88)),
    (0x82EBA2000EA914FE00000058, .ldv (at_ true 6 93 (.v 14) (.mem 9 335) .none 88)),
    (0x8359AE0000A28B6200030058, .stv (at_ false 5 77 .none (.mem 2 (-1866)) (.v 3) 88)),
    (0x84A4420013A8E88200170040, .ldx (at_ true 2 34 (.v 19) (.mem 8 (-376)) (.v 23) 64)),
    (0x85C0420006A4CA1200110040, .stx (at_ true 4 2 (.v 6) (.mem 4 (-863)) (.v 17) 64)),
    (0x8600C00008AA803E00000058, .ldfe (at_ false 0 6 (.g 8) (.mem 10 (-2045)) .none 88)),
    (0x872D200002A6865E00000058, .ldff (at_ false 2 105 (.g 2) (.mem 6 (-1947)) .none 88)),
    (0x888C0E0000A419B931A70058, .stef (at_ true 0 96 .none (.mem 4 411) (.imm (-52825)) 88)),
    (0x89B12E0000ABF3A96BCE0058, .stxf (at_ true 3 9 .none (.mem 11 (-198)) (.imm (-37938)) 88)),
    (0x8AC6EE0000B15F4E00000000, .femark (at_ true 4 55 .none (.mem 17 1524) .none 0)),
    (0x8BBC640003ACD18E00000000, .fepoll (at_ true 3 99 (.p 3) (.mem 12 (-744)) .none 0)),
    (0x8C46C00010A08D98BFB50006, .latom (at_ false 4 54 (.g 16) (.mem 0 (-1831)) (.imm 49077) 6))] : List (BitVec 96 × Instr)),
    decodeWord e.1 = e.2 ∧ e.2.wellFormed = true := by decide +kernel

theorem test_decode_barriers_channels : ∀ e ∈ ([(0x902B0E0000A28DC000040000, .binit (at_ false 2 88 .none (.mem 2 (-1828)) (.g 4) 0)),
    (0x911BAE0000A895D000030000, .bexpect (at_ false 1 93 .none (.mem 8 (-1699)) (.g 3) 0)),
    (0x92010E0000AFE95000070000, .barrive (at_ false 0 8 .none (.mem 15 (-363)) (.g 7) 0)),
    (0x93DAC00005A6E8FE00000000, .bpoll (at_ true 5 86 (.g 5) (.mem 6 (-369)) .none 0)),
    (0x94C18E0000E0000E0000005C, .fence (at_ true 4 12 .none .none .none 92)),
    (0x95632E000091FB98A6D40000, .send (at_ false 6 25 .none (.imm (-57415)) (.imm 42708) 0)),
    (0x96ADEE000000003000130000, .sendt (at_ true 2 111 .none (.g 3) (.g 19) 0)),
    (0x9775E4000086426000100000, .trysend (at_ false 7 47 (.p 0) (.imm 25638) (.g 16) 0)),
    (0x987540000A60005E0000000D, .recv (at_ false 7 42 (.g 10) (.port 5) .none 13)),
    (0x996CA0000B60006E0000000D, .peek (at_ false 6 101 (.g 11) (.port 6) .none 13)),
    (0x9AE56600050000AE00000000, .ctrl (at_ true 6 43 (.port 5) (.g 10) .none 0)),
    (0x9BD4E00012922B2E00000000, .chcnt (at_ true 5 39 (.g 18) (.imm (-56654)) .none 0)),
    (0x9CB40E00000000FE00000000, .gang (at_ true 3 32 .none (.g 15) .none 0)),
    (0x9DA4EE000000009E00000000, .hmask (at_ true 2 39 .none (.g 9) .none 0)),
    (0x9E434E00009F1E10000B0000, .hprio (at_ false 4 26 .none (.imm (-3615)) (.g 11) 0)),
    (0x9FCDE4000200005E00000055, .spawn (at_ true 4 111 (.p 2) (.g 5) .none 85))] : List (BitVec 96 × Instr)),
    decodeWord e.1 = e.2 ∧ e.2.wellFormed = true := by decide +kernel

theorem test_decode_engines : ∀ e ∈ ([(0xA0806E0000B1E9B0000D0000, .copy (at_ true 0 3 .none (.mem 17 (-357)) (.g 13) 0)),
    (0xA1E02E0000BD8B5000050000, .copy2 (at_ true 6 1 .none (.mem 29 (-1867)) (.g 5) 0)),
    (0xA2EA0E0000AEDCE00004005A, .get (at_ true 6 80 .none (.mem 14 (-562)) (.g 4) 90)),
    (0xA3FE8E0000B9D0100009005C, .put (at_ true 7 116 .none (.mem 25 (-767)) (.g 9) 92)),
    (0xA4080E0000A0470000100000, .getx (at_ false 0 64 .none (.mem 0 1136) (.g 16) 0)),
    (0xA5708E0000A669D000120000, .putx (at_ false 7 4 .none (.mem 6 1693) (.g 18) 0)),
    (0xA651CE0000ADDE10000D005C, .amo (at_ false 5 14 .none (.mem 13 (-543)) (.g 13) 92)),
    (0xA7EB4E0000A386D000030000, .amox (at_ true 6 90 .none (.mem 3 (-1939)) (.g 3) 0)),
    (0xA8B54E0000B9F010000D005C, .amof (at_ true 3 42 .none (.mem 25 (-255)) (.g 13) 92)),
    (0xA9F96E0000AECAE0000C0000, .rotate (at_ true 7 75 .none (.mem 14 (-850)) (.g 12) 0)),
    (0xAAAF6E0000B1409000090000, .job (at_ true 2 123 .none (.mem 17 1033) (.g 9) 0)),
    (0xABE2AE0000B3240000100000, .emsg (at_ true 6 21 .none (.mem 19 576) (.g 16) 0)),
    (0xACAB0E0000A3ABA000130000, .xsend (at_ true 2 88 .none (.mem 3 (-1350)) (.g 19) 0)),
    (0xAD35EE0000B2000000040000, .xpost (at_ false 3 47 .none (.mem 18 0) (.g 4) 0)),
    (0xAEBFCE0000B9D5F000030000, .xget (at_ true 3 126 .none (.mem 25 (-673)) (.g 3) 0))] : List (BitVec 96 × Instr)),
    decodeWord e.1 = e.2 ∧ e.2.wellFormed = true := by decide +kernel

theorem test_decode_matrix : ∀ e ∈ ([(0xB0B46E0000A7076E0000A000, .mlds (at_ true 3 35 .none (.mem 7 118) .none 40960)),
    (0xB1AFAE0000E0000E00000000, .mswap (at_ true 2 125 .none .none .none 0)),
    (0xB2DDA70148B46F9BF17F0000, .mma (at_ true 5 109 (.row 328) (.mem 20 1785) (.mem 31 383) 0)),
    (0xB3F487003AA1977B5B010000, .mmag (at_ true 7 36 (.row 58) (.mem 1 (-1673)) (.mem 21 (-1279)) 0)),
    (0xB4DF2702B5960BBE00000000, .macc (at_ true 5 121 (.row 693) (.imm (-40773)) .none 0)),
    (0xB5DFC0000EB09AF702505A00, .mcvt (at_ true 5 126 (.g 14) (.mem 16 (-1617)) (.row 592) 23040)),
    (0xB65622000D703F0E00000000, .mrda (at_ false 5 49 (.v 13) (.row 1008) .none 0)),
    (0xB78CC7005220019E00000000, .mwra (at_ true 0 102 (.row 82) (.v 25) .none 0)),
    (0xB864A00007703CCE00000000, .mstat (at_ false 6 37 (.g 7) (.row 972) .none 0))] : List (BitVec 96 × Instr)),
    decodeWord e.1 = e.2 ∧ e.2.wellFormed = true := by decide +kernel

theorem test_decode_search : ∀ e ∈ ([(0xC0632E0000ABB3E000064800, .srch (at_ false 6 25 .none (.mem 11 (-1218)) (.g 6) 18432)),
    (0xC18A2E0000B01AA000064800, .srchf (at_ true 0 81 .none (.mem 16 426) (.g 6) 18432)),
    (0xC2F2200013A2BCD0000E0000, .mpath (at_ true 7 17 (.g 19) (.mem 2 (-1075)) (.g 14) 0))] : List (BitVec 96 × Instr)),
    decodeWord e.1 = e.2 ∧ e.2.wellFormed = true := by decide +kernel

theorem test_decode_setts : ∀ e ∈ ([(0xD01F00000E00012E00000000, .sacq (at_ false 1 120 (.g 14) (.g 18) .none 0)),
    (0xD112CE000000001E00000000, .srel (at_ false 1 22 .none (.g 1) .none 0)),
    (0xD275EE00000000181A0E0000, .sshrink (at_ false 7 47 .none (.g 1) (.imm 6670) 0)),
    (0xD3F82E00000000A000120000, .surr (at_ true 7 65 .none (.g 10) (.g 18) 0)),
    (0xD41C6E0000E0000E00000000, .sverd (at_ false 1 99 .none .none .none 0)),
    (0xD5FF0000020000BE00000000, .sqry (at_ true 7 120 (.g 2) (.g 11) .none 0)),
    (0xD6FC4E000000006E00000000, .estset (at_ true 7 98 .none (.g 6) .none 0)),
    (0xD7506E000081E9FE00000001, .commit (at_ false 5 3 .none (.imm 7839) .none 1)),
    (0xD8EC0E0000E0000E00000000, .wuend (at_ true 6 96 .none .none .none 0)),
    (0xD909240005B00930000E0000, .launch (at_ false 0 73 (.p 5) (.mem 16 147) (.g 14) 0))] : List (BitVec 96 × Instr)),
    decodeWord e.1 = e.2 ∧ e.2.wellFormed = true := by decide +kernel

theorem test_decode_system : ∀ e ∈ ([(0xE0D2AC080600012E00000000, .movsw (at_ true 5 21 (.sys 0x806) (.g 18) .none 0)),
    (0xE18CAE0000E0000E00000000, .rft (at_ true 0 101 .none .none .none 0)),
    (0xE2520E0000B86B6000120000, .csave (at_ false 5 16 .none (.mem 24 1718) (.g 18) 0)),
    (0xE332EE0000BEE75000070000, .crest (at_ false 3 23 .none (.mem 30 (-395)) (.g 7) 0)),
    (0xE4316E00000000D000110005, .niinv (at_ false 3 11 .none (.g 13) (.g 17) 5)),
    (0xE594EE0000E0000E00000000, .nisync (at_ true 1 39 .none .none .none 0)),
    (0xE63F82000196057E00000002, .jrnl (at_ false 3 124 (.v 1) (.imm (-40873)) .none 2)),
    (0xE78AC400018C996200080000, .evpost (at_ true 0 86 (.p 1) (.imm 51606) (.v 8) 0)),
    (0xE85EA0000193438E00000000, .perf (at_ false 5 117 (.g 1) (.imm (-52168)) .none 0)),
    (0xE94A2E0000E0000E00000000, .idle (at_ false 4 81 .none .none .none 0)),
    (0xEAB700000F00006E00000000, .spillni (at_ true 3 56 (.g 15) (.g 6) .none 0))] : List (BitVec 96 × Instr)),
    decodeWord e.1 = e.2 ∧ e.2.wellFormed = true := by decide +kernel

/-! ### Witnesses: for every statement, states and operands that meet the hypotheses of each clause -/

/-- The forms of the integer entries (R187, R197): the unary ones take no B. -/
def integerForm (d a : Operand) (op : Nat) : Nat × Fields := (op, fl d a (if op ∈ [0x17, 0x28, 0x29, 0x2A] then .none else .imm 3) 0)

theorem witness_ScalarIntegerResults : ∀ e ∈ (arithmetic ++ logic).map (fun e => integerForm (.g 31) (.g 3) e.op),
    Ready base e.1 e.2 ∧ ∀ n, e.2.d ≠ .v n := by
  intro e he
  refine ⟨ready_all (by decide +kernel) e he, fun n => ?_⟩
  obtain ⟨x, -, rfl⟩ := List.mem_map.mp he
  simp [integerForm, fl, at_]

theorem witness_VectorIntegerResults : ∀ e ∈ (arithmetic ++ logic).map (fun e => integerForm (.v 31) (.v 3) e.op), Ready base e.1 e.2 ∧ e.2.d = .v 31 := by
  intro e he
  refine ⟨ready_all (by decide +kernel) e he, ?_⟩
  obtain ⟨x, -, rfl⟩ := List.mem_map.mp he
  simp [integerForm, fl, at_]

/-- A failed check 4, a guard that does not hold (R177, R183), and a full task queue that D and A name (R174). -/
theorem witness_ChecksAtIssue :
    (Instr.add (fl .none (.g 1) (.g 2) 0)).word? = some (0x10, fl .none (.g 1) (.g 2) 0) ∧
    base.preCheck 0x10 (fl .none (.g 1) (.g 2) 0) = some (2, 2, 0) ∧
    base.preCheck 0x10 (at_ true 0 0 (.g 1) (.g 1) (.g 2) 0) = none ∧ base.me.guard (at_ true 0 0 (.g 1) (.g 1) (.g 2) 0) = false ∧
    (let s := withCore { core0 with tasks := List.replicate 32 ⟨0, 9, 1, []⟩ };
      s.preCheck 0x30 (fl (.port 7) (.port 7) .none 0) = none ∧ s.me.guard (fl (.port 7) (.port 7) .none 0) = true ∧
        s.pushBlocked 0x30 (fl (.port 7) (.port 7) .none 0) = some (.portFull 7)) := by
  decide +kernel

theorem witness_IllegalOpcodesFault :
    formsOf (0x0E : BitVec 8).toNat = [] ∧ (Instr.idle (fl .none .none .none 0)).word? = some (0xE9, fl .none .none .none 0) ∧
    privilegedOp (0xE9 : BitVec 8).toNat (fl .none .none .none 0) = true ∧ base.privileged = false := by
  decide +kernel

theorem witness_ExactFaultEntersTheTrapHandler :
    base.privileged = false ∧ base.me.kind ≠ .surrender ∧ base.me.kind ≠ .wrapup ∧ base.me.kind ≠ .trap ∧ base.me.inTrap = false ∧
      base.trapHandler base.cur = some 2 := by decide +kernel

/-- A wrap-up firing, a trap firing, a trap handler in the slot, and an image with no trap handler. -/
theorem witness_ExactFaultEndsTheLaunch :
    (∀ s ∈ [withSlot { runner with kind := .wrapup }, withSlot { runner with kind := .trap }, withSlot { runner with inTrap := true },
        { base with images := [(0, { image with trap := none })] }],
      s.privileged = false ∧ s.me.kind ≠ .surrender ∧ s.launch? s.me.launch = some live ∧
        (s.me.kind = .wrapup ∨ s.me.kind = .trap ∨ s.me.inTrap = true ∨ s.trapHandler s.cur = none)) ∧ live.phase ≠ .ending := by
  decide +kernel

theorem witness_ReturnFromTrapResumes :
    (withSlot { runner with inTrap := true, trapCause := 0x11 }).issues 0xE1 (fl .none .none .none 0) ∧
    (withSlot { runner with inTrap := true, trapCause := 0x11 }).me.inTrap = true ∧
    (withSlot { runner with kind := .trap }).issues 0xE1 (fl .none .none .none 1) ∧ (withSlot { runner with kind := .trap }).me.inTrap = false :=
  ⟨issues_of (by decide +kernel), by decide +kernel, issues_of (by decide +kernel), by decide +kernel⟩

/-- A tagged word at an input channel, with and without a light handler, and at one while a light handler runs (R42, R189). -/
def tagged (light : Bool) (running : Bool) : State :=
  withCore { core0 with
    slots := [(0, { runner with handler := 5, light := running })]
    handlers := Tab.set handlers 5 ⟨0x2400048, if light then 0x8000804 else 0x804, 0, 0x42801⟩
    channels := [⟨5, 0, 1, 77, true, none, false, []⟩] }

theorem witness_OperandsReadAndWrite :
    base.peekPort (6 : BitVec 3).toNat = none ∧ words6.peekPort (6 : BitVec 3).toNat = some ⟨5, false, 1, []⟩ ∧ (⟨5, false, 1, []⟩ : QWord).tag = false ∧
    ((tagged true false).peekPort (0 : BitVec 3).toNat = some ⟨77, true, 1, []⟩ ∧ (tagged true false).lightOf (0 : BitVec 3).toNat = some 0) ∧
    ((tagged false false).peekPort (0 : BitVec 3).toNat = some ⟨77, true, 1, []⟩ ∧ (tagged false false).lightOf (0 : BitVec 3).toNat = none) ∧
    ((tagged true true).peekPort (0 : BitVec 3).toNat = some ⟨77, true, 1, []⟩ ∧ (tagged true true).lightOf (0 : BitVec 3).toNat = none) := by
  decide +kernel

/-- Fifteen and sixteen words on their way from core 0 to its neighbours (R90: 16 words each way). -/
def ringFull (n : Nat) : State := withCore { core0 with ringOut4 := List.replicate n ⟨0, false, 1, []⟩, ringOut5 := List.replicate n ⟨0, false, 1, []⟩ }
def ringWords : State := withCore { core0 with ring4 := [⟨1, false, 1, []⟩], ring5 := [⟨2, false, 1, []⟩] }
/-- The words of an own command so far; and a command without arguments whose last word is the next. -/
def commanding (cmd : List Word) : State := withSlot { runner with cmd := cmd }
def copyWords : List Word := [0, 0x3A00000, 0x4000000000000000, 0x4000000000000040, 8]
def asTask : State := withSlot { runner with task := some 7 }
/-- A task queue with n entries. -/
def tasked (n : Nat) : State := withCore { core0 with tasks := List.replicate n ⟨0, 9, 1, []⟩ }

theorem witness_RingPortsPopAndPush :
    ringWords.here.ring4 = ⟨1, false, 1, []⟩ :: [] ∧ ringWords.here.ring5 = ⟨2, false, 1, []⟩ :: [] ∧
    (ringFull 15).here.ringOut4.length + ((ringFull 15).core (succOf (ringFull 15).cur)).ring5.length < 16 ∧
    ¬ (ringFull 16).here.ringOut4.length + ((ringFull 16).core (succOf (ringFull 16).cur)).ring5.length < 16 ∧
    (ringFull 15).here.ringOut5.length + ((ringFull 15).core (predOf (ringFull 15).cur)).ring4.length < 16 ∧
    ¬ (ringFull 16).here.ringOut5.length + ((ringFull 16).core (predOf (ringFull 16).cur)).ring4.length < 16 ∧
    words6.here.completions = ⟨5, false, 1, []⟩ :: [⟨6, true, 1, []⟩] ∧ asTask.me.task = some 7 ∧
    ((tasked 1).me.task = none ∧ (tasked 1).here.tasks.find? (fun t => t.launch == (tasked 1).me.launch) = some ⟨0, 9, 1, []⟩) ∧
    (([] : List Word) ++ [5]).length = 1 ∧ (copyWords.length < 3 + 3 ∧ (copyWords.getD 1 0).toNat / 2 ^ 24 % 16 = 3) ∧
    (let words := (commanding copyWords).me.cmd ++ [0x4000000000000400]
     words.length = 6 ∧ (words.getD 1 0).toNat / 2 ^ 24 % 16 + 3 ≤ words.length ∧ words.length ≤ 16) ∧
    (match (commanding []).sendCommand 0 true 0x3A00000 [0x4000000000000000, 0x4000000000000040, 8] 0x4000000000000400 with
      | .ok _ => true | .error _ => false) = true ∧
    16 ≤ (commanding (List.replicate 16 0xF000000)).me.cmd.length ∧ (tasked 31).here.tasks.length < 32 ∧ ¬ (tasked 32).here.tasks.length < 32 := by
  decide +kernel

theorem witness_NopYieldFence : ∀ e ∈ [(0x00, fl .none .none .none 0), (0x07, fl .none .none .none 0), (0x94, fl .none .none .none 0x64)],
    base.issues e.1 e.2 := issues_all (by decide +kernel)

/-- g4 is 4 and g6 is 1, so LOOP ends at g6 and goes on at g4; RET by a register and with none; JTAB with its bound 0 and a negative one. -/
theorem witness_ControlTransfers : (∀ e ∈ [(0x01, fl .none (.imm (-1)) .none 0), (0x02, fl .none (.g 4) .none 0), (0x03, fl (.g 31) (.imm 2) .none 0),
    (0x03, fl (.g 31) (.g 4) .none 0), (0x04, fl .none (.g 4) .none 0), (0x04, fl .none .none .none 0), (0x05, fl (.g 4) (.imm (-1)) .none 0),
    (0x05, fl (.g 6) (.imm (-1)) .none 0), (0x08, fl .none (.g 4) (.imm 0) 0), (0x08, fl .none (.g 4) (.imm (-1)) 0)],
    (withSlot { runner with g := runner.g.set 6 1 }).issues e.1 e.2) ∧ (-1 : BitVec 17).toInt < 0 :=
  ⟨issues_all (by decide +kernel), by decide⟩

theorem witness_EndTrapAndBreak : ∀ e ∈ [(0x06, fl .none .none .none 0), (0x09, fl .none (.imm 65535) .none 0), (0x09, fl .none (.g 3) .none 0),
    (0x0C, fl .none (.imm 7) .none 0), (0x0C, fl .none .none .none 0)], Ready base e.1 e.2 := ready_all (by decide +kernel)

/-- A firing whose wait was seen to hold, and a wrap-up firing at a quiet point (R146). -/
def sawFlip : State := withSlot { runner with met := some 0x1000000000000 }
def quietWrap : State := withSlot { runner with kind := .wrapup, handler := 4 }
/-- A job's bytes lie over the barrier (R94). -/
def boarded : State := withCore { core0 with scoreboard := [⟨0x400, 0x408, 3⟩] }

/-- Waits on a barrier whose phase is 0, at both ends of the count's range, and for device time (R192, R194, R195). -/
theorem witness_WaitsCompleteOrStall :
    (Ready sawFlip 0x0A (fl (.g 6) (.mem 1 0) (.imm 1) 0) ∧ sawFlip.me.met = some 0x1000000000000 ∧ sawFlip.scoreboarded (poolAt 0 0x400) 16 = false ∧
      sawFlip.badWord (poolAt 0 0x400) 16 = none) ∧
    (Ready quietWrap 0x0A (fl (.g 6) (.mem 1 0) (.imm 1) 0) ∧ (quietWrap.wordAt (poolAt 0 0x400)).getLsbD 48 ≠ (1 : Word).getLsbD 0 ∧
      quietWrap.me.met = none ∧ quietWrap.me.kind = .wrapup ∧ quietWrap.outstanding 1 = [] ∧ quietWrap.arrayBusy 1 = false) ∧
    (words6.me.met = none ∧ ∃ x : BitVec 17, (.imm 16 : Operand) = .imm x) ∧
    Ready base 0x0A (fl (.g 6) (.mem 1 0) (.imm 0) 0) ∧ base.checkLocal (base.addr (.mem 1 0) 16) 16 16 = .ok (poolAt 0 0x400) ∧
    immOutside (.imm 0) 0 1 = false ∧ (base.wordAt (poolAt 0 0x400)).getLsbD 48 = (0 : Word).getLsbD 0 ∧
    (base.badWord (poolAt 0 0x400) 16 = none ∧ (match (base.waited (poolAt 0 0x400)).dst (.g 6) 0 with | .ok _ => true | .error _ => false) = true ∧
      boarded.scoreboarded (poolAt 0 0x400) 16 = true ∧ Ready boarded 0x0A (fl (.g 6) (.mem 1 0) (.imm 1) 0)) ∧
    Ready base 0x0A (fl (.g 6) (.mem 1 0) (.imm 1) 0) ∧ immOutside (.imm 1) 0 1 = false ∧
    (base.wordAt (poolAt 0 0x400)).getLsbD 48 ≠ (1 : Word).getLsbD 0 ∧ base.me.kind ≠ .wrapup ∧
    (words6.issues 0x0B (fl (.g 6) (.port 6) (.imm 1) 0) ∧ immOutside (.imm 1) 1 1024 = false ∧ 1 ≤ words6.portDepth 6 ∧ 1 ≤ words6.portCount 6) ∧
    (words6.issues 0x0B (fl (.g 6) (.port 6) (.imm 16) 0) ∧ 16 ≤ words6.portDepth 6 ∧ words6.portCount 6 < 16) ∧
    (Ready base 0x0D (fl .none (.imm 0) .none 0) ∧ immOutside (.imm 0) 0 65535 = false ∧ base.me.wake = none) ∧
    (Ready base 0x0D (fl .none (.imm 65535) .none 0) ∧ immOutside (.imm 65535) 0 65535 = false) ∧
    (Ready (withSlot { runner with wake := some 0 }) 0x0D (fl .none (.imm 9) .none 0) ∧
      (withSlot { runner with wake := some 0 }).me.wake = some 0 ∧ 0 ≤ (withSlot { runner with wake := some 0 }).now) := by
  have h := ready_all (s := base) (l := [(0x0A, fl (.g 6) (.mem 1 0) (.imm 0) 0), (0x0A, fl (.g 6) (.mem 1 0) (.imm 1) 0), (0x0D, fl .none (.imm 0) .none 0),
    (0x0D, fl .none (.imm 65535) .none 0)]) (by decide +kernel)
  have h' := ready_all (s := withSlot { runner with wake := some 0 }) (l := [(0x0D, fl .none (.imm 9) .none 0)]) (by decide +kernel)
  simp only [List.mem_cons, List.not_mem_nil, or_false, forall_eq_or_imp, forall_eq] at h h'
  exact ⟨⟨ready_of (by decide +kernel), by decide +kernel, by decide +kernel, by decide +kernel⟩,
    ⟨ready_of (by decide +kernel), by decide +kernel, by decide +kernel, by decide +kernel, by decide +kernel, by decide +kernel⟩,
    ⟨by decide +kernel, 16, rfl⟩, h.1, gives_of (by decide +kernel), by decide, by decide +kernel,
    ⟨by decide +kernel, by decide +kernel, by decide +kernel, ready_of (by decide +kernel)⟩, h.2.1, by decide, by decide +kernel, by decide +kernel,
    ⟨issues_of (by decide +kernel), by decide, by decide +kernel, by decide +kernel⟩, ⟨issues_of (by decide +kernel), by decide +kernel, by decide +kernel⟩,
    ⟨h.2.2.1, by decide, by decide +kernel⟩, ⟨h.2.2.2, by decide⟩, h', by decide +kernel, by decide +kernel⟩

/-- Files and destinations of MOV; a port as destination has room for a push. -/
theorem witness_MovCopies : (∀ e ∈ [(0x30, fl (.g 6) (.imm 0x10000) .none 0), (0x30, fl (.v 31) (.v 0) .none 0), (0x30, fl (.p 7) (.p 0) .none 0),
    (0x30, fl (.w 7) (.w 0) .none 0), (0x30, fl (.m 3) (.m 0) .none 0)], Ready base e.1 e.2) ∧
    base.issues 0x30 (fl (.port 4) (.g 3) .none 0) ∧ ∃ t, base.dst (.port 4) 3 = .ok t :=
  ⟨ready_all (by decide +kernel), issues_of (by decide +kernel), ok_of (by decide +kernel)⟩

theorem witness_ChunksAndSelections : ∀ e ∈ [(0x31, fl (.g 6) (.imm 65535) .none 3), (0x32, fl (.g 6) (.g 3) (.imm 2) 7), (0x32, fl (.p 7) (.p 1) (.p 2) 0),
    (0x32, fl (.v 6) (.v 3) (.v 2) 1)], Ready base e.1 e.2 := ready_all (by decide +kernel)

theorem witness_ComparesSetPredicates : (∀ e ∈ [(0x33, fl (.p 7) (.g 3) (.imm 2) 6), (0x3E, fl (.w 7) (.v 3) (.v 2) 0x66)], Ready base e.1 e.2) ∧
    7 ≤ (fl (.p 7) (.g 3) (.imm 2) 7).modf.toNat % 16 := ⟨ready_all (by decide +kernel), by decide⟩

theorem witness_PredicateLogic : (∀ op ∈ [0x34, 0x35, 0x36], Ready base op (fl (.p 7) (.p 0) (.p 2) 1) ∧ Ready base op (fl (.w 7) (.w 0) (.w 2) 1)) ∧
    2 ≤ (fl (.p 7) (.p 0) (.p 2) 2).modf.toNat := by
  have h := ready_all (s := base) (l := [0x34, 0x35, 0x36].flatMap (fun op => [(op, fl (.p 7) (.p 0) (.p 2) 1), (op, fl (.w 7) (.w 0) (.w 2) 1)])) (by decide +kernel)
  refine ⟨fun op hop => ⟨h (op, _) ?_, h (op, _) ?_⟩, by decide⟩ <;> exact List.mem_flatMap.mpr ⟨op, hop, by simp [fl, at_]⟩

theorem witness_MovesBetweenFiles : (∀ e ∈ [(0x37, fl (.g 6) (.mem 1 (-2048)) .none 0), (0x38, fl (.g 6) (.sys 0x10) .none 0), (0x38, fl (.sys 0x41) (.imm 9) .none 0),
    (0x39, fl (.g 6) (.w 0) .none 0), (0x39, fl (.g 6) (.p 7) .none 0), (0x39, fl (.w 7) (.g 6) .none 0), (0x39, fl (.p 7) (.g 6) .none 0),
    (0x38, fl (.sys 0x41) (.g 0) .none 0), (0x39, fl (.g 6) (.m 3) (.imm 3) 0), (0x39, fl (.m 3) (.g 6) (.imm 0) 0)], Ready base e.1 e.2) ∧
    (3 : BitVec 17).toNat ≤ 3 ∧ (base.me.readG 0).setWidth 32 = (0 : BitVec 32) ∧
    base.sysRead (0x10 : BitVec 17).toNat = some 0 ∧ immOutside (.imm 0) 0 3 = false ∧ immOutside (.imm 3) 0 3 = false :=
  ⟨ready_all (by decide +kernel), by decide, by decide +kernel, by decide +kernel, by decide, by decide⟩

theorem witness_LaneMoves : (∀ e ∈ [(0x3A, fl (.v 6) (.g 3) .none 0), (0x3B, fl (.v 6) (.imm (-1)) .none 0x60), (0x3B, fl (.v 6) (.v 3) (.imm 9) 0),
    (0x3C, fl (.g 6) (.v 3) (.imm (-1)) 0x70), (0x3D, fl (.v 6) (.g 3) (.imm 8) 0)], Ready base e.1 e.2) ∧ ∀ n, (.imm (-1) : Operand) ≠ .v n :=
  ⟨ready_all (by decide +kernel), fun _ => by simp⟩

/-! Floating point -/

/-- A float entry's fields in a shape: the unary entries take no B. -/
def floatForm (d a b : Operand) (m : BitVec 16) (op : Nat) : Nat × Fields := (op, fl d a (if (formsOf op).any (fun x => admitsAny x.b b) then b else .none) m)

theorem witness_ScalarFloatResults : ∀ e ∈ roundedEntries.map (fun e => floatForm (.g 6) (.g 3) (.g 4) 0x500 e.op), Ready base e.1 e.2 ∧ ∀ n, e.2.d ≠ .v n := by
  intro e he
  refine ⟨ready_all (by decide +kernel) e he, fun n => ?_⟩
  obtain ⟨x, -, rfl⟩ := List.mem_map.mp he
  simp [floatForm, fl, at_]

theorem witness_VectorFloatResults : ∀ e ∈ roundedEntries.map (fun e => floatForm (.v 6) (.v 3) (.v 4) 0x1080 e.op), Ready base e.1 e.2 :=
  ready_all (by decide +kernel)

theorem witness_UnroundedFloatResults :
    ∀ e ∈ rawEntries.flatMap (fun e => [floatForm (.g 6) (.g 3) (.g 4) 0x800 e.op, floatForm (.v 6) (.v 3) (.v 4) 0x800 e.op]) ++
      [(0x4A, fl (.p 7) (.g 3) (.g 4) 0xD), (0x4A, fl (.w 7) (.v 3) (.v 4) 0x1000)], Ready base e.1 e.2 := ready_all (by decide +kernel)

theorem witness_ScalarConversions : ∀ e ∈ [(0x53, fl (.g 6) (.g 3) (.imm (-9)) 0), (0x54, fl (.g 6) (.g 3) .none 0xF800), (0x56, fl (.g 6) (.g 3) .none 0x10),
    (0x55, fl (.g 6) (.g 3) .none 0x80), (0x58, fl (.g 6) (.v 3) (.v 4) 0x3800), (0x6B, fl (.g 6) (.v 3) (.v 4) 1)], Ready base e.1 e.2 :=
  ready_all (by decide +kernel)

theorem witness_VectorConversions : (∀ e ∈ [(0x53, fl (.v 6) (.v 3) (.imm (-9)) 0), (0x53, fl (.v 6) (.v 3) (.v 4) 0), (0x54, fl (.v 6) (.v 3) (.imm 1) 1),
    (0x54, fl (.v 6) (.v 3) (.imm 1) 0x800), (0x54, fl (.v 6) (.v 3) .none 0), (0x55, fl (.v 6) (.v 3) .none 0), (0x56, fl (.v 6) (.v 3) .none 0x10)], Ready base e.1 e.2) ∧
    fmtWidth 1 < fmtWidth 0 ∧ fmtWidth 1 ≤ fmtWidth 0 ∧ ∀ x, (.v 4 : Operand) ≠ .imm x :=
  ⟨ready_all (by decide +kernel), by decide, by decide, fun _ => by simp⟩

theorem witness_BlocksAndPlanes : (∀ e ∈ [(0x59, fl (.v 6) (.v 3) (.v 4) 0xB800), (0x59, fl (.v 6) (.v 3) .none 0xF001), (0x59, fl (.v 6) (.v 3) (.v 4) 0xE000),
    (0x5A, fl (.v 6) (.v 3) (.imm 1) 0x1C), (0x5B, fl (.g 6) (.v 3) (.imm 7) 0), (0x5C, fl (.v 6) (.g 3) (.imm 0) 0)], Ready base e.1 e.2) ∧
    (fl (.v 6) (.v 3) (.v 4) 0xE000).fmt = 28 ∧ (fl (.v 6) (.v 3) (.v 4) 0xB800).fmt ≠ 28 ∧
    immOutside (.imm 1) 0 1 = false ∧ immOutside (.imm 7) 0 7 = false ∧ immOutside (.imm 0) 0 7 = false :=
  ⟨ready_all (by decide +kernel), by decide, by decide, by decide, by decide, by decide⟩

/-! Vectors and memberships -/

theorem witness_LanePermutes : ∀ e ∈ permutes.map (fun e => (e.op, fl (.v 6) (.v 3) (.v 4) 0)) ++ [(0x62, fl (.v 6) (.v 3) (.imm (-1)) 1), (0x65, fl (.v 6) (.v 3) (.w 0) 0),
    (0x66, fl (.v 6) (.v 3) (.w 7) 1), (0x6C, fl (.w 6) (.v 3) (.v 4) 0), (0x6C, fl (.w 6) (.v 3) .none 1)], Ready base e.1 e.2 := ready_all (by decide +kernel)

/-- VTOPK with k at both ends of each of its ranges, and outside them. -/
theorem witness_ReductionsAndSorts : ∀ e ∈ [(0x67, fl (.g 6) (.v 3) .none 0), (0x67, fl (.g 6) (.v 3) (.w 7) 0x63), (0x67, fl (.g 6) (.v 3) (.w 7) 5),
    (0x68, fl (.v 6) (.v 3) .none 8), (0x6D, fl (.v 6) (.v 3) (.w 7) 0), (0x6A, fl (.v 6) (.v 3) .none 0x10), (0x6A, fl (.v 6) (.v 3) .none 0xC),
    (0x69, fl (.v 6) (.v 3) (.imm 1) 0), (0x69, fl (.v 6) (.v 3) (.imm 8) 1), (0x69, fl (.v 6) (.v 3) (.imm 9) 0), (0x69, fl (.v 6) (.v 3) (.imm 16) 0),
    (0x69, fl (.v 6) (.v 3) (.imm 0) 0), (0x69, fl (.v 6) (.v 3) (.imm 17) 0)], Ready base e.1 e.2 := ready_all (by decide +kernel)

/-- MCNT and MFIND with and without B. -/
theorem witness_MembershipLogic : ∀ e ∈ [(0x70, fl (.m 3) .none .none 1), (0x70, fl (.m 3) .none (.imm 255) 4), (0x71, fl (.m 3) (.m 0) (.m 1) 0),
    (0x72, fl (.m 3) (.m 0) (.v 31) 0), (0x73, fl (.m 3) (.m 0) (.m 1) 0), (0x74, fl (.g 6) (.m 0) .none 0), (0x74, fl (.g 6) (.m 0) (.imm 256) 0),
    (0x75, fl (.g 6) (.m 0) (.imm 255) 0), (0x75, fl (.g 6) (.m 0) .none 1), (0x76, fl (.m 2) (.m 0) (.m 1) 0), (0x76, fl (.m 3) (.m 0) (.m 1) 0)],
    Ready base e.1 e.2 := ready_all (by decide +kernel)

/-- MFIND's results on an empty membership, and on one that holds slots 0 and 255. -/
theorem witness_MFIND :
    (∀ i, 255 ≤ i → i < 256 → ((0 : Members)).getLsbD i = false) ∧
    (let m : Members := 1 ||| (1 : Members) <<< 255;
      m.getLsbD 255 = true ∧ (∀ i, 255 ≤ i → i < 255 → m.getLsbD i = false) ∧ m.getLsbD 0 = true ∧ ∀ i, 0 < i → i ≤ 0 → m.getLsbD i = false) := by
  refine ⟨by intros; simp, by decide, fun i h h' => by omega, by decide, fun i h h' => by omega⟩

theorem witness_MembershipMoves : ∀ e ∈ [(0x77, fl (.m 3) (.m 0) (.w 1) 0), (0x7B, fl (.v 6) (.m 0) .none 0), (0x7B, fl (.v 6) (.m 0) (.imm 3) 1),
    (0x7C, fl (.m 3) (.v 6) .none 0), (0x7C, fl (.m 3) (.v 6) .none 1)], Ready base e.1 e.2 := ready_all (by decide +kernel)

/-! Local memory -/

/-- Addresses in the scratchpad and the store, and their places. -/
def P (n : Nat) : Word := 0x4000000000000000 + word n
def S (n : Nat) : Word := 0x5000000000000000 + word n

/-- The scratchpad's limit on core 0 is 63,456 bytes: 62 KiB less four channel words. -/
theorem witness_LocalAddressesAreChecked :
    base.poolLimit base.cur = 63456 ∧ pathOf (0 : Word) ≠ 4 ∧ pathOf (0 : Word) ≠ 5 ∧ pathOf (P 1) = 4 ∧ (P 1).toNat % 8 ≠ 0 ∧
    ((P 63456).toNat % 8 = 0 ∧ (P 63456).toNat < 4 * 2 ^ 60 + 2 ^ 17 ∧ base.poolLimit base.cur < (P 63456).toNat - 4 * 2 ^ 60 + 8) ∧
    ((P 63448).toNat % 8 = 0 ∧ pathOf (P 63448) = 4 ∧ (P 63448).toNat - 4 * 2 ^ 60 + 8 ≤ base.poolLimit base.cur) ∧
    (pathOf (S 524280) = 5 ∧ (S 524280).toNat % 8 = 0 ∧ (S 524280).toNat < 5 * 2 ^ 60 + 2 ^ 19 ∧ 524288 < (S 524280).toNat - 5 * 2 ^ 60 + 64) ∧
    (pathOf (S 8184) = 5 ∧ (S 8184).toNat % 8 = 0 ∧ (S 8184).toNat - 5 * 2 ^ 60 + 8 ≤ 524288 ∧
      ∀ g ∈ granulesOf ((S 8184).toNat - 5 * 2 ^ 60) 8, Tab.get .free (base.cluster (clusterOf base.cur)).granules g = .image) := by
  decide +kernel

theorem witness_LoadsReadMemory :
    Goes base 0x80 (fl (.g 6) (.mem 1 0) .none 0) ∧ base.reach (base.addr (.mem 1 0) 8) 8 8 = .ok (poolAt 0 0x400) ∧
    Goes base 0x82 (fl (.v 6) (.mem 2 (-16)) .none 0) ∧ base.reach (base.addr (.mem 2 (-16)) 64) 64 8 = .ok (storeAt 0 0) ∧
    Ready base 0x78 (fl (.v 6) (.mem 1 0) (.imm 3) 0) ∧ base.reach (base.addr (.mem 1 0) 64 + word ((3 : Word).toNat % 256 * 2 ^ (6 + 0 % 16))) 64 64 = .ok (poolAt 0 0x4C0) ∧
    Goes base 0x84 (fl (.v 6) (.mem 1 0) (.v 3) 0) ∧ base.laneReach (fl (.v 6) (.mem 1 0) (.v 3) 0) = .ok (List.replicate 8 (some (poolAt 0 0x400))) ∧
    Goes base 0x8B (fl (.p 6) (.mem 1 0) .none 0) := by
  and_intros
  all_goals first | exact goes_of (by decide +kernel) | exact ready_of (by decide +kernel) | exact gives_of (by decide +kernel)

theorem witness_StoresWriteOnlyTheirBytes :
    Ready base 0x81 (fl .none (.mem 1 0) (.imm 3) 0) ∧ Goes base 0x83 (fl .none (.mem 2 (-16)) (.v 3) 0) ∧
    Goes base 0x85 (fl (.v 6) (.mem 1 0) (.v 3) 0x60) ∧
    base.laneReach (fl (.v 6) (.mem 1 0) (.v 3) 0x60) = .ok (List.replicate 64 (some (poolAt 0 0x400))) ∧
    (∀ j b' : Nat, 63 < j → (List.replicate 64 (some (poolAt 0 0x400)))[j]? = some (some b') → b' ≠ poolAt 0 0x400) := by
  refine ⟨?_, ?_, ?_, ?_, fun j b' h h' => by rw [List.getElem?_eq_none (by simp; omega)] at h'; simp at h'⟩
  all_goals first | exact goes_of (by decide +kernel) | exact ready_of (by decide +kernel) | exact gives_of (by decide +kernel)

/-- The word at P 0x400 full. -/
def filled : State := { base with full := [poolAt 0 0x400 / 8] }

theorem witness_FullEmptyAccesses :
    Goes filled 0x86 (fl (.g 6) (.mem 1 0) .none 0) ∧ Goes filled 0x87 (fl (.g 6) (.mem 1 0) .none 0) ∧ filled.reach (filled.addr (.mem 1 0) 8) 8 8 = .ok (poolAt 0 0x400) ∧
    filled.feReady (poolAt 0 0x400) true = true ∧ base.feReady (poolAt 0 0x400) true = false ∧
    Ready base 0x88 (fl .none (.mem 1 0) (.imm 3) 0) ∧ base.reach (base.addr (.mem 1 0) 8) 8 8 = .ok (poolAt 0 0x400) ∧
    base.feReady (poolAt 0 0x400) false = true ∧ filled.feReady (poolAt 0 0x400) false = false ∧
    Ready base 0x89 (fl .none (.mem 1 0) (.imm 3) 0) ∧ Goes base 0x8A (fl .none (.mem 1 0) .none 1) ∧
    Goes base 0x86 (fl (.g 6) (.mem 1 0) .none 0) ∧ Ready filled 0x88 (fl .none (.mem 1 0) (.imm 3) 0) ∧
    Goes base 0x87 (fl (.g 6) (.mem 1 0) .none 0) ∧ base.checkLocal (base.addr (.mem 1 0) 8) 8 8 = .ok (poolAt 0 0x400) ∧
    filled.checkLocal (filled.addr (.mem 1 0) 8) 8 8 = .ok (poolAt 0 0x400) ∧
    (∃ t, (filled.loaded (fl (.g 6) (.mem 1 0) .none 0) (poolAt 0 0x400) 8).dst (.g 6) 0 = .ok t) ∧ base.dstReady (.g 6) = .ok () ∧
    (Goes (ringFull 16) 0x86 (fl (.port 4) (.mem 1 0) .none 0) ∧ Goes (ringFull 16) 0x87 (fl (.port 4) (.mem 1 0) .none 0) ∧
      (ringFull 16).checkLocal ((ringFull 16).addr (.mem 1 0) 8) 8 8 = .ok (poolAt 0 0x400) ∧
      (match (ringFull 16).dstReady (.port 4) with | .error (.stall w) => decide (w = .portFull 4) | _ => false) = true) := by
  and_intros
  all_goals first | decide +kernel | exact goes_of (by decide +kernel) | exact ready_of (by decide +kernel) | exact gives_of (by decide +kernel) |
    exact ok_of (by decide +kernel)

theorem witness_LocalAtomics : Ready base 0x8C (fl (.g 6) (.mem 1 0) (.imm 3) 9) ∧ base.reach (base.addr (.mem 1 0) 8) 8 8 = .ok (poolAt 0 0x400) ∧
    10 ≤ (fl (.g 6) (.mem 1 0) (.imm 3) 10).modf.toNat := by
  and_intros
  all_goals first | decide +kernel | exact ready_of (by decide +kernel) | exact gives_of (by decide +kernel)

/-! Barriers, channels, gangs, handlers -/

/-- A barrier at P 0x400 with a count. -/
def counted (n : Nat) : State := { base with mem := Mem.writeN [] (poolAt 0 0x400) 8 n }
/-- g4 holds the greatest count. -/
def greatest48 : State := withSlot { runner with g := runner.g.set 4 0xFFFFFFFFFFFF }
/-- The same, at a barrier that has a count and a reload. -/
def greatestAt (n r : Nat) : State := { greatest48 with mem := Mem.writeN (Mem.writeN [] (poolAt 0 0x400) 8 n) (poolAt 0 0x408) 8 r }

theorem witness_BarrierOperations :
    (Ready greatest48 0x90 (fl .none (.mem 1 0) (.g 4) 0) ∧ greatest48.reach (greatest48.addr (.mem 1 0) 16) 16 16 = .ok (poolAt 0 0x400) ∧
      (greatest48.me.readG 4).toNat < 2 ^ 48 ∧ Ready greatest48 0x91 (fl .none (.mem 1 0) (.g 4) 0) ∧
      (greatest48.wordAt (poolAt 0 0x400)).toNat % 2 ^ 48 + (greatest48.me.readG 4).toNat < 2 ^ 48) ∧
    (∀ e ∈ [(0, 0, false), (0, 1, true), (1, 0, false)], (let b := barrierAt (greatestAt e.1 e.2.1) (poolAt 0 0x400)
      decide (2 ^ 48 ≤ b.remaining + (greatest48.me.readG 4).toNat) = (e.1 == 1) ∧ decide (2 ^ 48 ≤ b.reload + (greatest48.me.readG 4).toNat) = e.2.2)) ∧
    (Ready (greatestAt 1 1) 0x91 (fl .none (.mem 1 0) (.g 4) 1) ∧ (greatestAt 1 1).reach ((greatestAt 1 1).addr (.mem 1 0) 16) 16 16 = .ok (poolAt 0 0x400)) ∧
    (Ready (counted 2) 0x92 (fl .none (.mem 1 0) (.imm 0) 0) ∧ (counted 2).me.st ≠ .stalled ∧ Ready (greatestAt 2 1) 0x92 (fl .none (.mem 1 0) (.g 4) 0) ∧
      (barrierAt (greatestAt 2 1) (poolAt 0 0x400)).remaining < (greatest48.me.readG 4).toNat) ∧
    (Ready (counted 2) 0x92 (fl .none (.mem 1 0) (.imm 1) 0) ∧ 0 < (1 : Word).toNat ∧ (1 : Word).toNat < ((counted 2).wordAt (poolAt 0 0x400)).toNat % 2 ^ 48) ∧
    (Ready (counted 1) 0x92 (fl .none (.mem 1 0) (.imm 1) 0) ∧ (1 : Word).toNat = ((counted 1).wordAt (poolAt 0 0x400)).toNat % 2 ^ 48) ∧
    Ready base 0x93 (fl (.g 6) (.mem 1 0) .none 2) ∧ Ready base 0x93 (fl (.g 6) (.mem 1 0) .none 0) ∧ Ready base 0x90 (fl .none (.mem 1 0) (.g 2) 0) ∧ 2 ^ 48 ≤ (base.me.readG 2).toNat := by
  and_intros
  all_goals first | decide +kernel | exact ready_of (by decide +kernel) | exact gives_of (by decide +kernel)

/-- Slot 0 runs handler 5, which has an output channel; and the same with the request queue full. -/
def sender : State := withSlot { runner with handler := 5 }
def blockedSender : State :=
  { base with cores := [(0, { core0 with slots := [(0, { runner with handler := 5 })], outReq := List.replicate 16 ⟨0, 0, false, 1, false, false, 0, 0, 0x95, []⟩ })] }

/-- The sends of R249 and R253 to output channel 4, whose word is the greatest control value; and whether they name it. -/
def sends : List (Nat × Fields) :=
  [(0x95, fl .none (.imm 4) (.imm 9) 0), (0x96, fl .none (.imm 4) (.imm 9) 0), (0x97, fl (.p 1) (.imm 4) (.imm 9) 0), (0x9A, fl .none (.imm 4) (.imm 255) 0)]
def toOutput4 (s : State) (op : Nat) (o : Operand) : Bool := match s.sendDest op o with | .ok (.output 4, t) => decide (t = s) | _ => false

theorem witness_SendsEnterOrBlock :
    (∀ e ∈ sends, Ready sender e.1 e.2) ∧ (∀ e ∈ sends, Ready blockedSender e.1 e.2) ∧
    (∀ e ∈ sends, toOutput4 sender e.1 e.2.a = true ∧ toOutput4 blockedSender e.1 e.2.a = true) ∧
    sender.sendBlocked (.output 4) 0 = none ∧ blockedSender.sendBlocked (.output 4) 0 = some (.outQueue 0) ∧ controlValue 255 = true ∧
    Ready sender 0x9A (fl .none (.imm 4) (.imm 1) 0) ∧ controlValue 1 = true ∧ Goes sender 0x9A (fl (.port 5) (.imm 3) .none 0) ∧
    Goes sender 0x9A (fl (.port 6) (.imm 3) .none 0) ∧ 6 ≤ (6 : BitVec 3).toNat ∧
    (Goes (ringFull 16) 0x9A (fl (.port 5) (.imm 3) .none 0) ∧
      (match (ringFull 16).pushRing (5 : BitVec 3).toNat 3 true with | .error (.stall w) => decide (w = .portFull 5) | _ => false) = true) ∧
    controlValue 3 = true ∧ ∃ t, sender.pushRing 5 3 true = .ok t := by
  and_intros
  all_goals first | decide +kernel | exact ready_of (by decide +kernel) | exact goes_of (by decide +kernel) | exact ok_of (by decide +kernel) | exact ready_all (by decide +kernel)

theorem witness_ReceivesAndCounts :
    Goes words6 0x98 (fl (.g 6) (.port 6) .none 0) ∧ Goes words6 0x98 (fl (.g 6) (.port 6) .none 9) ∧ Goes words6 0x99 (fl (.g 6) (.port 6) .none 9) ∧
    words6.peekPort (6 : BitVec 3).toNat = some ⟨5, false, 1, []⟩ ∧
    Goes base 0x98 (fl (.g 6) (.port 6) .none 0) ∧ Goes base 0x99 (fl (.g 6) (.port 6) .none 0) ∧ base.peekPort (6 : BitVec 3).toNat = none ∧
    Goes words6 0x9B (fl (.g 6) (.port 6) .none 0) ∧ Goes sender 0x9B (fl (.g 6) (.imm 4) .none 0) ∧
    outPresent ((sender.here.handler sender.me.handler).output (4 : BitVec 17).toNat) = true := by
  and_intros
  all_goals first | decide +kernel | exact goes_of (by decide +kernel)

/-- The launch has expired on the core; and slot 1 has asked for a gang. -/
def late : State := withCore { core0 with expired := [1] }
def asked : State := withCore { core0 with gang := some ⟨1, 3, 1, false, none⟩ }

theorem witness_GangsHandlersAndSpawns :
    (Goes words6 0x9C (fl .none (.port 6) .none 0) ∧ words6.here.gang = none ∧ words6.peekPort 6 = some ⟨5, false, 1, []⟩) ∧
    (Ready asked 0x9C (fl .none (.imm 3) .none 0) ∧ asked.here.gang = some ⟨1, 3, 1, false, none⟩) ∧
    ((tasked 31).stopped (tasked 31).cur 1 = false ∧ Ready late 0x9F (fl (.p 1) (.imm 9) .none 0x14) ∧ late.here.tasks.length < 32 ∧ late.stopped late.cur 1 = true ∧
      (late.here.handler (0x14 / 4)).kindBits = 0) ∧
    (Ready base 0x9F (fl (.p 1) (.imm 9) .none 0x15) ∧ Ready base 0x9F (fl (.p 1) (.imm 9) .none 0x16) ∧ (0x15 : BitVec 16).toNat % 4 = 1 ∧ (0x16 : BitVec 16).toNat % 4 = 2 ∧
      (base.here.handler (0x15 / 4)).kindBits = 0 ∧ base.stopped (succOf base.cur) 1 = false ∧ succOf base.cur = 1 ∧ predOf base.cur = 7) ∧
    Ready base 0x9C (fl .none (.imm 3) .none 0) ∧ base.here.gang = none ∧ Ready base 0x9D (fl .none (.imm 0) .none 1) ∧ (base.here.handler 0).kindBits ≤ 1 ∧
    (31 : Word).toNat ≤ 31 ∧ Ready base 0x9E (fl .none (.imm 1) (.imm 3) 0) ∧ (base.here.handler 1).kindBits ≤ 1 ∧
    Ready (tasked 31) 0x9F (fl (.p 1) (.imm 9) .none 0x14) ∧ (0x14 : BitVec 16).toNat % 4 = 0 ∧ ((tasked 31).here.handler (0x14 / 4)).kindBits = 0 ∧
    (tasked 31).here.tasks.length < 32 ∧ Ready (tasked 32) 0x9F (fl (.p 1) (.imm 9) .none 0x14) ∧ ¬ (tasked 32).here.tasks.length < 32 := by
  and_intros
  all_goals first | decide +kernel | exact ready_of (by decide +kernel) | exact goes_of (by decide +kernel)

/-! Engine commands -/

/-- A slot whose registers from g8 hold a run. -/
def regsFrom8 (run : List Word) : Vector Word 32 := (List.range run.length).foldl (fun g i => g.setIfInBounds (8 + i) (run.getD i 0)) runner.g
def withRun (run : List Word) : State := withSlot { runner with g := regsFrom8 run }
/-- A run that each command accepts. -/
def runs : List (Nat × List Word) :=
  [(0xA0, [P 0, 64, 63456]), (0xA1, [P 0, P 64, 0x200000008, 64, -64]), (0xA2, [S 0, 64, 8192]), (0xA3, [0, P 0, 64]), (0xA4, [P 0, 0, P 64, 0x600000001, 1]),
   (0xA5, [0, P 0, P 64, 0x300000001, 2]), (0xA6, [0, 0x19, 1, 2, 3, 4]), (0xA7, [P 8, P 0, P 64, 0x1800000002, 9]), (0xA8, [S 8, 0, 1, 0, 0, 0, P 0]),
   (0xAC, [0xFFFF, P 0, 8, 1, 0, 0]), (0xAD, [P 0, 8, 0]), (0xAE, [0, 0, S 0, 8]), (0xC0, [0, 0, 0, P 64, 0x2000000000000000, 0]),
   (0xC1, [0, 0, 0, P 64, 0x2000000000000000, 0, 0xFFFFFFFF])]
/-- Does a run pass its checks with nothing to stall it, and the same with the request queue full, and fail with a barrier on path 0? -/
def accepted (op : Nat) (run : List Word) : Bool :=
  let s := withRun run
  let u := { base with cores := [(0, { core0 with slots := [(0, { runner with g := regsFrom8 run })], outReq := blockedSender.here.outReq })] }
  let f := fl .none (.mem 1 0) (.g 8) 0
  can s (op, f) && can u (op, f) && decide (s.run f.b run.length = run) && (s.sourceBad op run).isNone &&
  (match s.checkCommand op 0 run (s.addr f.a 16) with
    | .ok (_, rs) => (s.commandStall rs (isPosted op run) false).isNone && decide (u.commandStall rs (isPosted op run) false = some (.outQueue 0))
    | .error _ => false) &&
  (match u.checkCommand op 0 run (s.addr f.a 16) with | .ok _ => true | .error _ => false) &&
  (match s.checkCommand op 0 run 0 with | .error (.trap 0x04 0 0) => true | _ => false)

theorem witness_CommandsBecomeJobs : commands.map (·.2.1) = runs.map (·.1) ∧ (commands.map (·.2.2) = runs.map (fun e => e.2.length)) ∧
    (∀ e ∈ runs, accepted e.1 e.2 = true ∧ (withRun e.2).sourceWriters e.1 e.2 = []) ∧
    (let s : State := { withRun [0, P 0, 64] with jobs := [{ Job.blank with id := 0, launch := 1, opcode := 0xA0, run := [P 8, S 0, 8], total := 1 }] }
     can s (0xA3, fl .none (.mem 1 0) (.g 8) 0) = true ∧ s.sourceWriters 0xA3 [0, P 0, 64] = [0] ∧ s.run (.g 8) 3 = [0, P 0, 64] ∧
       (match s.checkCommand 0xA3 0 [0, P 0, 64] (s.addr (.mem 1 0) 16) with
         | .ok (_, rs) => (s.commandStall rs (isPosted 0xA3 [0, P 0, 64]) false).isNone | .error _ => false) = true) := by decide +kernel

/-- A formed gang that slot 0 of core 0 belongs to, and a gang sett that its launch holds. -/
def gangCore : Core := { core0 with gang := some ⟨1, 0, 0, true, none⟩ }
def gangSett : Sett := ⟨3, 1, true, 1, .held, .current, 0, 0, 0, 0, none, 0, none, none, 0⟩
def gangState (m : Mem) (g : Vector Word 32) : State :=
  { base with
    mem := m
    cores := [(0, { gangCore with slots := [(0, { runner with g := g })] })]
    clusters := [(0, { Cluster.initial with granules := [(0, .image)], tenant := some 0, setts := [gangSett] })] }
/-- Privileged: the frame of the handler issues. -/
def privileged (g : Vector Word 32) : State :=
  { base with curSlot := 8, cores := [(0, { core0 with slots := [(3, { runner with st := .frozen }), (8, { runner with launch := noLaunch, g := g })] })] }

/-- Is a command accepted with nothing to stall it? -/
def commandGoes (s : State) (op n : Nat) (f : Fields) : Bool :=
  can s (op, f) && match s.checkCommand op f.modf.toNat (s.run f.b n) (s.addr f.a 16) with
    | .ok (_, rs) => (s.commandStall rs false (f.modf.getLsbD 0)).isNone
    | .error _ => false

theorem witness_OtherEngineInstructions :
    (commandGoes (gangState [] (regsFrom8 [P 0, P 64, 0])) 0xA9 3 (fl .none (.mem 1 0) (.g 8) 0) = true ∧ (gangState [] runner.g).inGang = true) ∧
    (commandGoes (withRun [P 0, P 64, 8]) 0xA9 3 (fl .none (.mem 1 0) (.g 8) 1) = true ∧ (withRun [P 0, P 64, 8]).inGang = false) ∧
    Ready base 0xAA (fl .none (.mem 1 0) (.imm 1) 0) ∧ Ready base 0xAA (fl .none (.mem 1 0) (.imm 16) 0) ∧ base.reach (base.addr (.mem 1 0) 16) 96 8 = .ok (poolAt 0 0x400) ∧
    (∀ i ∈ List.range 6, (base.wordAt (poolAt 0 0x400 + 16 * i + 8)).toNat < 2 ^ 48) ∧
    (let s : State := { base with mem := Mem.writeN [] (poolAt 0 0x400 + 88) 8 (2 ^ 48) };
      Ready s 0xAA (fl .none (.mem 1 0) (.imm 16) 0) ∧ s.reach (s.addr (.mem 1 0) 16) 96 8 = .ok (poolAt 0 0x400) ∧
        2 ^ 48 ≤ (s.wordAt (poolAt 0 0x400 + 16 * 5 + 8)).toNat) ∧
    (let s := withRun [0x8100000000000000, 0x3A00000, P 0, P 64, 8];
      can s (0xAB, fl .none (.mem 1 0) (.g 8) 0) = true ∧ ∃ t, s.sendCommand 0x8100000000000000 false 0x3A00000 [P 0, P 64, 8] (s.addr (.mem 1 0) 16) = .ok t) ∧
    (let s := withRun [1, 0x100000001];
      Ready s 0xC2 (fl (.g 6) (.mem 1 0) (.g 8) 0) ∧ s.checkReach ⟨s.addr (.mem 1 0) 4, [4, 5], 4, 1, 0, 4, false⟩ = .ok () ∧
        pathSearch (s.readElement (s.addr (.mem 1 0) 4)) 1 33 0 1 = .ok 1) ∧
    (let s := withRun [1, 0x100000000];
      Ready s 0xC2 (fl (.g 6) (.mem 1 0) (.g 8) 0) ∧ (s.run (.g 8) 2).getD 1 0 = 0x100000000 ∧ pathOf (s.addr (.mem 1 0) 4) = 4 ∧
        ∃ t, s.dst (.g 6) 0 = .ok t) ∧
    (commandGoes (privileged (regsFrom8 [3, 0x1000])) 0xE2 2 (fl .none (.mem 1 0) (.g 8) 0) = true ∧
      ((privileged (regsFrom8 [3, 0x1000])).slot 0 3).st = .frozen ∧ (privileged runner.g).curSlot ≠ 3 ∧ 7 < (privileged runner.g).here.frames) ∧
    (commandGoes (privileged (regsFrom8 [7, 0x1000])) 0xE3 2 (fl .none (.mem 1 0) (.g 8) 0) = true ∧ ((privileged (regsFrom8 [7, 0x1000])).slot 0 7).st = .free) := by
  and_intros
  all_goals first | decide +kernel | exact ready_of (by decide +kernel) | exact gives_of (by decide +kernel) | exact ok_of (by decide +kernel)

/-! The matrix array -/

/-- A tile descriptor at P 0x400: tile at P 0x800, scales at P 0xC00, metadata at P 0xD00 whose entries rise; then stream descriptors of no
rows at P 0x500 and, gathered, at P 0x540; and a core whose gang has not formed. -/
def tiles : Mem :=
  [(0x400, P 0x800), (0x408, P 0xC00), (0x410, P 0xD00), (0x500, S 0), (0x540, S 0), (0x568, S 0), (0x570, P 0)].foldl
    (fun m e => Mem.writeN m (poolAt 0 e.1) 8 e.2.toNat) [] ++ (List.range 128).map (fun i => ⟨poolAt 0 0xD00 + i, 0x44⟩)
def oneTile : Mem := Mem.writeN [] (poolAt 0 0x400) 8 (P 0x800).toNat
def gs : State := gangState tiles runner.g
def gt : State := gangState oneTile runner.g
def stream (a : Nat) : List Word := (List.range 8).map (fun i => gs.wordAt (poolAt 0 a + 8 * i))
def noGang : State := { gs with cores := [(0, core0)] }

theorem witness_MatrixIssue :
    (Goes gs 0xB0 (fl .none (.mem 1 0) .none 0xB801) ∧ gs.checkGangSett = .ok () ∧ gs.checkPool (gs.addr (.mem 1 0) 64) 64 64 = .ok (poolAt 0 0x400) ∧
      gs.scoreboarded (poolAt 0 0x400) 64 = false ∧ gs.badWord (poolAt 0 0x400) 64 = none ∧ (∀ i ∈ [3, 4, 5, 6, 7], gs.wordAt (poolAt 0 0x400 + 8 * i) = 0) ∧
      0 < scaleBytes 23 true ∧ gs.checkPool (gs.wordAt (poolAt 0 0x400)) (tileBytes 23) 8 = .ok (poolAt 0 0x800) ∧
      gs.checkPool (gs.wordAt (poolAt 0 0x400 + 8)) (scaleBytes 23 true) 1 = .ok (poolAt 0 0xC00) ∧
      gs.checkPool (gs.wordAt (poolAt 0 0x400 + 16)) (4 * sliceDepth 23) 1 = .ok (poolAt 0 0xD00) ∧ gs.scoreboarded (poolAt 0 0x800) (tileBytes 23) = false ∧
      gs.badWord (poolAt 0 0x800) (tileBytes 23) = none ∧ gs.swapPending gs.cur = false ∧
      risingEntries (sliceDepth 23) (gs.mem.readN (poolAt 0 0xD00) (4 * sliceDepth 23)) = true) ∧
    (Goes gt 0xB0 (fl .none (.mem 1 0) .none 0) ∧ scaleBytes 0 false = 0 ∧ gt.checkPool (gt.addr (.mem 1 0) 64) 64 64 = .ok (poolAt 0 0x400) ∧
      gt.checkPool (gt.wordAt (poolAt 0 0x400)) (tileBytes 0) 8 = .ok (poolAt 0 0x800) ∧ gt.checkGangSett = .ok () ∧
      (∀ i ∈ [1, 2, 3, 4, 5, 6, 7], gt.wordAt (poolAt 0 0x400 + 8 * i) = 0) ∧ gt.badWord 0 0 = none) ∧
    (Goes gs 0xB1 (fl .none .none .none 0) ∧ gs.inGang = true) ∧
    (Goes gs 0xB2 (fl (.row 0) (.mem 1 4) (.mem 1 0) 0) ∧ Goes gs 0xB3 (fl (.row 0) (.mem 1 5) (.mem 1 0) 1) ∧
      gs.checkPool (gs.addr (.mem 1 5) 64) 64 64 = .ok (poolAt 0 0x540) ∧
      gs.checkPool (gs.addr (.mem 1 4) 64) 64 64 = .ok (poolAt 0 0x500) ∧ gs.checkLocal (gs.addr (.mem 1 0) 16) 16 16 = .ok (poolAt 0 0x400) ∧
      streamOk false (gs.stationarySoon gs.cur) (stream 0x500) = true ∧ streamOk true (gs.stationarySoon gs.cur) (stream 0x540) = true ∧ gs.checkAccRows 0 1 = .ok () ∧
      gs.checkAccRows 0 (streamM ((stream 0x500).getD 2 0)) = .ok () ∧ gs.checkReaches (streamReaches false (stream 0x500)) = .ok () ∧
      gs.checkReaches (streamReaches true (stream 0x540)) = .ok () ∧
      gs.scoreboarded (poolAt gs.cur (((stream 0x540).getD 6 0).toNat % 2 ^ 17)) (2 * streamM ((stream 0x540).getD 2 0)) = false) ∧
    (Goes noGang 0xB1 (fl .none .none .none 0) ∧ noGang.inGang = false ∧ noGang.checkGangSett = .ok ()) := by
  and_intros
  all_goals first | decide +kernel | exact goes_of (by decide +kernel) | exact gives_of (by decide +kernel)

/-- The core has one bank: 32 rows. -/
theorem witness_AccumulatorRows :
    Ready base 0xB4 (fl (.row 0) (.imm 32) .none 1) ∧ base.checkAccRows 0 32 = .ok () ∧ base.rowsBusy base.cur 0 32 = false ∧
    Ready base 0xB6 (fl (.v 6) (.row 31) .none 0) ∧ base.checkAccRows 31 1 = .ok () ∧ base.rowsBusy base.cur 31 1 = false ∧
    Ready base 0xB7 (fl (.row 31) (.v 6) .none 1) ∧ Ready base 0xB5 (fl (.g 3) (.mem 1 0) (.row 31) 0) ∧ Ready base 0xB5 (fl .none (.mem 1 0) (.row 31) 0) ∧
    base.checkLocal (base.addr (.mem 1 0) (cvtBytes 0)) (cvtBytes 0) (cvtBytes 0) = .ok (poolAt 0 0x400) ∧ base.scoreboarded (poolAt 0 0x400) 64 = false ∧
    base.badWord (poolAt 0 0x400) 64 = none ∧ Ready base 0xB8 (fl (.g 6) (.row 31) .none 0) ∧ Ready base 0xB8 (fl (.g 6) .none .none 0) ∧
    Ready base 0xB6 (fl (.v 6) (.row 32) .none 0) ∧ base.here.rows ≤ 32 := by
  and_intros
  all_goals first | decide +kernel | exact ready_of (by decide +kernel) | exact gives_of (by decide +kernel)

/-! Queries and walkers -/

/-- A walker firing at handler 1, with a membership in m1 and a warren that holds an entry for its key, or none. -/
def seeker (w : List WarrenEntry) : State :=
  { base with
    cores := [(0, { core0 with slots := [(0, { runner with kind := .walker, handler := 1, m := runner.m.set 1 0x80 })] })]
    clusters := [(0, { Cluster.initial with granules := [(0, .image)], tenant := some 0, warren := w })] }
def entry : WarrenEntry := ⟨⟨1, 1, 3, 1, 0, 0x81, 0, 0, []⟩, 0, 2, 0, true, 2, 5, 0, 0, 0, 9, [], (⟨1, 1, 3, 1, 0, 0x81, 0, 0, []⟩, 0, 0)⟩
def walkFull : State :=
  { base with cores := [(0, { core0 with slots := [(0, { runner with m := runner.m.set 1 0x80 })], outWalk := List.replicate 16 entry.msg })] }

theorem witness_QueriesAndWalkers :
    (Goes base 0x79 (fl (.g 6) (.mem 2 0) (.mem 1 0) 3) ∧ pathOf (base.addr (.mem 2 0) 8) = 5 ∧ base.checkLocal (base.addr (.mem 2 0) 8) 8 8 = .ok (storeAt 0 0x400) ∧
      base.checkLocal (base.addr (.mem 1 0) 16) 16 16 = .ok (poolAt 0 0x400) ∧ base.here.outReq.length < 16) ∧
    (Goes base 0x79 (fl (.g 6) (.mem 1 0) (.mem 1 0) 0) ∧ pathOf (base.addr (.mem 1 0) 8) ≠ 5) ∧
    (Ready (seeker []) 0x7A (fl (.v 6) (.g 3) (.m 1) 1) ∧ ((seeker []).here.handler 1).kindBits = 1 ∧ (seeker []).me.readM 1 ≠ 0 ∧ (seeker []).here.outWalk.length < 16) ∧
    (Ready (seeker []) 0x7A (fl (.v 6) (.g 3) (.m 2) 1) ∧ (seeker []).me.readM 2 = 0) ∧
    (Ready walkFull 0x7A (fl (.v 6) (.g 3) (.m 1) 1) ∧ walkFull.me.readM 1 ≠ 0 ∧ ¬ walkFull.here.outWalk.length < 16) ∧
    (Goes base 0x7A (fl (.v 6) (.g 3) (.m 1) 0) ∧ (base.here.handler 0).kindBits ≠ 1) ∧
    (Goes base 0x7D (fl (.m 1) (.g 3) .none 0) ∧ base.me.kind ≠ .walker ∧ base.me.kind ≠ .wrapup) ∧
    (Ready (seeker [entry]) 0x7D (fl (.m 1) (.g 3) .none 0) ∧ (seeker [entry]).me.kind = .walker ∧ (entry.msg.key == (3 : Word).toNat % 2 ^ 48) = true ∧
      ((seeker [entry]).cluster 0).overflow = [] ∧ ((seeker [entry]).cluster 0).spill = [] ∧ Ready (seeker []) 0x7D (fl (.m 1) (.g 3) .none 0) ∧ entry.msg.launch = 1 ∧ entry.msg.handler = 1 ∧ entry.msg.block = 0 ∧ entry.owner = (seeker [entry]).cur ∧ (seeker [entry]).me.readG 3 = 3) := by
  and_intros
  all_goals first | decide +kernel | exact ready_of (by decide +kernel) | exact goes_of (by decide +kernel) | exact gives_of (by decide +kernel)

/-! Setts -/

/-- A negotiated sett of one granule that the launch holds at granule 4, in a state; and a surrender firing for it. -/
def sett (st : SettSt) : Sett := ⟨3, 1, false, 1, .negotiated, st, 4, 2, 2, 0, none, 0, none, none, 0⟩
def holder (st : SettSt) (x : Slot) : State :=
  { base with
    cores := [(0, { core0 with slots := [(0, x)] })]
    clusters := [(0, { Cluster.initial with granules := [(0, .image), (4, .sett 3), (5, .sett 3)], tenant := some 0, setts := [sett st] })] }
/-- g5 holds the sett's handle. -/
def holding : Slot := { runner with g := runner.g.set 5 ((sett .current).handle 0) }
def surrenderer : Slot := { holding with kind := .surrender, handler := 3, surrSett := (sett .current).handle 0 }
def settled : State := holder .current holding
/-- A job of the launch still writes the sett's last granule. -/
def written : State := { settled with jobs := [{ Job.blank with id := 0, launch := 1, opcode := 0xA0, run := [S 40960, P 0, 64], total := 1 }] }
/-- A full store: the held setts of granules 1 to 63 leave no room for sett 0 of the image. -/
def crowded : State :=
  { base with clusters := [(0, { Cluster.initial with
      granules := (0, .image) :: (List.range 63).map (fun i => (i + 1, .sett 9)), tenant := some 0
      setts := [⟨9, 2, false, 1, .held, .current, 1, 63, 63, 0, none, 0, none, none, 0⟩] })] }

/-- The store held by a negotiated sett of another launch; and one whose free run a job of its former holder still writes. -/
def rival : State :=
  { crowded with clusters := [(0, { crowded.cluster 0 with setts := [⟨9, 2, false, 5, .negotiated, .current, 1, 63, 63, 0, none, 0, none, none, 0⟩] })] }
def landing : State := { base with jobs := [{ Job.blank with id := 0, launch := 5, opcode := 0xA0, run := [S 8192, 0x4000000000000400, 64], total := 1 }] }

/-- A lower core's request for the sett that stands, and may be granted (R314). -/
def contested : State :=
  { base with
    cores := [(1, core0)]
    cur := 1
    clusters := [(0, { Cluster.initial with granules := [(0, .image)], tenant := some 0, requests := [⟨some (0, 0, 9), 1, 1, 1, false, [], [], [], false, none, 0⟩] })] }

theorem witness_SettInstructions :
    (Ready contested 0xD0 (fl (.g 6) (.imm 0) .none 1) ∧ contested.image? contested.cur = some image ∧ contested.myLaunch = some live ∧
      (contested.cluster 0).requests.find? (fun r => r.who == some (1, 0, 7)) = none ∧
      contested.requestFirst 0 (contested.newRequest (some (1, 0, 7)) live 0x210 true) = false ∧
      base.requestFirst 0 (base.newRequest (some (0, 0, 7)) live 0x210 false) = true ∧ rival.requestFirst 0 (rival.newRequest (some (0, 0, 7)) live 0x210 false) = true ∧
      crowded.requestFirst 0 (crowded.newRequest (some (0, 0, 7)) live 0x210 true) = true ∧ landing.requestFirst 0 (landing.newRequest (some (0, 0, 7)) live 0x210 true) = true) ∧
    (Ready base 0xD2 (fl .none (.g 3) (.imm 1) 0) ∧ Ready base 0xD3 (fl .none (.g 3) (.imm 3) 0) ∧ base.settOf 0 3 = none) ∧
    (Ready rival 0xD0 (fl (.g 6) (.imm 0) .none 0) ∧
      (match rival.request 0 (rival.newRequest (some (0, 0, 7)) live 0x210 false) with | .asks [] [x] [] => x.gen == 9 && rival.recallRoom [x] | _ => false) = true) ∧
    (Ready landing 0xD0 (fl (.g 6) (.imm 0) .none 1) ∧
      (match landing.request 0 (landing.newRequest (some (0, 0, 7)) live 0x210 true) with | .lands => true | _ => false) = true) ∧
    (Ready base 0xD0 (fl (.g 6) (.imm 0) .none 0) ∧ base.image? base.cur = some image ∧ base.myLaunch = some live ∧
      (Tab.get 0 image.setts 0).getLsbD 4 = true ∧ (base.cluster 0).setts.any (fun y => y.launch == base.me.launch && y.index == 0) = false ∧
      (entryGang (Tab.get 0 image.setts 0) && ctxGangDenied (base.ctx live.tenant)) = false ∧ (base.cluster 0).requests.find? (fun r => r.who == some (0, 0, 7)) = none ∧
      (match base.request 0 (base.newRequest (some (0, 0, 7)) live 0x210 false) with | .run g => g == 1 | _ => false) = true) ∧
    (Ready crowded 0xD0 (fl (.g 6) (.imm 0) .none 0) ∧ Ready crowded 0xD0 (fl (.g 6) (.imm 0) .none 1) ∧
      (match crowded.request 0 (crowded.newRequest (some (0, 0, 7)) live 0x210 true) with | .waits => true | _ => false) = true) ∧
    (Ready base 0xD0 (fl (.g 6) (.imm 16) .none 0) ∧ 15 < (16 : Word).toNat) ∧
    (Ready settled 0xD1 (fl .none (.g 5) .none 0) ∧ settled.handleSett (settled.me.readG 5) = .ok (sett .current) ∧ (sett .current).st ≠ .stripping ∧
      settled.settWriters 0 (sett .current) 0 = false) ∧
    (Ready base 0xD1 (fl .none (.g 3) .none 0) ∧ Ready base 0xD5 (fl (.g 6) (.g 3) .none 0) ∧ base.settOf 0 3 = none) ∧
    (Ready settled 0xD2 (fl .none (.g 5) (.imm 2) 0) ∧ (sett .current).isDisplaced = false ∧ (2 : Word).toNat ≤ (sett .current).size ∧ (sett .current).st ≠ .finishing ∧
      settled.settWriters 0 (sett .current) 2 = false) ∧
    (Ready settled 0xD2 (fl .none (.g 5) (.imm 3) 0) ∧ (sett .current).size < (3 : Word).toNat ∧ Ready settled 0xD2 (fl .none (.g 5) (.imm 0) 0)) ∧
    (Ready settled 0xD3 (fl .none (.g 5) (.imm 3) 0) ∧ (settled.here.handler 3).kindBits = 4 ∧ (sett .current).cls = .negotiated ∧ (sett .current).holder = settled.cur) ∧
    (let s := holder .surrendering surrenderer;
      Ready s 0xD4 (fl .none .none .none 0) ∧ Ready s 0xD4 (fl .none .none .none 2) ∧ s.me.verdict = false ∧ s.settOf 0 s.me.surrSett = some (sett .surrendering) ∧
        (sett .surrendering).launch = s.me.launch ∧ Ready s 0xD4 (fl .none (.imm 1) .none 1) ∧ Ready s 0xD4 (fl .none (.imm 0) .none 1) ∧ (1 : Word).toNat < (sett .surrendering).size) ∧
    (let s := holder .finishing holding;
      Ready s 0xD2 (fl .none (.g 5) (.imm 1) 0) ∧ s.handleSett (s.me.readG 5) = .ok (sett .finishing) ∧ (sett .finishing).isDisplaced = false ∧
        s.settWriters 0 (sett .finishing) 1 = false) ∧
    (Ready written 0xD2 (fl .none (.g 5) (.imm 1) 0) ∧ written.handleSett (written.me.readG 5) = .ok (sett .current) ∧ written.settWriters 0 (sett .current) 1 = true ∧
      Ready written 0xD1 (fl .none (.g 5) .none 0) ∧ (sett .current).st ≠ .displaced ∧ written.settWriters 0 (sett .current) 0 = true) ∧
    (let s := holder .stripping holding;
      Ready s 0xD1 (fl .none (.g 5) .none 0) ∧ s.handleSett (s.me.readG 5) = .ok (sett .stripping)) ∧
    (let s := holder .surrendering surrenderer;
      Ready s 0xD4 (fl .none (.imm 2) .none 1) ∧ (sett .surrendering).size ≤ (2 : Word).toNat ∧ (2 : Word).toNat ≤ 64 ∧ (sett .surrendering).gang = false ∧
        ∀ y ∈ (s.cluster 0).setts, y.gen = (sett .surrendering).gen → y = sett .surrendering) ∧
    (let s := holder .surrendering { surrenderer with verdict := true };
      Ready s 0xD4 (fl .none .none .none 2) ∧ s.me.verdict = true) ∧
    (Ready settled 0xD5 (fl (.g 6) (.g 5) .none 0) ∧ Ready settled 0xD5 (fl (.g 6) (.g 5) .none 1)) := by
  and_intros
  all_goals first | decide +kernel | exact ready_of (by decide +kernel) | exact gives_of (by decide +kernel)

/-! Estimates, results, launches, and the privileged instructions -/

/-- An enabled mailbox 0 of function 0 with its slots on path 0x1, host addresses given as they are. -/
def mailed : State := { base with mailboxes := [(0, ⟨0x1000000000000000, true, 0, 4, 0, 0, []⟩)] }
/-- The firing has an operation of its own still to land. -/
def unlanded : State := { base with jobs := [{ Job.blank with id := 0, fid := 7, launch := 1, opcode := 0xA0 }] }
def wrapup : State := withSlot { runner with kind := .wrapup, handler := 4 }

theorem witness_EstimatesResultsLaunches :
    (Ready base 0xD6 (fl .none (.imm 65535) .none 0) ∧ (65535 : Word).toNat < 2 ^ 32 ∧ immOutside (.imm 65535) 0 65535 = false ∧
      base.here.expired.contains base.me.launch = false ∧ Ready base 0xD6 (fl .none (.g 1) .none 0) ∧ 2 ^ 32 ≤ (base.me.readG 1).toNat) ∧
    (base.myLaunch = some live ∧ live.phase ≠ .ending) ∧
    (Ready base 0xD7 (fl .none (.g 3) (.g 4) 0) ∧ base.ownLanded base.cur base.me.fid = true ∧ Ready unlanded 0xD7 (fl .none (.g 3) (.g 4) 0) ∧
      unlanded.ownLanded unlanded.cur unlanded.me.fid = false) ∧
    (Ready base 0xD7 (fl .none (.imm 127) .none 1) ∧ Ready base 0xD7 (fl .none (.imm 128) .none 1) ∧ 127 < (128 : Word).toNat) ∧
    Goes wrapup 0xD8 (fl .none .none .none 0) ∧
    (Ready mailed 0xD9 (fl (.p 1) (.mem 1 0) (.imm 0) 0) ∧ mailed.reach (mailed.addr (.mem 1 0) 64) 128 128 = .ok (poolAt 0 0x400) ∧ mailed.myLaunch = some live ∧
      (mailed.mailbox live.tenant 0).enable = true ∧ mailed.mailboxBad live.tenant 0 = none ∧ pathOf (mailed.mailbox live.tenant 0).base ≠ 3) := by
  and_intros
  all_goals first | decide +kernel | exact ready_of (by decide +kernel) | exact goes_of (by decide +kernel) | exact gives_of (by decide +kernel)

def boss : State := privileged runner.g

theorem witness_PrivilegedInstructions :
    (Ready boss 0xE0 (fl (.sys 0x806) (.imm 4) .none 0) ∧ privOutside 0x806 4 = false ∧ Ready boss 0xE0 (fl (.sys 0x806) (.imm 5) .none 0) ∧ privOutside 0x806 5 = true ∧
      Ready boss 0xE0 (fl (.g 6) (.sys 0x800) .none 0)) ∧
    (Ready boss 0xE4 (fl .none (.g 1) (.g 3) 1) ∧ (boss.me.readG 3).toNat ≤ 64 ∧ boss.here.niinvs.length < 16 ∧ Goes boss 0xE5 (fl .none .none .none 0)) ∧
    (Ready base 0xE6 (fl (.g 6) (.imm 31) .none 0) ∧ Ready base 0xE6 (fl (.g 6) (.imm 31) .none 1) ∧ Ready base 0xE6 (fl (.v 6) (.imm 31) .none 2) ∧
      Ready base 0xE6 (fl (.g 6) (.imm 32) .none 0) ∧ 31 < (32 : Word).toNat) ∧
    (Ready base 0xE7 (fl (.p 1) (.imm 0x8000) (.v 3) 0) ∧ (0x8000 : BitVec 17).signExtend 64 = (0x8000 : Word) ∧ Ready base 0xE7 (fl (.p 1) (.imm 0xFFFF) (.v 3) 0) ∧
      Ready base 0xE7 (fl (.p 1) (.imm 0x7FFF) (.v 3) 0) ∧ base.privileged = false) ∧
    (Ready base 0xE8 (fl (.g 6) (.imm 6) .none 0) ∧ Ready boss 0xE8 (fl .none (.imm 4) .none 1) ∧ Goes boss 0xE9 (fl .none .none .none 0)) ∧
    (Ready boss 0xEA (fl (.g 6) (.g 0) .none 0) ∧ pathOf (0 : Word) = 0 ∧ (0 : Word).toNat % 64 = 0 ∧
      boss.spilling = false ∧ boss.pagesPresent boss.here.tenant.toNat 0 (boss.niBytes (clusterOf boss.cur) 0 []).2 = true ∧
      ∃ t, (boss.putBytes boss.here.tenant.toNat 0 (boss.niBytes 0 0 []).1 (boss.niBytes 0 0 []).2).dst (.g 6) (word (boss.niBytes 0 0 []).2) = .ok t) := by
  and_intros
  all_goals first | decide +kernel | exact ready_of (by decide +kernel) | exact goes_of (by decide +kernel) | exact ok_of (by decide +kernel)

/-! Events: firings and arrays -/

/-- Core 0 with every slot Free, and a pending firing or a trap to deliver. -/
def waiting (p : List Pending) (t : List AsyncTrap) : State := withCore { core0 with slots := [], pending := p, asyncTraps := t }
def pend (src : Source) (h : Nat) : Pending := ⟨src, h, 1, 0, 1, 0, 0⟩
def isFiring (o : Option Cand) (p : Pending) : Bool := match o with | some (.firing q) => decide (q = p) | _ => false
def isWalker (o : Option Cand) (e : WarrenEntry) : Bool := match o with | some (.walker x) => decide (x = e) | _ => false
def walkers (e : WarrenEntry) : State :=
  { base with
    cores := [(0, { core0 with slots := [] })]
    clusters := [(0, { Cluster.initial with granules := [(0, .image)], tenant := some 0, warren := [e] })] }
def asleep (st : Stall) : Slot := { runner with st := .stalled, stall := some st }
/-- A LDFE that waits for a word to be full, which it is. -/
def feWaiter : State :=
  { base with
    images := [(0, { image with code := Mem.writeN [] 0 12 0x8600000006A1000E00000000, codeLen := 12 })]
    cores := [(0, { core0 with slots := [(0, asleep (.feBit (poolAt 0 0x400) true))] })]
    full := [poolAt 0 0x400 / 8]
    clusters := [(0, { Cluster.initial with granules := [(0, .image)], tenant := some 0, waiters := [⟨poolAt 0 0x400, true, 0, 0⟩] })] }
def estimated : State := { base with launches := [(1, { live with estMsgs := [(0, 0xFFFFFFFF)] })] }
/-- A core of a higher number was heard in the same fabric clock (R302). -/
def tied : State := { base with launches := [(1, { live with estMsgs := [(0, 0xFFFFFFFF)], estLast := (base.fabric, 3) })] }
/-- A word for the input of handler 5 and the firing that may take it. -/
def fed : State := withCore { core0 with slots := [], pending := [pend .channel 5], channels := [⟨5, 0, 1, 0, false, none, false, []⟩] }

theorem witness_FiringEvents :
    (∀ p ∈ [pend (.field 5 9) 0, pend (.spawn 7) 0, pend (.trap 0x12 24 1 2) 2], ((waiting [p] []).core 0).halted = false ∧
      ((waiting [p] []).core 0).freeSlot = some 0 ∧ isFiring ((waiting [p] []).selected 0) p = true) ∧
    ((walkers entry).core 0).halted = false ∧ ((walkers entry).core 0).freeSlot = some 0 ∧ isWalker ((walkers entry).selected 0) entry = true ∧
    entry.late (walkers entry).fabric = [] ∧ ((fed.core 0).freeSlot = some 0 ∧ isFiring (fed.selected 0) (pend .channel 5) = true ∧ fed.launch? 1 = some live ∧
      fed.fits 0 [] (fed.needs 0 5 live) = true) ∧
    ((walkers entry).cluster 0).overflow = [] ∧ ((walkers entry).cluster 0).spill = [] ∧
    (estimated.launch? 1).map (·.estMsgs) = some [(0, 0xFFFFFFFF)] ∧
    ¬ (live.estLast.1 = estimated.fabric ∧ 0 < live.estLast.2) ∧ (tied.launch? 1).map (·.estLast) = some (tied.fabric, 3) ∧
    ((withSlot (asleep (.sleep 0))).slot 0 0).st = .stalled ∧ ({ withSlot (asleep (.sleep 0)) with cur := 0, curSlot := 0 } : State).stallOver = true ∧
    feWaiter.grantee 0 (poolAt 0 0x400) = some ⟨poolAt 0 0x400, true, 0, 0⟩ ∧
    ((waiting [] [⟨0x12, 24, 1, 2, 1⟩]).core 0).asyncTraps = [⟨0x12, 24, 1, 2, 1⟩] ∧ (waiting [] [⟨0x12, 24, 1, 2, 1⟩]).trapHandler 0 = some 2 ∧
    (waiting [] [⟨0x12, 24, 1, 2, 1⟩]).overdue 0 1 = false := by
  decide +kernel

/-- All eight cores of cluster 0 ask for a gang. -/
def asking : State := { base with cores := (List.range 8).map (fun c => (c, { core0 with slots := [(0, asleep .gang)], gang := some ⟨1, 9, 0, false, none⟩ })) }
/-- One member's part: an MMA of no rows, or an MSWAP. -/
def part (c op : Nat) : ArrayPart := ⟨c, 0, false, 16, 0, poolAt c 0x400, [S 0, 0, 0, 0, 0, 0], op, false, 1, 7, 0, 0, [], false⟩
def parted (op : Nat) : State := { base with clusters := [(0, { Cluster.initial with gangIssued := (List.range 8).map (part · op), tenant := some 0 })] }
def operation (op : Nat) : ArrayOp := arrayOpOf ((List.range 8).map (part · op)) (part 0 op)
def operating (op : Nat) : State := { base with clusters := [(0, { Cluster.initial with granules := [(0, .image)], arrayOps := [operation op], tenant := some 0 })] }
/-- One member's MMA of one row and sixteen columns, with or without elements, a tile, accumulation, and a row list whose row is on path 0. -/
def streamPart (acc listed : Bool) : ArrayPart := { part 0 0xB2 with acc := acc, gathered := listed, bytes := 64, accList := P 0x700 }
def streamOp (k : Nat) (acc listed : Bool) : ArrayOp :=
  { operation 0xB2 with parts := [streamPart acc listed], m := 1, k := k, base := if listed then 0 else S 0, rowList := S 0x700 }
def streaming (k : Nat) (acc listed tile : Bool) : State :=
  { base with clusters := [(0, { Cluster.initial with
      granules := [(0, .image)], arrayOps := [streamOp k acc listed], tenant := some 0, planes := if tile then [(0, ⟨0, false, 0, 0, 0⟩)] else [] })] }
/-- A rotation of one member's eight bytes. -/
def turning : State :=
  { base with
    jobs := [{ Job.blank with id := 3, opcode := 0xA9, launch := 1, run := [P 0, P 64, 8], barrier := poolAt 0 0x400, declared := 8 }]
    clusters := [(0, { Cluster.initial with granules := [(0, .image)], rotations := [[⟨0, 0, 64, 8, 3⟩]], tenant := some 0 })] }
/-- A rotation of eight members' sixteen bytes. -/
def turns : List RotPart := (List.range 8).map (fun c => ⟨c, 64, 16 * c, 16, 3 + c⟩)
def turningAll : State :=
  { base with
    mem := (List.range 8).foldl (fun m c => Mem.writeN m (poolAt c (16 * c)) 8 (c + 1)) []
    jobs := (List.range 8).map (fun c => { Job.blank with
      id := 3 + c, core := c, opcode := 0xA9, launch := 1, run := [P 64, P (16 * c), 16], barrier := poolAt c 0x400, declared := 16 })
    clusters := [(0, { Cluster.initial with granules := [(0, .image)], rotations := [turns], tenant := some 0 })] }
/-- A wrap-up firing that waits at a barrier. -/
def wrapping : State :=
  { base with
    cores := [(0, { core0 with slots := [(0, { asleep (.barrier (poolAt 0 0x400) true) with kind := .wrapup, handler := 4 })] })]
    launches := [(1, { live with phase := .wrapping })] }

/-- Does part p of operation o complete on s, writing one row of the accumulator? -/
def streamGoes (k : Nat) (tile listed : Bool) (s : State) (o : ArrayOp) (p : ArrayPart) : Bool :=
  decide ((s.cluster 0).arrayOps = [o] ∧ s.partDue 0 0 = some (o, p) ∧ s.opBlocked 0 o = false ∧ s.health.bad = []) &&
    (decide (p.n = 16 ∧ p.bytes < 2 ^ 48 ∧ o.m = 1 ∧ accRowFor s p 0 < (s.core p.core).rows) &&
      ((s.plane 0 0).isSome == tile && (k == 0 || ((s.readRows o p).row 0).isSome == !listed)))

theorem witness_arrayRows : ∀ k ∈ [0, 1], ∀ acc ∈ [false, true], ∀ listed ∈ [false, true], ∀ tile ∈ [false, true],
    streamGoes k tile listed (streaming k acc listed tile) (streamOp k acc listed) (streamPart acc listed) = true := by decide +kernel
theorem witness_GangAndArrayEvents :
    asking.gangReady 0 = true ∧ ((parted 0xB2).cluster 0).gangIssued = (List.range 8).map (part · 0xB2) ∧ ((parted 0xB2).cluster 0).rotIssued = [] ∧
    ((operating 0xB1).cluster 0).arrayOps = [operation 0xB1] ∧ (operation 0xB1).swap = true ∧
    (operating 0xB2).partDue 0 7 = some (operation 0xB2, part 7 0xB2) ∧ (operating 0xB2).opBlocked 0 (operation 0xB2) = false ∧ (operating 0xB2).health.bad = [] ∧
    (turning.cluster 0).gangIssuedAll = false ∧ (turning.cluster 0).rotations = [[⟨0, 0, 64, 8, 3⟩]] ∧ turning.rotationBlocked [⟨0, 0, 64, 8, 3⟩] = false ∧
    ((turningAll.cluster 0).gangIssuedAll = false ∧ (turningAll.cluster 0).rotations = [turns] ∧ turningAll.rotationBlocked turns = false ∧ (turns.map (·.core)).Nodup ∧
      (∀ x ∈ turns, clusterOf x.core = 0 ∧ x.dst + x.len ≤ 2 ^ 17 ∧ x.len % 8 = 0) ∧ (∀ x ∈ turns, ∀ y ∈ turns, x.len = y.len) ∧
      ∀ x ∈ turns, (turningAll.job? x.job).map (·.engineFault) = some false) ∧
    wrapping.quietWaiters 1 = [(0, 0)] ∧ (wrapping.launch? 1).map (·.phase) = some .wrapping ∧ wrapping.quiet 1 = true := by
  decide +kernel

/-! Events: words, walkers and jobs -/

/-- A word for input 0 of handler 5 on core 0, which has four slots; and a state with n words there already. -/
def out (credited turned : Bool) : OutWord := ⟨0x9000000000000000 + word (5 * 2 ^ 29), 77, false, 1, credited, turned, 0, 0, 0x90, []⟩
/-- Tenant 0's context: its partition is cluster 0, which it may reach (R376, R377). -/
def tenanted (s : State) : State :=
  { s with tenants := [(0, ⟨[0x8000000000010000, 0, 0, 0x100000, 0, 0, 0, 0], [], none⟩)], mem := [⟨0x100000, 1⟩] }
def offered (w : OutWord) (n : Nat) : State := tenanted <| withCore { core0 with outReq := [w], channels := List.replicate n ⟨5, 0, 1, 0, false, none, false, []⟩ }
def ringing4 : State := withCore { core0 with ringOut4 := [⟨1, true, 1, []⟩] }
def ringing5 : State := withCore { core0 with ringOut5 := [⟨1, true, 1, []⟩] }
def walking (w : List WarrenEntry) : State :=
  { base with cores := [(0, { core0 with outWalk := [entry.msg] })], clusters := [(0, { Cluster.initial with granules := [(0, .image)], tenant := some 0, warren := w })] }
/-- A COPY of 16 bytes within the scratchpad that has begun; a search; and a job that waits for a page. -/
def copying : Job := { Job.blank with id := 3, opcode := 0xA0, launch := 1, run := [P 0, P 64, 16], barAddr := P 0x400, barrier := poolAt 0 0x400, declared := 16, total := 2, started := true }
def copyLanding : State := { base with jobs := [{ copying with run := [P 0, P 64, 24], declared := 24, total := 3 }] }
def searching : Job := { Job.blank with id := 3, opcode := 0xC0, launch := 1, run := [S 0, S 0, 0, P 64, 0x2000000000000000, 0], barrier := poolAt 0 0x400, started := true }

/-- May job x, numbered n, land its next piece? -/
def mayLand (s : State) (n : Nat) (x : Job) : Bool :=
  decide (s.job? n = some x) && (decide (x.waiting = none ∧ x.unfilled = false ∧ x.paused = false ∧ x.resendAt = none) && (!s.blocked x &&
    (decide (x.started = true ∧ x.next < x.total ∧ s.health.bad = []) && (decide (s.awayOf x.launch (clusterOf x.core) = none) &&
      (decide (pathOf x.barAddr = 4 ∨ pathOf x.barAddr = 5) && decide (s.barrierWords x = (x.barrier, x.barrier + 8)))))))
theorem lands_of {s : State} {n : Nat} {x : Job} (h : mayLand s n x = true) : Lands s n x := by
  simp only [mayLand, Bool.and_eq_true, decide_eq_true_eq, Bool.not_eq_true'] at h
  obtain ⟨job, hold, clear, go, here, path, barrier⟩ := h
  exact ⟨job, hold.1, hold.2.1, hold.2.2.1, hold.2.2.2, clear, go.1, go.2.1, go.2.2, here, path, barrier⟩
/-- One job of each kind that moves data, and the state in which it lands. -/
def job1 (op : Nat) (run : List Word) (n : Nat) : Job := { copying with opcode := op, run := run, total := n }
def at1 (x : Job) : State := { base with jobs := [x] }
def isMem (p : Place) (a : Nat) : Bool := decide (p = .mem a)
def isValue (r : Piecewise Nat) (n : Nat) : Bool := match r with | .ok x => x == n | .error _ => false

theorem witness_Lands :
    (∀ e ∈ [(0xA0, [P 0, P 64, 24], 3), (0xA2, [P 0, S 64, 24], 3), (0xA3, [S 0, P 64, 72], 9)],
      (let x := job1 e.1 e.2.1 e.2.2
       mayLand (at1 x) 3 x = true ∧ x.journal = none ∧ pieceOf (rn x.run 0) (rn x.run 2) x.next = (0, 8) ∧ pathOf (rw x.run 1) ≠ 9 ∧
         pathOf (rw x.run 1 + word 0) ≠ 1 ∧ (rw x.run 1 + word 0).toNat % 8 + 8 ≤ 8 ∧
         isValue ((at1 x).readSource x (rw x.run 1) 0 8) 0 = true ∧
         isMem ((at1 x).placeFor x (rw x.run 1 + word 0) 8 0) (if e.1 = 0xA2 then storeAt 0 64 else poolAt 0 64) = true ∧
         isMem (((at1 x).sourceRead x (rw x.run 1) 0 8).placeFor x (rw x.run 0 + word 0) 8 1) (if e.1 = 0xA3 then storeAt 0 0 else poolAt 0 0) = true)) ∧
    (let x := { job1 0xA3 [S 0, P 64, 8] 1 with journal := some 0, data := Mem.writeN [] 0 8 77 }
     mayLand (at1 x) 3 x = true ∧ pieceOf (rn x.run 0) (rn x.run 2) x.next = (0, 8) ∧ isMem ((at1 x).placeFor x (rw x.run 0 + word 0) 8 1) (storeAt 0 0) = true) ∧
    (∀ e ∈ [(0, 8), (0x19, 16)], (let x := job1 0xA6 [S 0, e.1, 1, 2, 3, 4] 1
      mayLand (at1 x) 3 x = true ∧ x.journal = none ∧ (rw x.run 1).getLsbD 4 = (e.2 == 16) ∧ (at1 x).engineHolds x (rw x.run 0) = true ∧
        isMem ((at1 x).place x.core x.launch x.tenant (rw x.run 0) e.2 2) (storeAt 0 0) = true)) ∧
    (∀ e ∈ [((0x1 : Word), (5 : Word), 5), (0x1000000001, P 0, 0)], (let x := job1 0xA7 [S 8, e.2.1, P 64, e.1, 9] 1
      mayLand (at1 x) 3 x = true ∧ x.journal = none ∧ isValue ((at1 x).read x 2 (rw x.run 2 + word 0) 4) 0 = true ∧ 0 < rn x.run 4 ∧
        x.allows (rw x.run 0 + word 0) pathsAtomic 8 true = true ∧ (at1 x).engineHolds x (rw x.run 0 + word 0) = true ∧
        (let u := (at1 x).didRead x (rw x.run 2 + word 0) 4
         let listed := (rw x.run 3).getLsbD 36
         let w := if listed then u.didRead x (rw x.run 1 + word 0) 8 else u
         (if listed then isValue (u.read x 1 (rw x.run 1 + word 0) 8) e.2.2 else decide (e.2.2 = rn x.run 1)) = true ∧
           isMem (w.place x.core x.launch x.tenant (rw x.run 0 + word 0) 8 2) (storeAt 0 8) = true))) ∧
    (let x := job1 0xA7 [S 8, 5, P 64, 1, 0] 1
     mayLand (at1 x) 3 x = true ∧ isValue ((at1 x).read x 2 (rw x.run 2 + word 0) 4) 0 = true ∧ rn x.run 4 ≤ 0) ∧
    (let x := job1 0x79 [S 0, 7, 3] 1
     mayLand (at1 x) 3 x = true ∧ (at1 x).launch? x.launch = some live ∧ live.base + x.next = 0 ∧ (at1 x).awayOf x.launch 0 = none ∧
       (at1 x).remoteAllows none x.tenant x.launch 0 0 true (rn x.run 0 % 2 ^ 19) 8 = true) := by
  and_intros
  all_goals decide +kernel

theorem witness_ArrivalAndJobEvents :
    (∀ e ∈ [(out true false, 4), (out false false, 3), (out false false, 4)], ((offered e.1 e.2).core 0).outQueue 0 = [e.1] ∧ ((offered e.1 e.2).core 0).outQueue 1 = [] ∧ e.1.turned = false ∧ e.1.core = 0 ∧
      (offered e.1 e.2).wordHeld 0 0 e.1 = false ∧ (offered e.1 e.2).wordRefused e.1 = false ∧ (offered e.1 e.2).launch? e.1.launch = some live ∧
      (offered e.1 e.2).away live (clusterOf e.1.core) = none ∧ (offered e.1 e.2).stopped e.1.core e.1.launch = false) ∧
    (((offered (out false false) 3).core 0).roomFor (out false false) = true ∧ ((offered (out false false) 4).core 0).roomFor (out false false) = false) ∧
    (((offered (out false true) 3).core 0).outQueue 0).filter (fun w => w.turned) = [out false true] ∧
    (((offered (out false true) 3).modCore 0 (fun k => k.setOutQueue 0 [])).accept (out false true)).isSome = true ∧
    ((withCore { core0 with returns := [20] }).core 0).returns.contains 20 = true ∧
    ((ringing4.core 0).ringOut4 = [⟨1, true, 1, []⟩] ∧ (ringing4.core 0).ringOut5 = [] ∧ ringing4.stopped (succOf 0) 1 = false) ∧
    ((ringing5.core 0).ringOut5 = [⟨1, true, 1, []⟩] ∧ (ringing5.core 0).ringOut4 = [] ∧ ringing5.stopped (predOf 0) 1 = false) ∧
    (((walking []).core 0).outWalk[(walking []).walkerPick ((walking []).core 0).outWalk.length]? = some entry.msg ∧ (walking []).launch? 1 = some live ∧ live.phase = .running ∧ (walking []).away live 0 = none ∧
      clusterOf (ownerCore (word entry.msg.key) live.hashSeed live.base live.size) = 0 ∧ ((walking []).absorber 0 entry.msg).isNone = true ∧
      ((walking [entry]).cluster 0).warren.any (fun e => e.msg.sameKey entry.msg) = true ∧ ((walking []).cluster 0).warren.any (fun e => e.msg.sameKey entry.msg) = false) ∧
    (((walkers { entry with pending := false }).cluster 0).warren.find? (fun x => x.serial == 5 && !x.pending) = some { entry with pending := false } ∧
      ({ entry with pending := false } : WarrenEntry).holdEnd ≤ (walkers { entry with pending := false }).fabric) ∧
    (copyLanding.job? 3 = some { copying with run := [P 0, P 64, 24], declared := 24, total := 3 } ∧ copyLanding.blocked { copying with run := [P 0, P 64, 24], declared := 24, total := 3 } = false ∧
      (match copyLanding.piece { copying with run := [P 0, P 64, 24], declared := 24, total := 3 } with
        | .ok r => (match r.s.job? 3 with | some y => decide (y.next + 1 < y.total) | none => false)
        | .error _ => false) = true) ∧
    (mayLand copyLanding 3 { copying with run := [P 0, P 64, 24], declared := 24, total := 3 } = true ∧ pieceOf (rn [P 0, P 64, 24] 0) (rn [P 0, P 64, 24] 2) 0 = (0, 8) ∧ pathOf (rw [P 0, P 64, 24] 0) = 4 ∧
      pathOf (rw [P 0, P 64, 24] 1) = 4 ∧ rn [P 0, P 64, 24] 0 % 2 ^ 17 + rn [P 0, P 64, 24] 2 ≤ 2 ^ 17 ∧ rn [P 0, P 64, 24] 1 % 2 ^ 17 + rn [P 0, P 64, 24] 2 ≤ 2 ^ 17) ∧
    (match ({ base with jobs := [searching] } : State).channelIds searching 63 with | .ok _ => true | .error _ => false) = true ∧
    (match ({ base with jobs := [searching] } : State).searchList searching 63 with | .ok _ => true | .error _ => false) = true ∧
    ({ base with jobs := [searching] } : State).listWaits searching 63 = none ∧
    (match ({ base with jobs := [searching] } : State).searchList searching 0 with | .ok _ => true | .error _ => false) = true ∧
    ({ copying with waiting := some (1, 0x1000), retry := true } : Job).waiting.isSome = true ∧
    (copying.unfilled = false ∧ copying.paused = false ∧ copying.resendAt = none ∧ ({ base with jobs := [searching] } : State).listWaits searching 0 = none) := by
  decide +kernel

/-! Events: launches, recalls and deadlines -/

/-- An image at address 0: handlers plain at offset 0, but 4 for wrap-up; code of 12 bytes, no setts. -/
def imageMem : Mem :=
  [(0, 0x132435246), (8, 0x100000018), (64, 4096), (72, 12), (160, 256), (168, 1024), (176, 1280), (184, 256), (384, 0x50000)].foldl
    (fun (m : Mem) (e : Nat × Nat) => Mem.writeN m e.1 8 e.2) [⟨0x100000, 1⟩]
/-- A launch message at the head of queue 0, at 10 ns. -/
def queued (msg : List Word) (late : Bool) : State :=
  { tenanted State.reset with mem := imageMem, timeBase := 10, queues := [(0, [⟨msg, 0, 0, false, late, false, []⟩])], sched := [(0, { Sched.initial with resident := some 3 })] }
def firstQueued (msg : List Word) (late : Bool) : Queued := ⟨msg, 0, 0, false, late, false, []⟩
/-- The message with its record on path 0x3; with a deadline that has passed; and with a partition word of 0. -/
def toHost : List Word := message.set 5 0x3000000000001000
def overdue : List Word := toHost.set 3 5
def badPart : List Word := toHost.set 2 0x0000000000010000

/-- A launch whose seed list, at page 0 or 1 of path 0x0, has n seeds, of which the first is empty; the list read so far. -/
def listAt (pg : Bool) : Word := if pg then 0x10000 else 0
def seeder (pg : Bool) (e : Option Nat) : Launch := { live with msg := message.set 8 (listAt pg), seedEnd := e }
def seeding (pg : Bool) (n : Nat) (e : Option Nat) : State :=
  { tenanted base with
    mem := Mem.writeN [⟨0x100000, 1⟩] (hbmAt (listAt pg).toNat) 8 n
    jobs := [{ Job.blank with id := 3, opcode := jobSeed, launch := 1, total := 1 }]
    launches := [(1, seeder pg e)] }
def seedJob : Job := { Job.blank with id := 3, opcode := jobSeed, launch := 1, total := 1 }
/-- Do eight words of path 0x0 stand at their own addresses, in one page? -/
def plainWord (s : State) (a i : Nat) : Bool :=
  decide (s.xlate 0 (word (a + 8 * i)) 0 = .ok (a + 8 * i)) && decide ((a + 8 * i) / 65536 = a / 65536) &&
    decide (pathOf (word (a + 8 * i)) = 0) && decide ((word (a + 8 * i)).toNat % 8 = 0)
/-- Such a word is read where it stands, if its page is no register block. -/
theorem pullWord_plain {s : State} {a i : Nat} (h : plainWord s a i = true) (hb : a / 65536 ≠ Config.barPage 0) (hh : s.health.bad = []) :
    s.pullWord seedJob 1 (word (a + 8 * i)) 8 = .ok (s.bytes (hbmAt (a + 8 * i)) 8) := by
  simp only [plainWord, Bool.and_eq_true, decide_eq_true_eq] at h
  obtain ⟨⟨⟨hx, hd⟩, hp⟩, -⟩ := h
  have hpl : s.placeFor seedJob (word (a + 8 * i)) 8 0 = .mem (hbmAt (a + 8 * i)) := by
    have hj : ¬ (seedJob.opcode = jobLand ∨ seedJob.opcode = jobFetch) := by decide
    have h0 : seedJob.tenant = 0 := rfl
    simp only [State.placeFor, hj, false_and, ite_false, State.place, h0, hp, hx, hd]
    simp [hb]
  simp only [State.pullWord, hp, hpl, show ¬ ((0 : Nat) = 1) by decide, ite_false, State.soundAt, State.badWord, hh, List.find?_nil, Option.map_none, bind, Except.bind]
theorem pull_succ {s : State} {j : Job} {i k n m x y : Nat} {a : Word} (hn : ¬ n = 0) (hm : min n (8 - a.toNat % 8) = m)
    (hx : s.pullWord j i a m = .ok x) (hy : s.pull j i k (a + word m) (n - m) = .ok y) : s.pull j i (k + 1) a n = .ok (x + y * 2 ^ (8 * m)) := by
  subst hm
  simp only [State.pull, hn, ite_false, hx, hy, bind, Except.bind, pure, Except.pure]
theorem pull_plain {s : State} {a : Nat} (h : ∀ i < 8, plainWord s a i = true) (hb : a / 65536 ≠ Config.barPage 0) (hh : s.health.bad = []) :
    ∀ k i, i + k = 8 → s.pull seedJob 1 (k + 2) (word (a + 8 * i)) (8 * k) =
      .ok ((List.range' i k).foldr (fun i x => s.bytes (hbmAt (a + 8 * i)) 8 + x * 2 ^ (8 * 8)) 0) := by
  intro k
  induction k with
  | zero => intro i _; simp [State.pull]
  | succ k ih =>
    intro i hi
    have h8 : (word (a + 8 * i)).toNat % 8 = 0 := by
      have := h i (by omega)
      simp only [plainWord, Bool.and_eq_true, decide_eq_true_eq] at this
      exact this.2
    have hm : min (8 * (k + 1)) (8 - (word (a + 8 * i)).toNat % 8) = 8 := by rw [h8]; omega
    have hw : word (a + 8 * i) + word 8 = word (a + 8 * (i + 1)) := by
      rw [Nat.mul_add, ← Nat.add_assoc]; exact (BitVec.ofNat_add _ _).symm
    have hn : ¬ (8 * (k + 1) = 0) := by omega
    have hy := ih (i + 1) (by omega)
    rw [← hw, show 8 * k = 8 * (k + 1) - 8 by omega] at hy
    rw [List.range'_succ, List.foldr_cons]
    exact pull_succ hn hm (pullWord_plain (h i (by omega)) hb hh) hy
theorem read_plain {s : State} {a n : Nat} (h : (List.range 8).all (plainWord s a) = true) (hb : a / 65536 ≠ Config.barPage 0) (hh : s.health.bad = [])
    (hn : (List.range' 0 8).foldr (fun i x => s.bytes (hbmAt (a + 8 * i)) 8 + x * 2 ^ (8 * 8)) 0 = n) : s.read seedJob 1 (word a) 64 = .ok n := by
  have := pull_plain (fun i hi => List.all_eq_true.mp h i (List.mem_range.mpr hi)) hb hh 8 0 rfl
  rw [hn] at this
  exact this
/-- The header of the list, and its first seed. -/
theorem seeds_read (pg : Bool) (hb : (listAt pg).toNat / 65536 ≠ Config.barPage 0) :
    (seeding pg 1 none).read seedJob 1 (listAt pg) 64 = .ok 1 ∧ (seeding pg 1 (some 1)).read seedJob 1 (listAt pg + word 64) 64 = .ok 0 := by
  cases pg
  · exact ⟨read_plain (a := 0) (by decide +kernel) hb rfl (by decide +kernel), read_plain (a := 64) (by decide +kernel) hb rfl (by decide +kernel)⟩
  · exact ⟨read_plain (a := 65536) (by decide +kernel) hb rfl (by decide +kernel), read_plain (a := 65600) (by decide +kernel) hb rfl (by decide +kernel)⟩

/-- The live launch with a deadline of 5 ns, and a machine past it, or past a wall budget. -/
def lateLaunch : Launch := { live with msg := overdue }
def lateState (x : Launch) (t : Nat) (y : Slot) : State := { withSlot y with launches := [(1, x)], timeBase := t }
/-- A core with no firing, and a launch whose seeds are done. -/
def idle (x : Launch) : State := { withCore { core0 with slots := [] } with launches := [(1, x)] }
/-- A sett of granules 1 and 2 with a routine, and a recall of it at the head. -/
def recalled : Sett := ⟨3, 0, false, 1, .lent, .current, 1, 2, 2, 0, some 3, 0, none, none, 0⟩
def recalling (l : List Sett) : State :=
  { withCore { core0 with slots := [], recalls := [⟨recalled.handle 0, false, 1, none⟩] } with
    clusters := [(0, { Cluster.initial with granules := [(0, .image), (1, .sett 3), (2, .sett 3)], tenant := some 0, setts := l })] }
/-- A surrender firing at its bound. -/
def surrendering : State :=
  { recalling [{ recalled with st := .surrendering }] with
    cores := [(0, { core0 with slots := [(0, { runner with kind := .surrender, handler := 3, surrSett := recalled.handle 0, count := 65536 })], recalls := [⟨recalled.handle 0, true, 1, none⟩] })] }
def finishing : State := { recalling [{ recalled with st := .finishing, finishEnd := some 7 }] with timeBase := 10 }

def isOk {α β : Type} (r : Except α β) (p : β → Bool) : Bool := match r with | .ok x => p x | .error _ => false
theorem isOk_of {α β : Type} {r : Except α β} {p : β → Bool} (h : isOk r p = true) : ∃ x, r = .ok x ∧ p x = true := by
  cases r <;> simp_all [isOk]

theorem overdue_placed : (queued overdue false).refusal (firstQueued overdue false) = none := by
  have h1 : (queued overdue false).pagesMissing (firstQueued overdue false) = false := by decide +kernel
  have h2 : (queued overdue false).tablesBad (firstQueued overdue false) = false := by decide +kernel
  have h3 : (queued overdue false).deadlineBad (firstQueued overdue false) = false := by decide +kernel
  rw [State.refusal, h1, h2, h3]
  decide +kernel
theorem toHost_placed : (queued toHost false).refusal (firstQueued toHost false) = none := by
  have h1 : (queued toHost false).pagesMissing (firstQueued toHost false) = false := by decide +kernel
  have h2 : (queued toHost false).tablesBad (firstQueued toHost false) = false := by decide +kernel
  have h3 : (queued toHost false).deadlineBad (firstQueued toHost false) = false := by decide +kernel
  rw [State.refusal, h1, h2, h3]
  decide +kernel
/-- Whether or not the tenant's list is served: the resident entry is 3. -/
theorem toHost_placeable : (queued toHost false).placeable (firstQueued toHost false) = some (some 3, 0, 0) := by
  have h : ((queued toHost false).sched? (firstQueued toHost false).fn) = { Sched.initial with resident := some 3 } := by decide +kernel
  simp only [State.placeable, h, Sched.initial, Option.isNone_some, Option.isSome_none, Bool.or_self, Bool.and_false]
  decide +kernel
theorem witness_LaunchEvents :
    (∀ e ∈ ([(badPart, false), (overdue, false), (toHost, false), (toHost, true)] : List (List Word × Bool)), (queued e.1 e.2).queue 0 = [firstQueued e.1 e.2] ∧ (queued e.1 e.2).queueBusy 0 = false) ∧
    (queued badPart false).refusal (firstQueued badPart false) = some 2 ∧ (queued overdue false).refusal (firstQueued overdue false) = none ∧
    (firstQueued overdue false).deadline = 5 ∧ (queued overdue false).now = 10 ∧ (queued toHost false).refusal (firstQueued toHost false) = none ∧
    (firstQueued toHost false).deadline = 0 ∧ (queued toHost false).placeable (firstQueued toHost false) = some (some 3, 0, 0) ∧
    (((queued toHost false).imageHeader toHost 0).bind ((queued toHost false).findImage toHost 0)).isSome = true ∧
    (∃ pg : Bool, (seeding pg 1 none).seedJob? 1 = some seedJob ∧ (seeding pg 1 none).launch? 1 = some (seeder pg none) ∧ pathOf ((seeder pg none).msg.getD 8 0) = 0 ∧
      ((seeder pg none).msg.getD 8 0).toNat % 64 = 0 ∧ (seeding pg 1 none).read seedJob 1 ((seeder pg none).msg.getD 8 0) 64 = .ok 1 ∧
      (seeding pg 0 (some 0)).launch? 1 = some (seeder pg (some 0)) ∧ (seeding pg 1 (some 1)).launch? 1 = some (seeder pg (some 1)) ∧
      (seeding pg 1 (some 1)).read seedJob 1 ((seeder pg (some 1)).msg.getD 8 0 + word (64 + 64 * 0)) 64 = .ok 0 ∧ seedBad (seeder pg (some 1)) (elems 64 8 0) = true) ∧
    ((lateState lateLaunch 10 runner).launch? 1 = some lateLaunch ∧ lateLaunch.deadline = 5 ∧ (lateState lateLaunch 10 runner).now = 10 ∧ lateLaunch.inField (clusterOf 0) = true ∧
      (lateState lateLaunch 10 runner).decides lateLaunch 0 = true ∧ ((lateState lateLaunch 10 runner).core 0).expired.contains 1 = false ∧
      lateLaunch.phase = .running ∧ (lateState lateLaunch 10 runner).completes lateLaunch = false) ∧
    (let l := { lateLaunch with seedEnd := some 0, met := some 3 }
     let s : State := { idle l with timeBase := 10 }
     s.launch? 1 = some l ∧ s.completes l = true ∧ s.decides l 0 = true ∧ l.deadline = 5 ∧ s.now = 10) ∧
    ((lateState { lateLaunch with context := some 3 } 10 runner).launch? 1 = some { lateLaunch with context := some 3 } ∧
      (lateState { lateLaunch with context := some 3 } 10 runner).descheduled { lateLaunch with context := some 3 } = true ∧
      ((lateState { lateLaunch with context := some 3 } 10 runner).sched? 0).resident = none ∧ (lateState { lateLaunch with context := some 3 } 10 runner).boundary 0 = false) ∧
    ((lateState live 0 { runner with kind := .wrapup, count := 16 }).launch? 1 = some live ∧ live.wrapBudget = 16) ∧
    ((lateState { live with wrapStart := some 0, phase := .wrapping } 1000 runner).launch? 1 = some { live with wrapStart := some 0, phase := .wrapping } ∧ live.wallLeft = 1000 ∧
      (lateState { live with wrapStart := some 0, phase := .wrapping } 1000 runner).now = 1000) ∧
    (idle { live with seedEnd := some 0 }).completes { live with seedEnd := some 0 } = true ∧
    (let s := idle { live with phase := .ending, status := 1 }
     ({ s.endWaiting 1 with jobs := (s.endWaiting 1).jobs.filter (fun j => !(j.opcode == jobSeed && j.launch == 1)) } : State).recordDue { live with phase := .ending, status := 1 } = true) ∧
    ((recalling []).nextRecall 0 = some ⟨recalled.handle 0, false, 1, none⟩ ∧ (recalling []).settOf (clusterOf 0) (recalled.handle 0) = none) ∧
    ((recalling [recalled]).nextRecall 0 = some ⟨recalled.handle 0, false, 1, none⟩ ∧ (recalling [recalled]).settOf (clusterOf 0) (recalled.handle 0) = some recalled ∧
      (recalling [recalled]).windowRefusals recalled < (recalling [recalled]).refusalLimit 0 1) ∧
    ((surrendering.slot 0 0).st = .running ∧ (surrendering.slot 0 0).kind = .surrender ∧
      ({ surrendering with cur := 0, curSlot := 0 } : State).routineBound (surrendering.slot 0 0).surrSett ≤ (surrendering.slot 0 0).count) ∧
    (finishing.sett? 0 3 = some { recalled with st := .finishing, finishEnd := some 7 } ∧ finishing.now = 10) := by
  have seeded : ∃ pg : Bool, (seeding pg 1 none).seedJob? 1 = some seedJob ∧ (seeding pg 1 none).launch? 1 = some (seeder pg none) ∧ pathOf ((seeder pg none).msg.getD 8 0) = 0 ∧
      ((seeder pg none).msg.getD 8 0).toNat % 64 = 0 ∧ (seeding pg 1 none).read seedJob 1 ((seeder pg none).msg.getD 8 0) 64 = .ok 1 ∧
      (seeding pg 0 (some 0)).launch? 1 = some (seeder pg (some 0)) ∧ (seeding pg 1 (some 1)).launch? 1 = some (seeder pg (some 1)) ∧
      (seeding pg 1 (some 1)).read seedJob 1 ((seeder pg (some 1)).msg.getD 8 0 + word (64 + 64 * 0)) 64 = .ok 0 ∧ seedBad (seeder pg (some 1)) (elems 64 8 0) = true := by
    have go : ∀ pg, (listAt pg).toNat / 65536 ≠ Config.barPage 0 → _ := fun pg h => seeds_read pg h
    by_cases h : Config.barPage 0 = 0
    · refine ⟨true, ?_⟩
      and_intros
      all_goals first | decide +kernel | exact (go true (by rw [h]; decide)).1 | exact (go true (by rw [h]; decide)).2
    · refine ⟨false, ?_⟩
      and_intros
      all_goals first | decide +kernel | exact (go false (Ne.symm h)).1 | exact (go false (Ne.symm h)).2
  and_intros
  all_goals first | with_reducible exact overdue_placed | with_reducible exact toHost_placed | with_reducible exact toHost_placeable | with_reducible exact seeded | decide +kernel

/-! Events: the host -/

/-- The machine in phase 3 with an input. -/
def phased (p : Nat) (x : Input) : State := { State.reset with bringup := { State.reset.bringup with phase := p }, input := x }
def cancelling : State := { base with input := .cancelWrite 0 0 7 }
def cancelled : State := { cancelling with launches := [(1, { live with status := 6, phase := .ending })] }
def windowed (r : HostRequest) : State := { phased 5 (.hostWindow 0 r) with compat := [(0, (0x10000, 0x100000))] }
def pageAsked : State := { State.reset with pages := [(0, { Page.initial with requests := [true] })] }
/-- A page of the device, which one job of function 0 uses; and one that the host is taking, with that job gone. -/
def pageOf (p : Page) (jobs : List Job) : State := { State.reset with pages := [(0, p)], jobs := jobs }
def owned : Page := { Page.initial with device := true }
def pageJob : Job := { Job.blank with id := 3, opcode := 0xA0, launch := 1, run := [0x3000000000000100, P 64, 16], total := 2, started := true }
/-- A mailbox of function 0 whose ring fills page 0 of path 0x3. -/
def ringedPage : State := { State.reset with mailboxes := [(0, { Mailbox.initial with base := 0x3000000000000000, enable := true, log2 := 1 })] }
/-- Launches of function 0 that have left their mailbox: one in its queue, one whose refusal is on its way. -/
def waitingLaunch : State := { State.reset with queues := [(0, [firstQueued (toHost.set 0 0x0000000700000301) false])] }
def refusedLaunch : State := waitingLaunch.endUnplaced (firstQueued (toHost.set 0 0x0000000700000301) false) 5 2 (some 0)
def refusedOnly : State := { refusedLaunch with queues := [] }
/-- The same ring with a message in its first slot, while the page is the host's or the device's. -/
def hostBox (device : Bool) : State :=
  { ringedPage with mailboxes := [(0, { Mailbox.initial with base := 0x3000000000000000, enable := true, log2 := 1, tail := 1 })], pages := [(0, { Page.initial with device := device })] }
def told2 : State := { State.reset with stage2Queue := [⟨0, [0, 0, 0, 0]⟩] }
/-- Mailbox 0 of function 0 with its ring at 0 and one sealed message, whose word 0 is w. -/
def boxed (w : Nat) (l : List Queued) : State :=
  { State.reset with mem := Mem.writeN [] 128 8 w, mailboxes := [(0, { Mailbox.initial with enable := true, log2 := 1, tail := 1 })], queues := [(0, l)] }

/-- With both stages off an address is its own translation, on path 0x7 within the compatibility region. -/
theorem xlate_off {s : State} {t : Nat} {a : Word} {k : Nat} (h1 : ctxStage1 (s.ctx t) = none) (h2 : ctxStage2 (s.ctx t) = none) (hv : vaOf a < 2 ^ 48)
    (hp : xlatPath (pathOf a) ≠ 2) (hw : s.inWindow t (vaOf a) = true) : s.xlate t a k = .ok (vaOf a) := by
  have : ¬ (vaOf a ≥ 2 ^ 48) := Nat.not_le.mpr hv
  simp only [State.xlate, Machine.xlate, h1, h2, this, ite_false, hp, false_and, hw, Bool.not_true, Bool.false_eq_true, and_false]
/-- A region that begins within a page. -/
def windowedAt (b : Nat) (r : HostRequest) : State := { phased 5 (.hostWindow 0 r) with compat := [(0, (b, 0x100000))] }
/-- The address of path 0x7 that names offset e.2 of a region from e.1. -/
def regionAddr (e : Nat × Nat) : Word := word (7 * 2 ^ 60 + (e.1 + e.2) % 2 ^ 60)
def inRegion (e : Nat × Nat) : Bool := pathOf (regionAddr e) == 7 && (vaOf (regionAddr e) == e.1 + e.2 && decide (e.2 < 0x100000 ∧ e.1 + e.2 < 2 ^ 48))
theorem windowed_in (r : HostRequest) (k : Nat) {e : Nat × Nat} (he : inRegion e = true) :
    (windowedAt e.1 r).devicePlace 0 (regionAddr e) k = some (e.1 + e.2) := by
  have hn : (windowedAt e.1 r).ctx 0 = [] := rfl
  have ht : Tab.get (0, 0) (windowedAt e.1 r).compat 0 = (e.1, 0x100000) := rfl
  simp only [inRegion, Bool.and_eq_true, beq_iff_eq, decide_eq_true_eq] at he
  obtain ⟨hp, hv, ho, hb⟩ := he
  have hw : (windowedAt e.1 r).inWindow 0 (e.1 + e.2) = true := by simp only [State.inWindow, ht, Bool.and_eq_true, decide_eq_true_eq]; omega
  have hx : (windowedAt e.1 r).xlate 0 (regionAddr e) k = .ok (vaOf (regionAddr e)) :=
    xlate_off (by rw [hn]; decide) (by rw [hn]; decide) (by rw [hv]; exact hb) (by rw [hp]; decide) (by rw [hv]; exact hw)
  simp only [State.devicePlace, hx, hp, hv]
  rfl
theorem windowed_at (r : HostRequest) (k : Nat) : ∀ e ∈ [(0x10000, 0), (0x10000, 0x20000), (0x10000, 0x40000), (0x10FFC, 0), (0x10FFC, 4)],
    (windowedAt e.1 r).devicePlace 0 (word (7 * 2 ^ 60 + (e.1 + e.2) % 2 ^ 60)) k = some (e.1 + e.2) :=
  fun _ he => windowed_in r k (List.all_eq_true.mp (show List.all _ inRegion = true by decide) _ he)
theorem windowed_place (r : HostRequest) (k n : Nat) (hn : n = 8 ∨ n = 12) :
    ∀ off ∈ [0, 0x20000, 0x40000], (windowed r).windowBytes 0 off n k = some [(0x10000 + off, n)] := by
  intro off ho
  simp only [List.mem_cons, List.not_mem_nil, or_false] at ho
  have ht : Tab.get (0, 0) (windowed r).compat 0 = (0x10000, 0x100000) := rfl
  have hc : 0 < n ∧ off % 4096 + n ≤ 4096 ∧ off + n ≤ min 0x100000 (2 ^ 36) ∧ min n (4096 - (0x10000 + off) % 4096) = n := by
    rcases ho with rfl | rfl | rfl <;> rcases hn with rfl | rfl <;> decide
  have hx := windowed_at r k (0x10000, off) (by rcases ho with rfl | rfl | rfl <;> decide)
  simp only [State.windowBytes, ht, hc.2.2.2]
  rw [if_pos ⟨hc.1, hc.2.1, hc.2.2.1⟩]
  change (match (windowedAt 0x10000 r).devicePlace 0 (word (7 * 2 ^ 60 + (0x10000 + off) % 2 ^ 60)) k, _ with | some p, some rest => some ((p, n) :: rest) | _, _ => none) = _
  rw [hx]
  rfl
/-- A request that lies in two pages of the tenant. -/
theorem windowed_split (r : HostRequest) (k : Nat) : (windowedAt 0x10FFC r).windowBytes 0 0 8 k = some [(0x10FFC, 4), (0x11000, 4)] := by
  have ht : Tab.get (0, 0) (windowedAt 0x10FFC r).compat 0 = (0x10FFC, 0x100000) := rfl
  have h0 := windowed_at r k (0x10FFC, 0) (by decide)
  have h1 := windowed_at r k (0x10FFC, 4) (by decide)
  simp only [State.windowBytes, ht]
  rw [if_pos (by decide), show min 8 (4096 - (0x10FFC + 0) % 4096) = 4 by decide]
  simp only [Nat.reduceEqDiff, if_false, Nat.zero_add, h0, h1, Option.map_some]
/-- Some word of the region is in neither of two pages. -/
theorem windows (x y : Nat) : ∃ off ∈ [0, 0x20000, 0x40000], inPage x (0x10000 + off) 8 = false ∧ inPage y (0x10000 + off) 8 = false := by
  by_cases h : inPage x 0x10000 8 = false ∧ inPage y 0x10000 8 = false
  · exact ⟨0, by decide, h⟩
  · by_cases h' : inPage x (0x10000 + 0x20000) 8 = false ∧ inPage y (0x10000 + 0x20000) 8 = false
    · exact ⟨0x20000, by decide, h'⟩
    · refine ⟨0x40000, by decide, ?_⟩
      simp only [inPage, Bool.and_eq_false_iff, decide_eq_false_iff_not] at h h' ⊢
      omega

theorem witness_HostEvents :
    (mailboxNamed 0 63 = true ∧ mailboxNamed 65 0 = false) ∧
    ((cancelling.launches.map (·.2)).find? (fun l => l.fn == 0 && l.mailbox == 0 && l.seq == (7 : Word).toNat % 2 ^ 32) = some live) ∧
    (cancelling.launch? live.number = some live ∧ live.status ≠ 6 ∧ (cancelled.launches.map (·.2)).find? (fun l => l.fn == 0 && l.mailbox == 0 && l.seq == (7 : Word).toNat % 2 ^ 32) =
      some { live with status := 6, phase := .ending }) ∧
    (∀ s ∈ [State.reset, waitingLaunch, refusedOnly], (s.launches.map (·.2)).find? (fun l => l.fn == 0 && l.mailbox == 0 && l.seq == (7 : Word).toNat % 2 ^ 32) = none) ∧
    (waitingLaunch.queues.find? (fun e => e.2.any (fun x => x.fn == 0 && x.mailbox == 0 && x.seq == (7 : Word).toNat % 2 ^ 32))).isSome = true ∧
    (∀ s ∈ [State.reset, refusedOnly], s.queues.find? (fun e => e.2.any (fun x => x.fn == 0 && x.mailbox == 0 && x.seq == (7 : Word).toNat % 2 ^ 32)) = none) ∧
    (refusedOnly.jobs.find? (fun j => j.unplacedRecord 0 0 7)).isSome = true ∧ State.reset.jobs.find? (fun j => j.unplacedRecord 0 0 7) = none ∧
    ((phased 3 .none).serving = true ∧ (phased 3 .none).mailboxConfigBad 0 63 0x8000000000000010 = false) ∧
    (bitsOf (0x8000000000000014 : Word).toNat 62 27 = 0 ∧ bitsOf (0x8000000000000014 : Word).toNat 15 5 = 0 ∧ bitsOf (0x8000000000000014 : Word).toNat 4 0 = 20) ∧
    (let k := pageKey 64 0x3000000000000000
     State.reset.ringPage k = false ∧ (State.reset.page k).taking = none ∧ (State.reset.page k).requests = [] ∧ (State.reset.page k).holdEnd ≤ State.reset.now ∧
       State.reset.pageUsers k = []) ∧
    (let s := pageOf { Page.initial with holdEnd := 9 } []
     s.ringPage 0 = false ∧ (s.page (pageKey 0 0x3000000000000000)).device = false ∧ s.now < (s.page (pageKey 0 0x3000000000000000)).holdEnd) ∧
    (let s := pageOf owned [pageJob]
     s.ringPage 0 = false ∧ (s.page 0).device = true ∧ (s.page 0).requests = [] ∧ (s.page 0).holdEnd ≤ s.now ∧ s.pageUsers 0 = [3] ∧ pageKey 0 0x3000000000000000 = 0) ∧
    ringedPage.ringPage (pageKey 0 0x3000000000000000) = true ∧
    (∀ d : Bool, (hostBox d).ringPage (pageKey 0 0x3000000000000000) = true ∧ ((hostBox d).page (pageKey 0 0x3000000000000000)).device = d) ∧
    ((pageOf owned []).heldPosts = [] ∧ Page.initial.device = false) ∧
    ((hostBox false).mailbox 0 0).enable = true ∧ ((hostBox false).mailboxPlace 0 ((hostBox false).mailbox 0 0) 8).isSome = true ∧ (hostBox false).consumed 0 0 = 0 ∧
      (hostBox false).boxHost 0 ((hostBox false).mailbox 0 0) 0 = some 0x3000000000000000 ∧
    (pageAsked.pages.all (fun e => e.2.taking.isNone) = true ∧ pageAsked.pages.filter (fun e => pageAsked.pageDue e.2) = [(0, { Page.initial with requests := [true] })] ∧ pageAsked.ringPage 0 = false ∧
      Page.initial.device ≠ true) ∧
    (let p : Page := { owned with taking := some [3] }
     let s := pageOf p []
     s.pages.filter (fun e => e.2.taking.isSome) = [(0, p)] ∧ s.ringPage 0 = false ∧ s.pages.all (fun e => e.2.requests.isEmpty) = true ∧ ∀ i ∈ [3], s.job? i = none) ∧
    (∃ off, (∀ r k, (windowed r).windowBytes 0 off 8 k = some [(0x10000 + off, 8)] ∧ (windowed r).windowBytes 0 off 12 k = some [(0x10000 + off, 12)]) ∧
      inPage (fabricAt 0) (0x10000 + off) 8 = false ∧ inPage (entryAt 0 - 0x1000) (0x10000 + off) 8 = false) ∧
    (∀ r k, (windowedAt 0x10FFC r).windowBytes 0 0 8 k = some [(0x10FFC, 4), (0x11000, 4)]) ∧
    (phased 0 (.hostWindow 0 (.config false 7))).input = .hostWindow 0 (.config false 7) ∧
    ((pageOf owned []).page (pageKey 0 0x3000000000000000)).device = true ∧
    (∀ off ∈ [0x10, 0x18, 0x100000, 0x200000], off % 8 = 0 ∧ (State.reset.barWord 0 off).isSome = true) ∧
    State.reset.bringup.result ≠ 1 ∧ (phased 3 (.compatSet 64 0x10000 (2 ^ 36))).input = .compatSet 64 0x10000 (2 ^ 36) ∧ State.reset.resets = [] ∧
    (told2.ringRoom (fun i => some (controlAt i)) 512 = true ∧ told2.niHeld = []) ∧
    (∀ w ∈ [0x1000000FF, 0x100000301], ∀ l ∈ ([[], [firstQueued message false]] : List (List Queued)), (boxed w l).mailboxPlace 0 ((boxed w l).mailbox 0 0) 8 = some 8 ∧
      (boxed w l).consumable 0 0 = true ∧ (boxed w l).boxHost 0 ((boxed w l).mailbox 0 0) 0 = none) ∧
    ((boxed 0x1 [firstQueued message false]).mailbox 0 0).queue = 0 ∧ State.reset.consumable 0 0 = false := by
  obtain ⟨off, ho, h⟩ := windows (fabricAt 0) (entryAt 0 - 0x1000)
  have ht : told2.ringRoom (fun i => some (controlAt i)) 512 = true ∧ told2.niHeld = [] := ⟨rfl, rfl⟩
  have hw : ∃ off, (∀ r k, (windowed r).windowBytes 0 off 8 k = some [(0x10000 + off, 8)] ∧ (windowed r).windowBytes 0 off 12 k = some [(0x10000 + off, 12)]) ∧
      inPage (fabricAt 0) (0x10000 + off) 8 = false ∧ inPage (entryAt 0 - 0x1000) (0x10000 + off) 8 = false :=
    ⟨off, fun r k => ⟨windowed_place r k 8 (.inl rfl) off ho, windowed_place r k 12 (.inr rfl) off ho⟩, h⟩
  and_intros
  all_goals first | exact ht.1 | exact ht.2 | exact hw | exact windowed_split | decide +kernel

/-! Events: tenants and contexts -/

/-- Tenant 0 with cluster 0 and a request ring at a base, which holds one request: words 0 and 1. -/
def ctx0 (at' : Nat) : List Word := [0x8000000000010000, 0, 0, 0x100000, 0, 0, word (at' + 4), 0]
def ringed (at' w0 w1 : Nat) : State :=
  { phased 3 .none with
    tenants := [(0, ⟨ctx0 at', [], none⟩)]
    mem := Mem.writeN (Mem.writeN (Mem.writeN [] at' 8 1) (at' + 64) 8 w0) (at' + 72) 8 w1
    clusters := [(0, { Cluster.initial with tenant := some 0 })] }
/-- Entry 3 resident, and entry x to follow; cluster 0 the tenant's; the cores frozen with a cause. -/
def switched (x : Option Nat) (halted : Bool) (cause : Word) (resident : Option Nat) : State :=
  { phased 5 .none with
    tenants := [(0, ⟨ctx0 0, [], none⟩)]
    sched := [(0, { Sched.initial with resident := resident, switching := x })]
    clusters := [(0, { Cluster.initial with tenant := some 0, context := resident })]
    cores := (List.range 8).map (fun c => (c, { Core.initial with halted := halted, intcause := cause })) }
/-- Entry 3 is to leave for entry x in phase ph: with x = 3 it is to come back. -/
def saving (ph x : Nat) : State := { switched (some x) true 1 (some 3) with bringup := (phased ph .none).bringup }
/-- The context is back, with this core's slots frozen still (R405). -/
def restoring (debug : Bool) : State :=
  { switched none true 1 (some 3) with cores := [(0, { Core.initial with halted := true, restoring := true, debugHalt := debug })] }
/-- The context's launch has more jobs than a section holds replays (R401). -/
def overfull : State :=
  { switched (some 4) true 1 (some 3) with
    launches := [(1, { live with context := some 3 })]
    jobs := (List.range 513).map (fun i => { Job.blank with id := i, opcode := 0xA0, launch := 1 }) }
def resetting : State := { switched none false 0 none with resets := [⟨0, true, true, 0⟩] }

theorem word_nil (a : Nat) : Mem.word [] a = 0 := by
  simp only [Mem.word, Mem.readN, Mem.read]
  decide
/-- Memory moved up by b. -/
def up (b : Nat) (m : Mem) : Mem := m.map (fun c => (b + c.1, c.2))
theorem read_up (b : Nat) (m : Mem) (a : Nat) : Mem.read (up b m) (b + a) = Mem.read m a := by
  induction m with
  | nil => rfl
  | cons c r ih => simp only [up, List.map_cons, Mem.read, Nat.add_left_cancel_iff] at ih ⊢; rw [ih]
theorem word_up (b : Nat) (m : Mem) (a : Nat) : Mem.word (up b m) (b + a) = Mem.word m a := by
  have : ∀ n a, Mem.readN (up b m) (b + a) n = Mem.readN m a n := by
    intro n
    induction n with
    | zero => intro _; rfl
    | succ n ih => intro a; simp only [Mem.readN, read_up, Nat.add_assoc, ih]
  simp only [Mem.word, this]

/-- The schedule page: tenant 0's list is served and names entry 0, which is resident or not, valid or not, and has a slice and a latency limit. -/
def schedule (v : Bool) : Mem := (7, 0x80) :: (if v then [(0x1007, 0x90)] else []) ++ [(0x1008, 1), (0x100C, 1)]
def scheduled (v : Bool) (r : Option Nat) : State :=
  { phased 5 .none with
    mem := up (Config.schedulePage.toNat % 2 ^ 60) (schedule v)
    tenants := [(0, ⟨ctx0 0, [], none⟩)]
    sched := [(0, { Sched.initial with resident := r })] }
theorem schedule_head (v : Bool) (r : Option Nat) : (scheduled v r).wordAt (listHead 0) = 0x8000000000000000 := (word_up _ (schedule v) 0).trans (by cases v <;> decide)
theorem schedule_head1 (v : Bool) (r : Option Nat) : (scheduled v r).wordAt (listHead 0 + 8) = 0 := (word_up _ (schedule v) 8).trans (by cases v <;> decide)
theorem schedule_entry (v : Bool) (r : Option Nat) (i : Nat) : (scheduled v r).entryWord 0 i = (Mem.word (schedule v) (0x1000 + 8 * i)).toNat := by
  have h : entryAt 0 + 8 * i = Config.schedulePage.toNat % 2 ^ 60 + (0x1000 + 8 * i) := by simp only [entryAt, hbmAt]; omega
  simp only [State.entryWord, h, State.wordAt]
  exact congrArg BitVec.toNat (word_up _ (schedule v) (0x1000 + 8 * i))
theorem scheduled_entries (v : Bool) (r : Option Nat) : (scheduled v r).entriesOf 0 = [0] := by
  have h0 : (scheduled v r).listCurrent 0 = 0 := by simp only [State.listCurrent, schedule_head]; decide
  have h1 : (scheduled v r).entryNext 0 = 0 := by simp only [State.entryNext, schedule_entry]; cases v <;> decide
  have go : ∀ n, (scheduled v r).circle (n + 2) 0 [] = [0] := by
    intro n
    simp only [State.circle, h1, List.contains_nil, Bool.false_eq_true, if_false, List.nil_append, List.contains_cons, beq_self_eq_true, Bool.true_or, if_true]
  rw [State.entriesOf, h0]
  exact go 958
theorem scheduled_entry (v : Bool) (r : Option Nat) : (scheduled v r).entryBad 0 0 = false ∧ (scheduled v r).chosen 0 = if v then some (0, false) else none := by
  have h : (scheduled v r).entryBad 0 0 = false := by simp only [State.entryBad, schedule_entry]; cases v <;> decide
  have hx : (scheduled v r).expiredEntry 0 0 = false := by simp only [State.expiredEntry, schedule_entry, h]; cases v <;> decide
  have hv : (entryValid ((scheduled v r).entryWord 0 0) && (entryState ((scheduled v r).entryWord 0 0) == 0 || entryState ((scheduled v r).entryWord 0 0) == 1)) = v := by
    rw [schedule_entry]; cases v <;> decide
  refine ⟨h, ?_⟩
  simp only [State.chosen, scheduled_entries, List.filter_cons, hx, Bool.false_eq_true, if_false, List.filter_nil, List.foldl_nil, List.find?_cons, h, Bool.not_false,
    Bool.true_and, hv]
  cases v <;> rfl
theorem scheduled_meets (v : Bool) (r : Option Nat) : (scheduled v r).meetEntries 0 = scheduled v r := by
  have h2 : ¬ (entryState ((scheduled v r).entryWord 0 0) = 2 ∧ (!entryValid ((scheduled v r).entryWord 0 0)) = true) := by rw [schedule_entry]; cases v <;> decide
  have hr : (scheduled v r).refusedEntries = [] := rfl
  simp only [State.meetEntries, State.rearm, scheduled_entries, List.foldl_cons, List.foldl_nil, (scheduled_entry v r).1, Bool.false_and, Bool.false_eq_true, ite_false, Bool.not_false,
    ite_true, hr, List.filter_nil]
  exact if_neg h2
theorem scheduled_boundary (v : Bool) (r : Option Nat) (hr : r = some 0 ∨ r = none ∧ v = true) :
    (scheduled v r).listServed 0 = true ∧ (scheduled v r).boundary 0 = true := by
  have h : (scheduled v r).listServed 0 = true := by simp only [State.listServed, schedule_head, schedule_head1]; decide
  refine ⟨h, ?_⟩
  have hc : (scheduled v r).sched? 0 = { Sched.initial with resident := r } := rfl
  have hs : (ctxEnable ((scheduled v r).ctx 0) && (scheduled v r).serving && (scheduled v r).bringup.phase != 4 && !(scheduled v r).resets.any (fun r => r.tenant == 0) &&
    ((scheduled v r).launchesIn 0 none).isEmpty) = true := by
    rcases hr with rfl | ⟨rfl, rfl⟩
    · cases v <;> rfl
    · rfl
  have ht := (scheduled_entry v r).2
  simp only [Bool.and_eq_true] at hs
  simp only [State.boundary, h, hc, hs]
  rcases hr with rfl | ⟨rfl, rfl⟩
  · rfl
  · rw [ht]; rfl

theorem scheduled_now (v : Bool) (r : Option Nat) : (scheduled v r).expireBefore 0 ((scheduled v r).boundaryTime 0) = scheduled v r := by cases r <;> rfl

/-- A ring at b with a request to load tenant 0's record, which names the ring at 0. -/
def recorded (b : Nat) : State := { ringed b 3 0 with mem := Mem.writeN (ringed b 3 0).mem (controlAt 0x5030) 8 4 }
/-- The ring's words lie apart from the record. -/
def apart (b : Nat) : Prop := controlAt 0x5000 + 64 ≤ b ∨ b + 96 ≤ controlAt 0x5000
theorem some_apart : ∃ b ∈ [0x10000, 0x20000], apart b := by
  by_cases h : apart 0x20000
  · exact ⟨0x20000, by decide, h⟩
  · exact ⟨0x10000, by decide, by unfold apart at *; omega⟩
theorem word_out (m : Mem) (a n x i : Nat) (h : i + 8 ≤ a ∨ a + n ≤ i) : Mem.word (Mem.writeN m a n x) i = Mem.word m i := by
  simp only [Mem.word]
  rw [Mem.readN_congr (Mem.writeN m a n x) m i 8 (fun y h1 h2 => Mem.read_writeN_out _ _ _ _ _ (by omega))]
theorem word_at (m : Mem) (a x : Nat) : Mem.word (Mem.writeN m a 8 x) a = word (x % 256 ^ 8) := by simp only [Mem.word, Mem.readN_writeN]; rfl
theorem control_at (i : Nat) : Machine.controlAt (0x5000 + 64 * 0 + 8 * i) = Machine.controlAt 0x5000 + 8 * i := by simp only [Machine.controlAt, hbmAt]; omega
/-- Tenant 0's record without and with its ring. -/
theorem ring_apart {b : Nat} (h : apart b) :
    (ringed b 3 0).contextRecord 0 = List.replicate 8 0 ∧ (recorded b).contextRecord 0 = [0, 0, 0, 0, 0, 0, 4, 0] := by
  have zero : ∀ i, i < 8 → (ringed b 3 0).wordAt (controlAt 0x5000 + 8 * i) = 0 := by
    intro i hi
    simp only [State.wordAt, ringed]
    rw [word_out _ _ _ _ _ (by unfold apart at h; omega), word_out _ _ _ _ _ (by unfold apart at h; omega), word_out _ _ _ _ _ (by unfold apart at h; omega)]
    exact word_nil _
  have six : controlAt 0x5030 = controlAt 0x5000 + 48 := by simp only [Machine.controlAt, hbmAt]
  constructor
  · refine List.ext_getElem (by simp [State.contextRecord]) (fun i h1 h2 => ?_)
    simp only [State.contextRecord, List.getElem_map, List.getElem_range, control_at, zero i (by simpa using h2), List.getElem_replicate]
  · have hx : ∀ i, i < 8 → (recorded b).wordAt (controlAt 0x5000 + 8 * i) = if i = 6 then 4 else 0 := by
      intro i hi
      simp only [State.wordAt, recorded, six]
      by_cases h6 : i = 6
      · subst h6
        rw [if_pos rfl]
        exact (word_at _ _ _).trans (by decide)
      · rw [if_neg h6, word_out _ _ _ _ _ (by omega)]
        exact zero i hi
    simp only [State.contextRecord, control_at, show List.range 8 = [0, 1, 2, 3, 4, 5, 6, 7] from rfl, List.map_cons, List.map_nil]
    rw [hx 0 (by decide), hx 1 (by decide), hx 2 (by decide), hx 3 (by decide), hx 4 (by decide), hx 5 (by decide), hx 6 (by decide), hx 7 (by decide)]
    rfl
/-- The record apart, the ring stands as it did. -/
theorem recorded_head {b : Nat} (hb : b = 0x10000 ∨ b = 0x20000) (h : apart b) : (recorded b).ringHead 0 = some (b + 64, [3, 0, 0, 0]) := by
  have six : controlAt 0x5030 = controlAt 0x5000 + 48 := by simp only [Machine.controlAt, hbmAt]
  have same : ∀ a, b ≤ a → a + 8 ≤ b + 96 → (recorded b).wordAt a = (ringed b 3 0).wordAt a := by
    intro a h1 h2
    simp only [State.wordAt, recorded, six]
    exact word_out _ _ _ _ _ (by unfold apart at h; omega)
  have ho : (recorded b).ringOf 0 = some (b, 16) := by rcases hb with rfl | rfl <;> decide
  have hc : (recorded b).ringConsumed b = 0 := by
    simp only [State.ringConsumed, hbmAt]
    rw [same (b + 8) (by omega) (by omega)]
    rcases hb with rfl | rfl <;> decide +kernel
  have hp : (recorded b).ringProduced b = 1 := by
    simp only [State.ringProduced, hbmAt]
    rw [same b (by omega) (by omega)]
    rcases hb with rfl | rfl <;> decide +kernel
  simp only [State.ringHead, ho, hc, hp, hbmAt, show List.range 4 = [0, 1, 2, 3] from rfl, List.map_cons, List.map_nil]
  rw [same (b + 64 + 32 * (0 % 16) + 8 * 0) (by omega) (by omega), same (b + 64 + 32 * (0 % 16) + 8 * 1) (by omega) (by omega),
    same (b + 64 + 32 * (0 % 16) + 8 * 2) (by omega) (by omega), same (b + 64 + 32 * (0 % 16) + 8 * 3) (by omega) (by omega)]
  rcases hb with rfl | rfl <;> decide +kernel

theorem witness_TenantEvents :
    (∀ k ∈ [0, 1, 2, 3, 4], (ringed 0x10000 k 0).ringHead 0 = some (0x10040, [k, 0, 0, 0]) ∧ reqKind [k, 0, 0, 0] = k ∧ reqVoid 0 [k, 0, 0, 0] = false) ∧
    (∃ b, (∀ s ∈ [ringed b 3 0, recorded b], s.ringHead 0 = some (b + 64, [3, 0, 0, 0]) ∧ s.serving = true ∧ s.clusters.any (fun e => e.2.requests.any isFreeing) = false) ∧
      (ringed b 3 0).loadSkipped (reqTenant 0 [3, 0, 0, 0]) ((ringed b 3 0).contextRecord (reqTenant 0 [3, 0, 0, 0])) = true ∧
      (recorded b).loadSkipped (reqTenant 0 [3, 0, 0, 0]) ((recorded b).contextRecord (reqTenant 0 [3, 0, 0, 0])) = false) ∧
    (∀ q ∈ [0, 1, 64, 0x140], (ringed 0x10000 5 q).ringHead 0 = some (0x10040, [5, q, 0, 0]) ∧ reqKind [5, q, 0, 0] = 5 ∧ reqVoid 0 [5, q, 0, 0] = false ∧
      Tab.find (ringed 0x10000 5 q).tenants (reqTenant 0 [5, q, 0, 0]) = some ⟨ctx0 0x10000, [], none⟩) ∧ (ctx0 0x10000).length = 8 ∧
    (∀ n ∈ [0, 65], (ringed 0x10000 6 (n * 2 ^ 16)).ringHead 0 = some (0x10040, [6, n * 2 ^ 16, 0, 0]) ∧ reqKind [6, n * 2 ^ 16, 0, 0] = 6 ∧ reqVoid 0 [6, n * 2 ^ 16, 0, 0] = false ∧
      (bitsOf ([6, n * 2 ^ 16, 0, 0].getD 1 0) 22 16 = 0 ∨ 64 < bitsOf ([6, n * 2 ^ 16, 0, 0].getD 1 0) 22 16)) ∧
    (∀ n ∈ [1, 64], (let w := [6, n * 2 ^ 16, 0, 0]; let s := ringed 0x10000 6 (n * 2 ^ 16)
      s.ringHead 0 = some (0x10040, w) ∧ reqKind w = 6 ∧ reqVoid 0 w = false ∧ 1 ≤ bitsOf (w.getD 1 0) 22 16 ∧ bitsOf (w.getD 1 0) 22 16 ≤ 64 ∧ bitOf (w.getD 1 0) 11 = false ∧
        ctxHolds (s.ctx (reqTenant 0 w)) 0 = true ∧ s.freeing? 0 = none ∧
        ((s.startFreeing 0 0 (some (bitsOf (w.getD 1 0) 22 16)) (bitOf (w.getD 1 0) 23)).freeTurn 0 (reqTenant 0 w) 70).freed
          0 (reqTenant 0 w) = true)) ∧
    (ringed 0x10000 4 0).resets = [] ∧
    (∀ b r, r = some 0 ∨ r = none ∧ b = true → (let v := (scheduled b r).expireBefore 0 ((scheduled b r).boundaryTime 0)
     let u := if v.listServed 0 then v.meetEntries 0 else v
     u.boundary 0 = true ∧ (u.sched? 0).resident = r ∧ u.chosen 0 = if b then some (0, false) else none)) ∧
    (let s := switched (some 4) true 1 (some 3)
     (s.sched? 0).resident = some 3 ∧ (s.sched? 0).switching = some 4 ∧ (s.sched? 0).limitEnd ≤ s.now ∧
       (s.partition 0).all (fun cl => decide ((replaysIn (s.contextJobs 0 3) cl).length ≤ 512)) = true ∧ s.saveReady 0 3 = true ∧
       s.resets.any (fun r => r.tenant == 0) = false) ∧
    (∀ ph ∈ [4, 5], ∀ x ∈ [3, 4], (let s := saving ph x
     (s.sched? 0).resident = some 3 ∧ (s.sched? 0).switching = some x ∧ s.saveReady 0 3 = true ∧ s.resets.any (fun r => r.tenant == 0) = false ∧ s.bringup.phase = ph ∧
       ctxEnable (s.ctx 0) = true)) ∧
    ((overfull.sched? 0).resident = some 3 ∧ (overfull.sched? 0).switching = some 4 ∧ (overfull.sched? 0).limitEnd ≤ overfull.now ∧
      (overfull.partition 0).all (fun cl => decide ((replaysIn (overfull.contextJobs 0 3) cl).length ≤ 512)) = false) ∧
    ((switched (some 4) false 0 (some 3)).switchingOn 0 = true ∧ (switched (some 4) false 0 (some 3)).stoppedBy 0 1 = false) ∧
    (resetting.ownerOf 0 = some 0 ∧ resetting.resets.any (fun r => r.tenant == 0 && r.begun) = true ∧ resetting.stoppedBy 0 5 = false) ∧
    ((switched none false 0 (some 3)).switchingOn 0 = false ∧ ((switched none false 0 (some 3)).core 0).restoring = false) ∧
    (∀ d ∈ [false, true], (let s := restoring d
     s.ownerOf 0 = some 0 ∧ (s.core 0).restoring = true ∧ (s.core 0).debugHalt = d ∧ (s.sched? 0).resident.isSome = true ∧
       (s.sched? 0).resident = (s.cluster (clusterOf 0)).context ∧ (s.sched? 0).switching = none)) := by
  refine ⟨by decide +kernel, ?_, ?_⟩
  · obtain ⟨b, hb, h⟩ := some_apart
    simp only [List.mem_cons, List.not_mem_nil, or_false] at hb
    refine ⟨b, ?_, ?_, ?_⟩
    · intro s hs
      simp only [List.mem_cons, List.not_mem_nil, or_false] at hs
      rcases hs with rfl | rfl
      · rcases hb with rfl | rfl <;> decide +kernel
      · exact ⟨recorded_head hb h, rfl, rfl⟩
    · rw [show reqTenant 0 [3, 0, 0, 0] = 0 from rfl, (ring_apart h).1]
      rcases hb with rfl | rfl <;> decide +kernel
    · rw [show reqTenant 0 [3, 0, 0, 0] = 0 from rfl, (ring_apart h).2]
      rcases hb with rfl | rfl <;> decide +kernel
  · have slice : ∀ b r, r = some 0 ∨ r = none ∧ b = true → (let v := (scheduled b r).expireBefore 0 ((scheduled b r).boundaryTime 0)
        let u := if v.listServed 0 then v.meetEntries 0 else v
        u.boundary 0 = true ∧ (u.sched? 0).resident = r ∧ u.chosen 0 = if b then some (0, false) else none) := by
      intro b r hr
      have hv : (scheduled b r).expireBefore 0 ((scheduled b r).boundaryTime 0) = scheduled b r := scheduled_now b r
      simp only [hv, (scheduled_boundary b r hr).1, if_true, scheduled_meets]
      exact ⟨(scheduled_boundary b r hr).2, rfl, (scheduled_entry b r).2⟩
    and_intros
    all_goals first | exact slice | decide +kernel

/-! Events: the fabric, bring-up and health -/

/-- The fabric page with a valid receive entry for job 0 and tenant 0, or none. -/
def receiving (m : Mem) : State := { State.reset with mem := up (Config.fabricPage.toNat % 2 ^ 60) m }
def narrowed : State := { State.reset with ports := [(0, word (0xF * 2 ^ 16 + 0x10))] }
def renegotiating : State := { State.reset with ports := [(0, word (0xF * 2 ^ 16 + 1))] }
/-- A request of an XGET that did not come through, and a port that is up. -/
def lostOne : Sent := ⟨3, 0, .read, 0, 8, 16, 8, 0, [], none, 0⟩
def sentOne : State :=
  { State.reset with
    sent := [lostOne]
    jobs := [{ Job.blank with id := 3, opcode := 0xAE, run := [0, 0, S 0, 24], total := 3, next := 3, started := true }]
    uePorts := [(5, true)] }
/-- Links whose renegotiation is over: a local one, and a global one. -/
def overdueLinks : State := { renegotiating with ports := [(0, word (0xFFFF * 2 ^ 16 + 1)), (1, word (0xF * 2 ^ 16 + 1))], renegotiating := [(0, 0), (1, 0)] }
/-- Requests held after a router's failure: one is due, and one is not. -/
def heldJobs : State :=
  { State.reset with
    timeBase := 50
    jobs := [{ Job.blank with id := 3, opcode := 0xA0, resendAt := some 50 }, { Job.blank with id := 4, opcode := 0xA0, resendAt := some 51 }, { Job.blank with id := 5, opcode := 0xA0 }] }
/-- Tenant 0 with a congestion table of one entry, a rate and a burst. -/
def transported : State :=
  { State.reset with tenants := [(0, ⟨[], [0, 1, 0, 0x6400000010], none⟩)], clusters := [(0, { Cluster.initial with tenant := some 0, bucket := -64 })], timeBase := 5000 }

theorem find_first {α β : Type} {p : α → Bool} {f : α → β} {a : α} {l : List α} {b : β} (hp : p a = true) (hf : f a = b) :
    ((a :: l).find? p).map f = some b := by
  rw [List.find?_cons_of_pos hp, Option.map_some, hf]

/-- A packet's partition entry: none in an empty table, function 0 for the first entry of a table that lists it. -/
theorem received : (receiving []).receiver 0 = none ∧ (receiving [(0xB007, 0x80)]).receiver 0 = some 0 := by
  constructor
  · have h : ∀ a, (receiving []).wordAt a = 0 := word_nil
    simp only [State.receiver, h]
    decide +kernel
  · have h : (receiving [(0xB007, 0x80)]).wordAt (fabricAt (0xB000 + 16 * 0)) = 0x8000000000000000 := by
      have e : ∀ n, fabricAt n = Config.fabricPage.toNat % 2 ^ 60 + n := fun _ => rfl
      rw [e]
      exact (word_up _ [(0xB007, 0x80)] (0xB000 + 16 * 0)).trans (by decide)
    have h3 : List.range 64 = 0 :: List.range' 1 63 := rfl
    let w : Nat → Nat := fun i => ((receiving [(0xB007, 0x80)]).wordAt (fabricAt (0xB000 + 16 * i))).toNat
    have hw : w 0 = 0x8000000000000000 := congrArg BitVec.toNat h
    rw [State.receiver, h3]
    exact find_first (p := fun i => bitOf (w i) 63 && bitsOf (w i) 23 0 == 0) (f := fun i => bitsOf (w i) 62 56) (by simp only [hw]; decide) (by simp only [hw]; decide)

theorem witness_FabricEvents :
    (portState (State.reset.portWord 255 15) < 2 ∧ (portGood (State.reset.portWord 255 15)).testBit 15 = true ∧
      ((State.reset.laneFaults.filter (fun f => decide (State.reset.now < f.2.2.2 + 1000000))).filter (fun f => (linkKeys 255 15).contains (16 * f.1 + f.2.1) && f.2.2.1 == 15)).length < 15) ∧
    ((linkKeys 3 5 = [53, 83] ∧ farEnd 0 0 = some (30, 14)) ∧ farEnd 255 15 = none) ∧
    (State.reset.fabricControl.getLsbD 0 = true ∧ portNarrowed (State.reset.portWord 0 0) = false ∧ portState (State.reset.portWord 0 0) = 0 ∧ portWidth (State.reset.portWord 0 0) < 2 ∧ 8 * 9999 < State.reset.linkCapacity 0 0) ∧
    (widest (portLanes 0 1) (popcount16 (portGood (narrowed.portWord 0 1))) = some 0 ∧ portState (narrowed.portWord 0 1) = 0) ∧
    (widest (portLanes 0 0) (popcount16 (portGood (({ State.reset with ports := [(0, word (0xFFFF * 2 ^ 16 + 0x10))] } : State).portWord 0 0))) = some 0 ∧
      portState (({ State.reset with ports := [(0, word (0xFFFF * 2 ^ 16 + 0x10))] } : State).portWord 0 0) = 0 ∧
      0 < portWidth (({ State.reset with ports := [(0, word (0xFFFF * 2 ^ 16 + 0x10))] } : State).portWord 0 0)) ∧
    portState (renegotiating.portWord 0 0) = 1 ∧ (∀ e ∈ overdueLinks.renegotiating, e.2 ≤ overdueLinks.clock) ∧ bitsOf (State.reset.routerWord 255) 7 0 = 0 ∧ Tab.get false State.reset.uePorts 15 ≠ true ∧
    (receiving []).receiver 0 = none ∧ (receiving [(0xB007, 0x80)]).receiver 0 = some 0 ∧
    ((receiving [(0xB007, 0x80)]).seenPacket 0 9).isNone = true ∧ (({ receiving [(0xB007, 0x80)] with gotPackets := [(0, 9)] } : State).seenPacket 0 9).isSome = true ∧
    (sentOne.sent.find? (fun x => x.job == 3 && x.off == 16 && sentOne.lost x) = some lostOne ∧ sentOne.upPorts lostOne.entry = [5]) ∧
    heldJobs.jobs.map (·.resendAt) = [some 50, some 51, none] ∧ heldJobs.now = 50 ∧
    (Tab.find transported.tenants 0 = some ⟨[], [0, 1, 0, 0x6400000010], none⟩ ∧ 0 < bitsOf (msgWord [0, 1, 0, 0x6400000010] 1) 15 0) ∧
    ((transported.cluster 0).tenant = some 0 ∧ transported.rate 0 ≠ 0) := by
  and_intros
  all_goals first | with_reducible exact received.1 | with_reducible exact received.2 | decide +kernel

/-- The servo locked, or in holdover; a phase of bring-up; a busy command. -/
def disciplined (d : Discipline) : State := { State.reset with servo := { State.reset.servo with state := d, port := 5, masters := [(3, 7), (5, 2), (9, 2)] } }
/-- An hour after lock, holdover for a second. -/
def drifting : State :=
  { disciplined .holdover with servo := { (disciplined .holdover).servo with lostAt := 3600000000000 }, timeBase := 3601000000000 }
def busy (c len : Nat) (up : Option (List Byte)) : State :=
  { phased 5 .none with bringup := { (phased 5 .none).bringup with result := 1, command := c, length := len }, update := up }

theorem witness_BringupAndHealthEvents :
    ((disciplined .freeRunning).servo.state ≠ .locked ∧ (disciplined .locked).servo.state = .locked ∧ (disciplined .holdover).servo.state ≠ .locked) ∧
    ((disciplined .freeRunning).servo.selected = some 5 ∧ (disciplined .locked).servo.port = 5 ∧ State.reset.servo.selected = none) ∧
    (withinDrift drifting 20 ∧ ¬ withinDrift drifting 21 ∧ drifting.servo.state = .holdover ∧ drifting.servo.selected ≠ some 3 ∧
      1000 * (drifting.core 0).holdlimit.toNat < (-10001 : Int).natAbs ∧ withinDrift (disciplined .holdover) (-10001)) ∧
    (let s : State := { disciplined .locked with timeBase := 4000000000 }
     s.input = .none ∧ s.servo.state = .locked ∧ s.servo.heard + 4000000000 ≤ s.now) ∧
    (State.reset.servo.lostAt - State.reset.servo.lockedAt < 3600000000000 ∧
      (let s : State := { disciplined .holdover with servo := { (disciplined .holdover).servo with lostAt := 3600000000000 }, timeBase := 3601000000000 }
       ¬ s.servo.lostAt - s.servo.lockedAt < 3600000000000 ∧ (20 - s.servo.lostErr).natAbs ≤ 20 * ((s.now - s.servo.lostAt + 999999999) / 1000000000))) ∧
    ((disciplined .holdover).servo.state = .holdover ∧ (disciplined .holdover).servo.limitPosted = false ∧
      1000 * ((disciplined .holdover).core 0).holdlimit.toNat < (-10001 : Int).natAbs) ∧
    (∀ p ∈ [1, 2, 3], (phased p .none).bringup.phase = p ∧ (phased p .none).bringup.failed = [] ∧ (phased p .none).bringup.failed.contains 15 = false) ∧ (phased 4 .none).switchReady = true ∧
    ((busy 1 9 none).bringup.result = 1 ∧ (busy 1 9 none).bringup.command = 1 ∧ (busy 1 9 none).commandOver = false) ∧
    ((busy 2 8191 none).bringup.command = 2 ∧ (busy 2 8191 none).commandOver = false ∧ (busy 2 8191 none).bringup.length < 8192) ∧
    (let s := busy 2 (8192 + 3932 + Config.identityCertificate.length) none
     s.bringup.result = 1 ∧ s.bringup.command = 2 ∧ s.commandOver = false ∧ 8192 ≤ s.bringup.length ∧ 3932 + Config.identityCertificate.length ≤ s.bringup.length) ∧
    ((busy 1 9 (some [1])).commandOver = true ∧ (busy 1 9 (some [1])).bringup.reason = 0 ∧ (busy 1 9 (some [1])).update = some [1]) ∧
    ({ busy 1 9 none with bringup := { (busy 1 9 none).bringup with reason := 1 } } : State).commandOver = true ∧
    (State.reset.health.limit < (⟨0, 0, 0, 5601⟩ : Telemetry).power.toNat ∧ 950 ≤ (⟨0, 950, 0, 0⟩ : Telemetry).hottest.toNat) ∧
    (({ State.reset with health := { State.reset.health with throttling := true } } : State).tooHot State.reset.health.reading = false) ∧
    (let s : State := { State.reset with health := { State.reset.health with reading := ⟨0, 1050, 0, 5601⟩ } }
     s.input = .none ∧ s.health.throttling = false ∧ s.health.limit < s.health.reading.power.toNat ∧ 1050 ≤ s.health.reading.hottest.toNat ∧ s.health.stopped = false) ∧
    State.reset.health.stopped = false ∧ (phased 3 .none).telemetryDue = true := by
  and_intros
  all_goals first | decide +kernel | (unfold withinDrift; decide +kernel) | rfl | (simp only [busy]; omega)

/-! The machine as a whole -/

/-- Does a step answer a next state? -/
def goesOn (o : Host.Outcome State Fault Refusal) : Bool := match o with | .next _ => true | _ => false
theorem goesOn_of {o : Host.Outcome State Fault Refusal} (h : goesOn o = true) : ∃ t, o = .next t := by cases o <;> simp_all [goesOn]

theorem witness_MemoryStaysCanonical : State.reset.Canonical ∧ ∃ t, step State.reset = .next t := ⟨Mem.wf_nil, goesOn_of (by decide +kernel)⟩

theorem witness_DecodeOfEncode : (Instr.ld (word96 1 4 (.g 7) (.mem 9 (-3)) .none 2)).encodable = true ∧
    encode (.ld (word96 1 4 (.g 7) (.mem 9 (-3)) .none 2)) = some 0x8010800007A9FFDE00000002 := by decide +kernel

/-- Does slot 0 of core 0 issue next, in a state of which p holds? -/
def issuesIn (m : Move) (p : State → Bool) : Bool := match m with | .issue c n s1 => c == 0 && n == 0 && p (s1.select 0 0) | _ => false
theorem issuesIn_of {m : Move} {p : State → Bool} (h : issuesIn m p = true) : ∃ s1, m = .issue 0 0 s1 ∧ p (s1.select 0 0) = true := by
  cases m with
  | issue c n s1 =>
    simp only [issuesIn, Bool.and_eq_true, beq_iff_eq] at h
    obtain ⟨⟨rfl, rfl⟩, hp⟩ := h
    exact ⟨s1, rfl, hp⟩
  | _ => simp [issuesIn] at h

/-- A launch past its deadline runs on core 0. -/
def overrun : State := { withSlot { runner with pc := 0 } with launches := [(1, { live with msg := overdue })], timeBase := 10 }

/-- Slot 0 of core 0 issues; past the end of the code; past its deadline; at its bound; and on a core without an image. -/
theorem witness_StepRunsTheDecodedInstruction :
    (∃ s1, base.move = .issue 0 0 s1 ∧ decide ((s1.select 0 0).timeUp = none ∧ (s1.select 0 0).boundHit = none ∧ (s1.select 0 0).code = some (image.code, 12) ∧
      (s1.select 0 0).me.pc.toNat < 12) = true) ∧
    decodeBytes (codeBytes image.code 0) = .ok (.nop (fl (.g 0) (.g 0) (.g 0) 0), []) ∧
    (∃ s1, (withSlot { runner with pc := 12 }).move = .issue 0 0 s1 ∧
      decide ((s1.select 0 0).timeUp = none ∧ (s1.select 0 0).boundHit = none ∧ (s1.select 0 0).code = some (image.code, 12) ∧ 12 ≤ (s1.select 0 0).me.pc.toNat) = true) ∧
    (∃ s1, overrun.move = .issue 0 0 s1 ∧ decide ((s1.select 0 0).privileged = false ∧ (s1.select 0 0).timeUp = some (.deadlineExpiry 1 0)) = true) ∧
    (∃ s1, (withSlot { runner with kind := .wrapup, count := 16 }).move = .issue 0 0 s1 ∧
      decide ((s1.select 0 0).privileged = false ∧ (s1.select 0 0).timeUp = none ∧ (s1.select 0 0).boundHit = some (.wrapupBudgetExhausted 0 0)) = true) ∧
    (∃ s1, (withCore { core0 with image := none }).move = .issue 0 0 s1 ∧ decide ((s1.select 0 0).timeUp = none ∧ (s1.select 0 0).boundHit = none ∧
      (s1.select 0 0).code = none) = true) :=
  ⟨issuesIn_of (p := fun u => decide (u.timeUp = none ∧ u.boundHit = none ∧ u.code = some (image.code, 12) ∧ u.me.pc.toNat < 12)) (by decide +kernel),
    gives_of (by decide +kernel),
    issuesIn_of (p := fun u => decide (u.timeUp = none ∧ u.boundHit = none ∧ u.code = some (image.code, 12) ∧ 12 ≤ u.me.pc.toNat)) (by decide +kernel),
    issuesIn_of (p := fun u => decide (u.privileged = false ∧ u.timeUp = some (.deadlineExpiry 1 0))) (by decide +kernel),
    issuesIn_of (p := fun u => decide (u.privileged = false ∧ u.timeUp = none ∧ u.boundHit = some (.wrapupBudgetExhausted 0 0))) (by decide +kernel),
    issuesIn_of (p := fun u => decide (u.timeUp = none ∧ u.boundHit = none ∧ u.code = none)) (by decide +kernel)⟩

/-! ### Single instructions, with results from the manual's own worked cases and words -/

/-- The state after an instruction, on a base with some registers. -/
def after (i : Instr) (s : State) : State := match exec i s with | .next t => t | _ => s
def withG (l : List (Nat × Word)) : State := withSlot { runner with g := l.foldl (fun g e => g.setIfInBounds e.1 e.2) runner.g }
def withV (l : List (Nat × Line)) : State := withSlot { runner with v := l.foldl (fun g e => g.setIfInBounds e.1 e.2) runner.v }
/-- The value of g6, v6 or m1 after an instruction. -/
def g6 (i : Instr) (s : State) : Word := (after i s).me.readG 6
/-- A line whose low lanes of w bits are given. -/
def line (w : Nat) (l : List Nat) : Line := BitVec.ofNat 512 (pack w l)

/-- R190: an immediate is sign-extended; the sum wraps. -/
theorem test_add_wraps : g6 (.add (fl (.g 6) (.g 3) (.imm 0x1FFFC) 0)) base = 0xFFFFFFFFFFFFFFFF := by decide +kernel
/-- R188, R198: div.x32 and rem.x32 with −7 and 2 give −3 and −1; div.u with 0 gives all ones. -/
theorem test_div : [g6 (.div (fl (.g 6) (.g 8) (.imm 2) 0x20)) (withG [(8, 0xFFFFFFF9)]), g6 (.rem (fl (.g 6) (.g 8) (.imm 2) 0x20)) (withG [(8, 0xFFFFFFF9)]),
    g6 (.div (fl (.g 6) (.g 3) (.imm 0) 0x10)) base] = [0xFFFFFFFFFFFFFFFD, 0xFFFFFFFFFFFFFFFF, 0xFFFFFFFFFFFFFFFF] := by decide +kernel
/-- R197: mulh of −1 and −1 is 0, and under .u is 2^64 − 2. -/
theorem test_mulh : [g6 (.mulh (fl (.g 6) (.g 8) (.g 8) 0)) (withG [(8, -1)]), g6 (.mulh (fl (.g 6) (.g 8) (.g 8) 0x10)) (withG [(8, -1)])] =
    [0, 0xFFFFFFFFFFFFFFFE] := by decide +kernel
/-- R197: adds.x8 clamps 127 + 1 to 127; avg rounds (3 + 4 + 1) ÷ 2 to 4; in clamp b wins where a > b. -/
theorem test_clamped : [g6 (.adds (fl (.g 6) (.g 8) (.imm 1) 0x60)) (withG [(8, 127)]), g6 (.avg (fl (.g 6) (.g 3) (.g 4) 0)) base,
    g6 (.clamp (fl (.g 6) (.g 4) (.g 3) 0)) (withG [(6, 9)])] = [127, 4, 3] := by decide +kernel
/-- R199: sar by the width or more gives copies of the sign; shl and shr give 0; rol turns by the count mod 8. -/
theorem test_shifts : [g6 (.sar (fl (.g 6) (.g 8) (.imm 8) 0x60)) (withG [(8, 0x80)]), g6 (.shl (fl (.g 6) (.g 8) (.imm 64) 0)) (withG [(8, 1)]),
    g6 (.shr (fl (.g 6) (.g 8) (.imm 8) 0x60)) (withG [(8, 0x80)]), g6 (.rol (fl (.g 6) (.g 8) (.imm 9) 0x70)) (withG [(8, 0x81)])] =
    [0xFFFFFFFFFFFFFFFF, 0, 0, 3] := by decide +kernel
/-- R199: clz of 0 in 16 bits is 16; brev.x8.u of 1 is 0x80. -/
theorem test_counts : [g6 (.clz (fl (.g 6) (.g 8) .none 0x40)) (withG [(8, 0)]), g6 (.brev (fl (.g 6) (.g 8) .none 0x70)) (withG [(8, 1)])] = [16, 0x80] := by decide +kernel
/-- R200: ext.u with 8 + 64 × 15 gives bits 23 to 8. -/
theorem test_ext : g6 (.ext (fl (.g 6) (.g 8) (.imm 968) 0x10)) (withG [(8, 0x12345678)]) = 0x3456 := by decide +kernel
/-- R201: hash64(0, 0) = 0. -/
theorem test_hash : g6 (.hash (fl (.g 6) (.g 8) (.g 8) 0)) base = 0 := by decide +kernel
/-- R202, R447: mov with D of class 1 and A of class 0 faults with TRAPVAL 3, and mset.zero with a B of class 0 with TRAPVAL 5. -/
theorem test_field_faults : base.preCheck 0x30 (fl (.v 6) (.g 1) .none 0) = some (2, 3, 0) ∧ base.preCheck 0x70 (fl (.m 1) .none (.g 3) 0) = some (2, 5, 0) := by decide +kernel
/-- R216: −0, and a positive subnormal of f32. -/
theorem test_fclass : [g6 (.fclass (fl (.g 6) (.g 8) .none 0)) (withG [(8, 0x80000000)]), g6 (.fclass (fl (.g 6) (.g 8) .none 0)) (withG [(8, 1)])] = [8, 32] := by decide +kernel
/-- R215: with a NaN operand, only .ne holds; under .tot, −0 < +0. -/
theorem test_fcmp : (after (.fcmp (fl (.p 6) (.g 8) (.g 8) 1)) (withG [(8, 0x7FC00000)])).me.readP 6 = true ∧
    (after (.fcmp (fl (.p 6) (.g 8) (.g 8) 0)) (withG [(8, 0x7FC00000)])).me.readP 6 = false ∧
    (after (.fcmp (fl (.p 6) (.g 8) (.g 9) 10)) (withG [(8, 0x80000000), (9, 0)])).me.readP 6 = true := by decide +kernel
/-- Conversions worked to the bit under R167: source and destination formats, rounding, saturation, encoding, result. -/
theorem test_fcvt : [(0, 1, 0, 0, 0x3DCCCCCD), (0, 3, 0, 0, 0x43960000), (0, 3, 0, 0, 0x43E60000), (0, 3, 0, 0, 0x43FA0000), (0, 3, 0, 1, 0x43FA0000), (0, 7, 0, 0, 0x40266666),
      (0, 2, 1, 0, 0xC788B800), (0, 1, 0, 0, 0x000C0000), (2, 0, 0, 0, 1), (0, 9, 0, 0, 0xC0200000), (0, 9, 0, 1, 0x43960000), (0, 9, 0, 0, 0x43960000), (0, 31, 0, 0, 0x3F400000),
      (0, 13, 0, 0, 0xBECCCCCD)].map
      (fun (e : Nat × Nat × Nat × Nat × Nat) => g6 (.fcvt (fl (.g 6) (.g 8) .none (BitVec.ofNat 16 (e.2.1 * 2048 + e.2.2.1 * 256 + e.2.2.2.1 * 128 + e.1)))) (withG [(8, word e.2.2.2.2)])) =
    [0x3DCD, 0x79, 0x7E, 0x7F, 0x7E, 0x5, 0xFBFF, 0, 0x33800000, 0xFE, 0x7F, 0x2C, 0x7F, 0] := by decide +kernel
/-- The stochastic conversion worked under R166: SEED 1 goes to 0x80200003, and 1.00390625 to 1.0 in bf16. -/
theorem test_fcvt_stochastic : g6 (.fcvt (fl (.g 6) (.g 8) .none 0x0D00)) (withG [(8, 0x3F808000)]) = 0x3F80 ∧
    (after (.fcvt (fl (.g 6) (.g 8) .none 0x0D00)) (withG [(8, 0x3F808000)])).here.seed = 0x80200003 := by decide +kernel
/-- R219: −0.3 rounds to −0 under .ru, and +0.3 to +0 under .rd. -/
theorem test_frnd : [g6 (.frnd (fl (.g 6) (.g 8) .none 0x300)) (withG [(8, 0xBE99999A)]), g6 (.frnd (fl (.g 6) (.g 8) .none 0x200)) (withG [(8, 0x3E99999A)])] = [0x80000000, 0] := by
  decide +kernel
/-- The block worked under R221: 1,000, 3.0 and −0.01 quantised to e4m3b. -/
theorem test_qnt : (after (.qnt (fl (.v 6) (.v 3) (.v 4) (23 * 2048))) (withV [(3, line 32 [0x447A0000, 0x40400000, 0xBC23D70A])])).me.readV 6 =
    line 8 ([0x7E, 0x3C, 0x83] ++ List.replicate 60 0 ++ [0x80]) := by decide +kernel
/-- The sum worked under R228: .fadd of (2^24, 1, 1, 1) along the tree is 16,777,218. -/
theorem test_vred : g6 (.vred (fl (.g 6) (.v 3) .none 5)) (withV [(3, line 32 [0x4B800000, 0x3F800000, 0x3F800000, 0x3F800000])]) = 0x4B800001 := by decide +kernel
/-- The merge worked under R231. -/
theorem test_vtopk : (after (.vtopk (fl (.v 6) (.v 3) (.imm 4) 1)) (withV [(6, line 64 [0x3F80000000000003, 0x3F00000000000007, 0x4080000000000002, 0x400000000000000B]),
      (3, line 64 ([0x3F40000000000014, 0x3F80000000000001, 0x3F00000000000007] ++ List.replicate 5 0x7FC00000FFFFFFFF))])).me.readV 6 =
    line 64 ([0x3F00000000000007, 0x3F40000000000014, 0x3F80000000000001, 0x3F80000000000003] ++ List.replicate 4 0x7FC00000FFFFFFFF) := by decide +kernel
/-- The distances worked under R232: .l2 gives 10 and .dot gives 1.1875. -/
theorem test_vdist : [0, 1].map (fun (k : Nat) => g6 (.vdist (fl (.g 6) (.v 3) (.v 4) (BitVec.ofNat 16 k))) (withV [(3, line 32 [0x3FC00000, 0xC0000000, 0x3E800000]),
      (4, line 32 [0x3F000000, 0x3F800000, 0x3E800000])])) = [0x41200000, 0x3F980000] := by decide +kernel
/-- The merged set worked under R234: members 1, 2, 4 and 9. -/
def merged : State := withSlot { runner with m := runner.m.setIfInBounds 0 0x216, w := runner.w.setIfInBounds 3 5 }
theorem test_mtov : (after (.mtov (fl (.v 1) (.m 0) (.imm 0) 0x41)) merged).me.readV 1 = line 16 ([1, 2, 4, 9] ++ List.replicate 28 0xFFFF) := by decide +kernel
theorem test_mpred_msplit : (after (.mpred (fl (.m 1) (.m 0) (.w 3) 0x40)) merged).me.readM 1 = 0x12 ∧
    (let t := after (.msplit (fl (.m 2) (.m 0) (.m 1) 0)) (after (.mpred (fl (.m 1) (.m 0) (.w 3) 0x40)) merged); t.me.readM 2 = 0x12 ∧ t.me.readM 3 = 0x204) := by decide +kernel
/-- R233: mfind gives 256 where the set holds no such member. -/
theorem test_mfind : [g6 (.mfind (fl (.g 6) (.m 0) (.imm 5) 0)) merged, g6 (.mfind (fl (.g 6) (.m 0) (.imm 10) 0)) merged, g6 (.mfind (fl (.g 6) (.m 0) (.imm 8) 1)) merged] =
    [9, 256, 4] := by decide +kernel
/-- R96: with 4 remaining and no reload, arrivals of 6 and then 2 flip twice, and of 2 and then 6 once. -/
theorem test_arrive : (let x := arriveWords 4 0 6 0; let y := arriveWords x.1 x.2 2 0; (bitsOf x.1 48 48, bitsOf y.1 48 48)) = (1, 0) ∧
    (let x := arriveWords 4 0 2 0; let y := arriveWords x.1 x.2 6 0; (bitsOf x.1 48 48, bitsOf y.1 48 48)) = (0, 1) := by decide +kernel
/-- R240: a store of 8 bytes lands at the base plus the offset, low byte first. -/
theorem test_st : (after (.st (fl .none (.mem 1 1) (.g 8) 0)) (withG [(8, 0x0102030405060708)])).mem =
    (List.range 8).map (fun i => ((⟨poolAt 0 0x408 + i, BitVec.ofNat 8 (8 - i)⟩ : Host.Cell))) := by decide +kernel
/-- R242: stef writes the word and leaves it full; on a full word it waits. -/
theorem test_stef : (let t := after (.stef (fl .none (.mem 1 0) (.imm 7) 0)) base; t.wordAt (poolAt 0 0x400) = 7 ∧ t.full = [poolAt 0 0x400 / 8]) ∧
    (after (.stef (fl .none (.mem 1 0) (.imm 7) 0)) filled).me.st = .stalled := by decide +kernel
/-- R244: a cas that does not match leaves the word and gives its old value. -/
theorem test_latom_cas : (let t := after (.latom (fl (.g 6) (.mem 1 0) (.imm 9) 9)) (withG [(6, 5)]); t.me.readG 6 = 0 ∧ t.wordAt (poolAt 0 0x400) = 0) ∧
    (let t := after (.latom (fl (.g 6) (.mem 1 0) (.imm 9) 9)) base; t.me.readG 6 = 0 ∧ t.wordAt (poolAt 0 0x400) = 9) := by decide +kernel
/-- R184, R193: trap enters the handler of the image with cause 0x14, and rft resumes after it. -/
theorem test_trap_rft : (let t := after (.trap (fl .none (.imm 5) .none 0)) base
    t.me.inTrap = true ∧ t.me.trapCause = 0x14 ∧ t.me.trapVal = 5 ∧ t.me.trapPc = 0 ∧ t.me.pc = 0x24 ∧ (after (.rft (fl .none .none .none 0)) t).me.pc = 12) := by decide +kernel
/-- R172: a call to a target that is no multiple of 12 faults with cause 0x06. -/
theorem test_misaligned_target : (after (.jmp (fl .none (.g 3) .none 0)) base).me.trapCause = 6 := by decide +kernel
/-- R192: END frees the slot. -/
theorem test_end : ((after (.endFiring (fl .none .none .none 0)) base).slot 0 0).st = .free := by decide +kernel

end Sys2Proof.Tests
end

section

/-! PROOF. Every step keeps memory in its canonical form (O57; R7, R87). The layers, from below: the operations that leave memory as it is
(`_mem`); results whose states are canonical (`Res.Holds`), and the checks and operand rules in that form (`_holds`); the operations that
write memory (`_canonical`), which reach it through `Mem.writeN`, `Mem.zero`, `Mem.overlay` and `Mem.filter` alone; the instructions and
events; and the step that dispatches them. -/

namespace Sys2Proof.Machine
open Sys2Proof.Num

/-! ### Parts that leave memory as it is -/

@[simp] theorem State.ite_mem (c : Prop) [Decidable c] (s t : State) : (if c then s else t).mem = if c then s.mem else t.mem :=
  apply_ite State.mem c s t

/-- A fold keeps what each of its steps keeps. -/
@[simp] theorem State.foldl_mem {α : Type} (l : List α) (f : State → α → State) (s : State) (h : ∀ t a, (f t a).mem = t.mem) :
    (l.foldl f s).mem = s.mem := by
  induction l generalizing s with
  | nil => rfl
  | cons a l ih => rw [List.foldl_cons, ih, h]

/-- As `State.foldl_mem`, where the fold carries a value beside the state. -/
theorem State.foldl_fst_mem {α β : Type} (l : List α) (f : State × β → α → State × β) (o : State × β)
    (h : ∀ o a, (f o a).1.mem = o.1.mem) : (l.foldl f o).1.mem = o.1.mem := by
  induction l generalizing o with
  | nil => rfl
  | cons a l ih => rw [List.foldl_cons, ih, h]

@[simp] theorem State.post_mem (s : State) (i : Instr) : (s.post i).mem = s.mem := by simp [State.post]
@[simp] theorem State.postAll_mem (s : State) (l : List Instr) : (s.postAll l).mem = s.mem := by simp [State.postAll]
@[simp] theorem State.timerNs_mem (s : State) (t : Nat) (i : Instr) : (s.timerNs t i).mem = s.mem := rfl
@[simp] theorem State.modCore_mem (s : State) (c : Nat) (f : Core → Core) : (s.modCore c f).mem = s.mem := rfl
@[simp] theorem State.setSlot_mem (s : State) (c n : Nat) (x : Slot) : (s.setSlot c n x).mem = s.mem := rfl
@[simp] theorem State.modSlot_mem (s : State) (c n : Nat) (f : Slot → Slot) : (s.modSlot c n f).mem = s.mem := rfl
@[simp] theorem State.setMe_mem (s : State) (x : Slot) : (s.setMe x).mem = s.mem := rfl
@[simp] theorem State.modMe_mem (s : State) (f : Slot → Slot) : (s.modMe f).mem = s.mem := rfl
@[simp] theorem State.setHere_mem (s : State) (k : Core) : (s.setHere k).mem = s.mem := rfl
@[simp] theorem State.modCluster_mem (s : State) (cl : Nat) (f : Cluster → Cluster) : (s.modCluster cl f).mem = s.mem := rfl
@[simp] theorem State.modLaunch_mem (s : State) (l : Nat) (f : Launch → Launch) : (s.modLaunch l f).mem = s.mem := by
  unfold State.modLaunch
  split <;> simp
@[simp] theorem State.bitChanged_mem (s : State) (a : Nat) : (s.bitChanged a).mem = s.mem := by simp [State.bitChanged]
@[simp] theorem State.markWord_mem (s : State) (a : Nat) (b : Bool) : (s.markWord a b).mem = s.mem := by simp [State.markWord]
@[simp] theorem State.renew_mem (s : State) (a n : Nat) : (s.renew a n).mem = s.mem := rfl
@[simp] theorem State.cached_mem (s : State) (t : Nat) (a : Word) : (s.cached t a).mem = s.mem := by simp [State.cached]
@[simp] theorem State.setPage_mem (s : State) (k : Nat) (p : Page) : (s.setPage k p).mem = s.mem := rfl
@[simp] theorem State.setSync_mem (s : State) (w : Nat) (l : List Release) : (s.setSync w l).mem = s.mem := rfl
@[simp] theorem State.setSyncs_mem (s : State) (a n : Nat) (l : List Release) : (s.setSyncs a n l).mem = s.mem :=
  State.foldl_mem _ _ _ fun _ _ => rfl
@[simp] theorem State.addSync_mem (s : State) (w : Nat) (l : List Release) : (s.addSync w l).mem = s.mem := by simp [State.addSync]
@[simp] theorem State.syncOn_mem (s : State) (c n sc : Nat) (rs : List Release) : (s.syncOn c n sc rs).mem = s.mem := by simp [State.syncOn]
@[simp] theorem State.acquired_mem (s : State) (l : Seen) : (s.acquired l).mem = s.mem := by simp [State.acquired]
@[simp] theorem State.loadOrder_mem (s : State) (modf a n : Nat) : (s.loadOrder modf a n).mem = s.mem := by simp [State.loadOrder]
@[simp] theorem State.storeOrder_mem (s : State) (modf a n : Nat) : (s.storeOrder modf a n).mem = s.mem := by simp [State.storeOrder]
@[simp] theorem State.chainOrder_mem (s : State) (a : Nat) : (s.chainOrder a).mem = s.mem := by simp [State.chainOrder]
@[simp] theorem State.fence_mem (s : State) (modf : Nat) : (s.fence modf).mem = s.mem := by simp [State.fence]
@[simp] theorem State.acquireShort_mem (s : State) (c n a : Nat) : (s.acquireShort c n a).mem = s.mem := by simp [State.acquireShort]
@[simp] theorem State.noteBarrier_mem (s : State) (c n : Nat) : (s.noteBarrier c n).mem = s.mem := by
  unfold State.noteBarrier
  simp only
  split
  · split <;> simp
  · rfl
@[simp] theorem State.noteWaiters_mem (s : State) (a : Nat) : (s.noteWaiters a).mem = s.mem := by simp [State.noteWaiters]
@[simp] theorem State.keepOld_mem (s : State) (by' : Option Nat) (l : Nat) (addr : Word) (a : Nat) :
    (s.keepOld by' l addr a).mem = s.mem := by
  simp [State.keepOld]
@[simp] theorem State.hostReads_mem (s : State) (rs : List Release) : (s.hostReads rs).mem = s.mem := by simp [State.hostReads]
@[simp] theorem State.modSavedCore_mem (s : State) (e : Nat) (x : SavedCtx) (c : Nat) (f : Core → Core) :
    (s.modSavedCore e x c f).mem = s.mem := rfl
@[simp] theorem State.modSavedCluster_mem (s : State) (e : Nat) (x : SavedCtx) (cl : Nat) (f : Cluster → Cluster) :
    (s.modSavedCluster e x cl f).mem = s.mem := rfl
@[simp] theorem State.modCoreOf_mem (s : State) (l c : Nat) (f : Core → Core) : (s.modCoreOf l c f).mem = s.mem := by
  unfold State.modCoreOf
  split <;> simp
@[simp] theorem State.clearOrder_mem (s : State) (cls : List Nat) : (s.clearOrder cls).mem = s.mem := rfl
@[simp] theorem State.moveOrder_mem (s : State) (f : Nat → Option Nat) : (s.moveOrder f).mem = s.mem := rfl
@[simp] theorem State.takeMirror_mem (s : State) (c key n : Nat) : (s.takeMirror c key n).mem = s.mem := rfl
@[simp] theorem State.giveMirror_mem (s : State) (c key n : Nat) : (s.giveMirror c key n).mem = s.mem := rfl
@[simp] theorem State.freedWord_mem (s : State) (c : Nat) (w : ChanWord) : (s.freedWord c w).mem = s.mem := by
  unfold State.freedWord
  repeat' split
  all_goals simp
@[simp] theorem State.addPending_mem (s : State) (c : Nat) (src : Source) (h l : Nat) : (s.addPending c src h l).mem = s.mem := by
  simp [State.addPending]
theorem State.addFirings_mem (c h : Nat) (ls : List Launch) (n : Nat) (s : State) (taken : List (Stock × Nat)) :
    (State.addFirings c h ls n s taken).1.mem = s.mem := by
  induction n generalizing s taken with
  | zero => rfl
  | succ n ih =>
    unfold State.addFirings
    dsimp only
    split
    · rfl
    · rw [ih, State.addPending_mem]
@[simp] theorem State.evalRules_mem (s : State) (c : Nat) : (s.evalRules c).mem = s.mem := by
  unfold State.evalRules
  dsimp only
  rw [State.foldl_fst_mem]
  · split <;> simp
  · intro o e
    split
    · rfl
    · exact State.addFirings_mem ..
@[simp] theorem State.taskHead_mem (s : State) (c : Nat) : (s.taskHead c).mem = s.mem := by
  unfold State.taskHead
  dsimp only
  split
  · split <;> simp
  · rfl
@[simp] theorem State.countWords_mem (s : State) (l n : Nat) : (s.countWords l n).mem = s.mem := by simp [State.countWords]
@[simp] theorem State.countWalkers_mem (s : State) (l n : Nat) : (s.countWalkers l n).mem = s.mem := by simp [State.countWalkers]
@[simp] theorem State.addJob_mem (s : State) (j : Job) : (s.addJob j).mem = s.mem := by simp [State.addJob]
@[simp] theorem State.spillJob_mem (s : State) (cl : Nat) (l : Launch) (lines : List (Nat × List Word)) :
    (s.spillJob cl l lines).mem = s.mem := by simp [State.spillJob]
@[simp] theorem State.writeSpill_mem (s : State) (cl : Nat) (l : Launch) : (s.writeSpill cl l).mem = s.mem := by simp [State.writeSpill]
@[simp] theorem State.meets_mem (s : State) (l c a n : Nat) : (s.meets l c a n).mem = s.mem := by
  unfold State.meets
  split <;> simp
@[simp] theorem State.raise_mem (s : State) (c : Nat) (t : AsyncTrap) : (s.raise c t).mem = s.mem := by simp [State.raise]
@[simp] theorem State.modSett_mem (s : State) (cl gen : Nat) (f : Sett → Sett) : (s.modSett cl gen f).mem = s.mem := rfl
@[simp] theorem State.settOutcome_mem (s : State) (cl gen : Nat) (id : Option Nat) (refused : Bool) :
    (s.settOutcome cl gen id refused).mem = s.mem := rfl
@[simp] theorem State.released_mem (s : State) (cl : Nat) : (s.released cl).mem = s.mem := rfl
@[simp] theorem State.dropRecalls_mem (s : State) (cl : Nat) (h : Word) : (s.dropRecalls cl h).mem = s.mem := by simp [State.dropRecalls]
@[simp] theorem State.settGone_mem (s : State) (cl gen : Nat) : (s.settGone cl gen).mem = s.mem := by
  unfold State.settGone
  split <;> simp
@[simp] theorem State.settShrink_mem (s : State) (cl gen n : Nat) : (s.settShrink cl gen n).mem = s.mem := by
  unfold State.settShrink
  split <;> simp
@[simp] theorem State.settRefuse_mem (s : State) (cl gen : Nat) (id : Option Nat) : (s.settRefuse cl gen id).mem = s.mem := by
  unfold State.settRefuse
  split <;> simp
@[simp] theorem State.countRecall_mem (s : State) (l : Nat) : (s.countRecall l).mem = s.mem := by simp [State.countRecall]
@[simp] theorem State.placeRecall_mem (s : State) (cl : Nat) (x : Sett) (who : Option (Nat × Nat × Nat)) :
    (s.placeRecall cl x who).mem = s.mem := by simp [State.placeRecall]
@[simp] theorem State.endRecall_mem (s : State) (c : Nat) : (s.endRecall c).mem = s.mem := by simp [State.endRecall]
@[simp] theorem State.endRequests_mem (s : State) (cl : Nat) (mine : Nat × Nat × Nat → Bool) : (s.endRequests cl mine).mem = s.mem := by
  simp [State.endRequests]
@[simp] theorem State.dropWords_mem (s : State) (c l : Nat) : (s.dropWords c l).mem = s.mem := by
  have returned : ∀ (t : State) (ws : List OutWord), (ws.foldl (fun s w =>
    s.giveMirror c (destKey (8 * bitsOf w.dest.toNat 47 37 + bitsOf w.dest.toNat 36 34)
      (bitsOf w.dest.toNat 33 29) (bitsOf w.dest.toNat 28 27)) 1) t).mem = t.mem := fun t ws => State.foldl_mem _ _ _ fun _ _ => rfl
  simp [State.dropWords, returned]
theorem State.seat_mem {s t : State} {cl : Nat} {l : Launch} {w : Walker} (h : s.seat cl l w = some t) : t.mem = s.mem := by
  grind [State.seat, State.modSlot_mem, State.modCore_mem, State.modCluster_mem, State.post_mem, State.timer_mem]
theorem State.returnsDue_mem (cl n : Nat) (s : State) : (State.returnsDue cl n s).mem = s.mem := by
  induction n generalizing s with
  | zero => rfl
  | succ n ih =>
    unfold State.returnsDue
    simp only
    repeat' split
    all_goals grind [State.meets_mem, State.modCluster_mem, State.spillJob_mem, State.setJob_mem, State.addJob_mem, State.seat_mem]
@[simp] theorem State.overflowReturn_mem (s : State) (cl : Nat) : (s.overflowReturn cl).mem = s.mem := State.returnsDue_mem cl 1 s
@[simp] theorem State.dropWalkers_mem (s : State) (l : Nat) : (s.dropWalkers l).mem = s.mem := by
  unfold State.dropWalkers
  rw [State.countWalkers_mem, State.foldl_mem _ _ _ fun t j => State.returnsDue_mem ..]
  simp only
  rw [State.foldl_mem _ _ _ fun t e => by simp]
  exact State.foldl_mem _ _ _ fun _ _ => rfl
@[simp] theorem State.unreserve_mem (s : State) (c l : Nat) : (s.unreserve c l).mem = s.mem := rfl
@[simp] theorem State.forgetWait_mem (s : State) : s.forgetWait.mem = s.mem := by simp [State.forgetWait]
@[simp] theorem State.enterTrap_mem (s : State) (h cause : Nat) (val addr : Word) : (s.enterTrap h cause val addr).mem = s.mem := by
  simp [State.enterTrap]
@[simp] theorem State.leaveTrap_mem (s : State) : s.leaveTrap.mem = s.mem := rfl
@[simp] theorem State.retireTo_mem (s : State) (pc : Word) : (s.retireTo pc).mem = s.mem := rfl
@[simp] theorem State.retire_mem (s : State) : s.retire.mem = s.mem := rfl
@[simp] theorem State.stallMe_mem (s : State) (why : Stall) : (s.stallMe why).mem = s.mem := by
  unfold State.stallMe
  dsimp only
  split <;> simp
@[simp] theorem State.demote_mem (s : State) (system : Bool) : (s.demote system).mem = s.mem := by
  unfold State.demote
  split <;> simp
@[simp] theorem State.usedGang_mem (s : State) : s.usedGang.mem = s.mem := rfl
@[simp] theorem State.takeTask_mem (s : State) (c : Nat) (t : Task) : (s.takeTask c t).mem = s.mem := by simp [State.takeTask]
@[simp] theorem State.takeWord_mem (s : State) (p : Nat) : (s.takeWord p).mem = s.mem := by
  unfold State.takeWord
  dsimp only
  repeat' split
  all_goals simp
@[simp] theorem State.afterPop_mem (s : State) (p : Nat) : (s.afterPop p).mem = s.mem := by simp [State.afterPop]
@[simp] theorem State.lightCall_mem (s : State) (h : Nat) (v : Word) : (s.lightCall h v).mem = s.mem := rfl
@[simp] theorem State.dstV_mem (s : State) (o : Operand) (x : Line) : (s.dstV o x).mem = s.mem := by
  unfold State.dstV
  split <;> simp
@[simp] theorem State.dstP_mem (s : State) (o : Operand) (x : Bool) : (s.dstP o x).mem = s.mem := by
  unfold State.dstP
  split <;> simp
@[simp] theorem State.dstW_mem (s : State) (o : Operand) (x : Word) : (s.dstW o x).mem = s.mem := by
  unfold State.dstW
  split <;> simp
@[simp] theorem State.dstM_mem (s : State) (o : Operand) (x : Members) : (s.dstM o x).mem = s.mem := by
  unfold State.dstM
  split <;> simp
@[simp] theorem State.waited_mem (s : State) (a : Nat) : (s.waited a).mem = s.mem := by simp [State.waited]
@[simp] theorem State.waitedShort_mem (s : State) (a : Nat) : (s.waitedShort a).mem = s.mem := by simp [State.waitedShort]
@[simp] theorem State.select_mem (s : State) (c n : Nat) : (s.select c n).mem = s.mem := rfl
@[simp] theorem State.timed_mem (s : State) : s.timed.mem = s.mem := by simp [State.timed]
@[simp] theorem State.slewed_mem (s : State) : s.slewed.mem = s.mem := by simp [State.slewed]
@[simp] theorem State.tick_mem (s : State) : s.tick.mem = s.mem := by simp [State.tick]
@[simp] theorem State.lanesD_mem (s : State) (f : Fields) (w : Nat) (l : List Nat) : (s.lanesD f w l).mem = s.mem := by simp [State.lanesD]
@[simp] theorem State.startJob_mem (s : State) (op modf : Nat) (run : List Word) (bar : Word) (b declared total : Nat) :
    (s.startJob op modf run bar b declared total).mem = s.mem := by simp [State.startJob]
@[simp] theorem State.loaded_mem (s : State) (f : Fields) (a n : Nat) : (s.loaded f a n).mem = s.mem := by simp [State.loaded]
@[simp] theorem State.stored_mem (s : State) (f : Fields) (a n : Nat) : (s.stored f a n).mem = s.mem := by simp [State.stored]
@[simp] theorem State.lanesLoaded_mem (s : State) (l : List (Option Nat)) (n : Nat) : (s.lanesLoaded l n).mem = s.mem :=
  State.foldl_mem _ _ _ fun t a => by cases a <;> simp
@[simp] theorem State.feDone_mem (s : State) : s.feDone.mem = s.mem := rfl
@[simp] theorem State.polled_mem (s : State) (f : Fields) (a : Nat) : (s.polled f a).mem = s.mem := by simp [State.polled]
@[simp] theorem State.sendWord_mem (s : State) (op : Nat) (d : Dest) (net : Nat) (w : Word) (tag : Bool) :
    (s.sendWord op d net w tag).mem = s.mem := by
  unfold State.sendWord
  repeat' split
  all_goals simp
@[simp] theorem State.setAccRow_mem (s : State) (c r : Nat) (x : AccRow) : (s.setAccRow c r x).mem = s.mem := rfl
@[simp] theorem State.joinArray_mem (s : State) (p : ArrayPart) : (s.joinArray p).mem = s.mem := by simp [State.joinArray]
@[simp] theorem State.putRequest_mem (s : State) (cl : Nat) (r : SettReq) : (s.putRequest cl r).mem = s.mem := rfl
@[simp] theorem State.dropRequest_mem (s : State) (cl : Nat) (who : Option (Nat × Nat × Nat)) : (s.dropRequest cl who).mem = s.mem := rfl
@[simp] theorem State.verdict_mem (s : State) (x : Sett) (v n : Nat) : (s.verdict x v n).mem = s.mem := by simp [State.verdict]
@[simp] theorem State.raiseTail_mem (s : State) (fn m : Nat) (v : Word) : (s.raiseTail fn m v).mem = s.mem := by simp [State.raiseTail]
@[simp] theorem State.giveLaunch_mem (s : State) (fn m : Nat) (l : Seen) : (s.giveLaunch fn m l).mem = s.mem := by simp [State.giveLaunch]
@[simp] theorem State.passOver_mem (s : State) (c serial : Nat) : (s.passOver c serial).mem = s.mem := rfl
@[simp] theorem State.reserve_mem (s : State) (c n h : Nat) (l : Launch) : (s.reserve c n h l).mem = s.mem := by
  unfold State.reserve
  dsimp only
  repeat' split
  all_goals simp
@[simp] theorem State.place'_mem (s : State) (c n : Nat) (x : Slot) : (s.place' c n x).mem = s.mem := rfl
@[simp] theorem State.startPending_mem (s : State) (c n : Nat) (p : Pending) : (s.startPending c n p).mem = s.mem := by
  unfold State.startPending
  dsimp only
  repeat' split
  all_goals simp
@[simp] theorem State.invalidate_mem (s : State) (kind stage t : Nat) (a : Word) : (s.invalidate kind stage t a).mem = s.mem := rfl
@[simp] theorem State.acknowledge_mem (s : State) (c : Nat) : (s.acknowledge c).mem = s.mem := State.foldl_mem _ _ _ fun _ _ => rfl
/-- What runs in a slot's place keeps memory when the part run there keeps it. -/
theorem State.within_mem (s : State) (c n : Nat) (f : State → State) (h : ∀ t, (f t).mem = t.mem) : (s.within c n f).mem = s.mem := by
  simp [State.within, h]
@[simp] theorem State.joinGang_mem (s : State) (c : Nat) : (s.joinGang c).mem = s.mem := by
  unfold State.joinGang
  split
  · rw [State.within_mem _ _ _ _ fun t => ?_, State.modCore_mem]
    repeat' split
    all_goals simp
  · rfl
@[simp] theorem State.postArray_mem (s : State) (cl : Nat) : (s.postArray cl).mem = s.mem := by
  unfold State.postArray
  repeat' split
  all_goals simp
@[simp] theorem State.charge_mem (s : State) (t cl flits : Nat) : (s.charge t cl flits).mem = s.mem := by simp [State.charge]
@[simp] theorem State.chargeWord_mem (s : State) (c net : Nat) (w : OutWord) : (s.chargeWord c net w).mem = s.mem := by
  simp [State.chargeWord]
@[simp] theorem State.refuseWord_mem (s : State) (c : Nat) (w : OutWord) : (s.refuseWord c w).mem = s.mem := by simp [State.refuseWord]
@[simp] theorem State.ringArrives_mem (s : State) (d : Nat) (w : QWord) (at4 : Bool) : (s.ringArrives d w at4).mem = s.mem := by
  simp [State.ringArrives]
@[simp] theorem State.addRecord_mem (s : State) (r : RecInfo) (tenant core : Nat) : (s.addRecord r tenant core).mem = s.mem := by
  simp [State.addRecord]
@[simp] theorem State.setQueue_mem (s : State) (q : Nat) (l : List Queued) : (s.setQueue q l).mem = s.mem := rfl
@[simp] theorem State.queueAdvance_mem (s : State) (q : Nat) : (s.queueAdvance q).mem = s.mem := by
  unfold State.queueAdvance
  split <;> simp
@[simp] theorem State.submit_mem (s : State) (fn m : Nat) (msg : List Word) : (s.submit fn m msg).mem = s.mem := by simp [State.submit]
@[simp] theorem State.retryPlacements_mem (s : State) : s.retryPlacements.mem = s.mem := by simp [State.retryPlacements]
@[simp] theorem State.withdraw_mem (s : State) (j : Job) : (s.withdraw j).mem = s.mem := by simp [State.withdraw]
@[simp] theorem State.beforeWrite_mem (s : State) (j : Job) (addr : Word) (a n : Nat) : (s.beforeWrite j addr a n).mem = s.mem := by
  simp [State.beforeWrite]
@[simp] theorem State.gotFrom_mem (s : State) (j : Job) (addr : Word) (n : Nat) : (s.gotFrom j addr n).mem = s.mem := by
  unfold State.gotFrom
  split <;> simp
@[simp] theorem State.usedPage_mem (s : State) (j : Job) (addr : Word) : (s.usedPage j addr).mem = s.mem := by
  unfold State.usedPage
  split <;> simp
@[simp] theorem State.used_mem (s : State) (j : Job) (addr : Word) : (s.used j addr).mem = s.mem := by simp [State.used]
@[simp] theorem State.usedOver_mem (s : State) (j : Job) (addr : Word) (n : Nat) : (s.usedOver j addr n).mem = s.mem := by
  simp [State.usedOver]
@[simp] theorem State.didRead_mem (s : State) (j : Job) (addr : Word) (n : Nat) : (s.didRead j addr n).mem = s.mem := by
  simp [State.didRead]
@[simp] theorem State.acceptView_mem (s : State) (j : Job) (addr : Word) : (s.acceptView j addr).mem = s.mem := by
  unfold State.acceptView
  repeat' split
  all_goals simp
@[simp] theorem State.sourceRead_mem (s : State) (j : Job) (addr : Word) (i n : Nat) : (s.sourceRead j addr i n).mem = s.mem := by
  simp [State.sourceRead]
@[simp] theorem State.chargeReply_mem (s : State) (j : Job) (n k m : Nat) : (s.chargeReply j n k m).mem = s.mem := by
  simp [State.chargeReply]
@[simp] theorem State.sendPacket_mem (s : State) (x : Sent) : (s.sendPacket x).mem = s.mem := by
  unfold State.sendPacket
  split <;> simp
@[simp] theorem State.sendWaiting_mem (s : State) : s.sendWaiting.mem = s.mem := by simp [State.sendWaiting]
@[simp] theorem State.postLists_mem (s : State) (j : Job) : (s.postLists j).mem = s.mem := by simp [State.postLists]
@[simp] theorem State.answerPacket_mem (s : State) (j : Job) (refused : Bool) : (s.answerPacket j refused).mem = s.mem := by
  simp [State.answerPacket]
@[simp] theorem State.mayRetry_mem (s : State) (j : Job) : (s.mayRetry j).mem = s.mem := by simp [State.mayRetry]
@[simp] theorem State.startField_mem (s : State) (n start : Nat) (cores : List Nat) : (s.startField n start cores).mem = s.mem :=
  State.foldl_mem _ _ _ fun t c => by split <;> simp
@[simp] theorem State.leaveQueue_mem (s : State) (q : Nat) : (s.leaveQueue q).mem = s.mem := rfl
@[simp] theorem State.removeRecall_mem (s : State) (c : Nat) (r : Recall) : (s.removeRecall c r).mem = s.mem := by simp [State.removeRecall]
@[simp] theorem State.startWall_mem (s : State) (l : Launch) : (s.startWall l).mem = s.mem := by simp [State.startWall]
@[simp] theorem State.noteMet_mem (s : State) (l : Launch) : (s.noteMet l).mem = s.mem := by simp [State.noteMet]
@[simp] theorem State.noteWait_mem (s : State) (c n : Nat) : (s.noteWait c n).mem = s.mem := by
  unfold State.noteWait
  dsimp only
  repeat' split
  all_goals simp
@[simp] theorem State.retryHost_mem (s : State) (k : Nat) : (s.retryHost k).mem = s.mem := by simp [State.retryHost]
@[simp] theorem State.hostWord_mem (s : State) (chain : Bool) (w : Nat) : (s.hostWord chain w).mem = s.mem := by
  unfold State.hostWord
  dsimp only
  repeat' split
  all_goals simp
@[simp] theorem State.hostWrites_mem (s : State) (chain : Bool) (ps : Places) : (s.hostWrites chain ps).mem = s.mem := by
  simp [State.hostWrites]
@[simp] theorem State.hostGets_mem (s : State) (ps : Places) : (s.hostGets ps).mem = s.mem := by simp [State.hostGets]
@[simp] theorem State.reply_mem (s : State) (x : Word) : (s.reply x).mem = s.mem := rfl
@[simp] theorem State.replyFree_mem (s : State) : s.replyFree.mem = s.mem := rfl
@[simp] theorem State.hostReply_mem (s : State) (ps : Places) : (s.hostReply ps).mem = s.mem := by simp [State.hostReply]
@[simp] theorem State.configRead_mem (s : State) (f : Nat) (header : Bool) (i : Nat) : (s.configRead f header i).mem = s.mem := by
  simp [State.configRead]
@[simp] theorem State.barRead_mem (s : State) (f off n : Nat) : (s.barRead f off n).mem = s.mem := by
  unfold State.barRead
  repeat' split
  all_goals simp
@[simp] theorem State.enterPrivileged_mem (s : State) (c entry cause : Nat) : (s.enterPrivileged c entry cause).mem = s.mem := by
  simp [State.enterPrivileged]
@[simp] theorem State.freeze_mem (s : State) (c : Nat) : (s.freeze c).mem = s.mem := by simp [State.freeze]
@[simp] theorem State.unfreeze_mem (s : State) (c : Nat) : (s.unfreeze c).mem = s.mem := by simp [State.unfreeze]
@[simp] theorem State.setSched_mem (s : State) (t : Nat) (c : Sched) : (s.setSched t c).mem = s.mem := rfl

@[simp] theorem State.newSlice_mem (s : State) (t e : Nat) : (s.newSlice t e).mem = s.mem := rfl
@[simp] theorem State.noteIssue_mem (before s : State) (c n : Nat) : (State.noteIssue before s c n).mem = s.mem := by
  unfold State.noteIssue
  repeat' split
  all_goals simp
@[simp] theorem State.pauseWalls_mem (s : State) (t e : Nat) : (s.pauseWalls t e).mem = s.mem :=
  State.foldl_mem _ _ _ fun t l => by split <;> simp
@[simp] theorem State.sliceAgain_mem (s : State) (t e : Nat) : (s.sliceAgain t e).mem = s.mem := rfl
@[simp] theorem State.noteIdle_mem (s : State) : s.noteIdle.mem = s.mem := by simp [State.noteIdle]
@[simp] theorem State.shootDown_mem (s : State) (kind stage t : Nat) (addr : Word) : (s.shootDown kind stage t addr).mem = s.mem := by
  simp [State.shootDown]
@[simp] theorem State.setFreeing_mem (s : State) (cl : Nat) (r : Option SettReq) : (s.setFreeing cl r).mem = s.mem := rfl
@[simp] theorem State.startFreeing_mem (s : State) (cl n : Nat) (wanted : Option Nat) (gang : Bool) :
    (s.startFreeing cl n wanted gang).mem = s.mem := rfl
@[simp] theorem State.endFreeing_mem (s : State) (cls : List Nat) : (s.endFreeing cls).mem = s.mem := State.foldl_mem _ _ _ fun _ _ => rfl
@[simp] theorem State.setQuota_mem (s : State) (t q : Nat) (denied : Bool) : (s.setQuota t q denied).mem = s.mem := by
  unfold State.setQuota
  split <;> simp
@[simp] theorem State.refill_mem (s : State) : s.refill.mem = s.mem := rfl
@[simp] theorem State.refillTimer_mem (s : State) : s.refillTimer.mem = s.mem := by simp [State.refillTimer]
@[simp] theorem State.congestionTimer_mem (s : State) : s.congestionTimer.mem = s.mem := by simp [State.congestionTimer]
@[simp] theorem State.loadEnds_mem (s : State) (t : Nat) : (s.loadEnds t).mem = s.mem := by
  unfold State.loadEnds
  split
  · exact State.foldl_mem _ _ _ fun _ _ => rfl
  · rfl
@[simp] theorem State.retryTransport_mem (s : State) : s.retryTransport.mem = s.mem := by simp [State.retryTransport]
@[simp] theorem State.addPlacement_mem (s : State) (t : Nat) (b : Option Job) (addr bar : Word) (peer : Nat) (told : Bool) (num : Nat)
    (bs : List Byte) :
    (s.addPlacement t b addr bar peer told num bs).mem = s.mem := by simp [State.addPlacement]
@[simp] theorem State.setClocks_mem (s : State) (core fabric : Nat) : (s.setClocks core fabric).mem = s.mem := rfl
@[simp] theorem State.enter_mem (s : State) (p : Nat) : (s.enter p).mem = s.mem := rfl
@[simp] theorem State.fail_mem (s : State) (n : Nat) : (s.fail n).mem = s.mem := rfl
@[simp] theorem State.placeSpare_mem (s : State) (cl : Nat) : (s.placeSpare cl).mem = s.mem := by simp [State.placeSpare]
@[simp] theorem State.countRouters_mem (s : State) : s.countRouters.mem = s.mem := rfl
@[simp] theorem State.setTime_mem (s : State) : s.setTime.mem = s.mem := by simp [State.setTime]
@[simp] theorem State.beginCommand_mem (s : State) (v : Word) : (s.beginCommand v).mem = s.mem := by simp [State.beginCommand]
@[simp] theorem State.watchSync_mem (s : State) : s.watchSync.mem = s.mem := rfl
@[simp] theorem State.stamp_mem (s : State) (port : Nat) (sent : Bool) : (s.stamp port sent).mem = s.mem := rfl
@[simp] theorem State.withhold_mem (s : State) (fraction : BitVec 16) : (s.withhold fraction).mem = s.mem := rfl
@[simp] theorem State.ripen_mem (s : State) : s.ripen.mem = s.mem := by simp [State.ripen]

@[simp] theorem State.eventRecord_mem (s : State) (fn ring kind source : Nat) (w2 w3 : Word) :
    (s.eventRecord fn ring kind source w2 w3).1.mem = s.mem := rfl
@[simp] theorem State.rounded_mem (s : State) (fmt mode : Nat) (sat : Bool) (vs : List XVal) : (s.rounded fmt mode sat vs).2.mem = s.mem :=
  rfl
@[simp] theorem State.roundedInts_mem (s : State) (w : Nat) (u : Bool) (mode : Nat) (sat : Bool) (vs : List XVal) :
    (s.roundedInts w u mode sat vs).2.mem = s.mem := rfl
@[simp] theorem State.quantise_mem (s : State) (c mode : Nat) (xs : List XVal) : (s.quantise c mode xs).2.2.mem = s.mem := by
  unfold State.quantise
  simp only
  split <;> simp
@[simp] theorem State.streamStep_mem (s : State) (o : ArrayOp) (p : ArrayPart) (m : Nat) : (s.streamStep o p m).1.mem = s.mem := by
  unfold State.streamStep
  simp only
  repeat' split
  all_goals simp
@[simp] theorem State.streamAll_mem (s : State) (o : ArrayOp) (p : ArrayPart) : (s.streamAll o p).1.mem = s.mem := by
  unfold State.streamAll
  split
  · rfl
  · exact State.foldl_fst_mem _ _ (s, false) fun _ _ => State.streamStep_mem ..
theorem State.seenPacket_mem {s t : State} {job num : Nat} (h : s.seenPacket job num = some t) : t.mem = s.mem := by
  unfold State.seenPacket at h
  grind [State.sendPacket_mem]

/-! ### Parts of an instruction: what a result holds of the states it hands on -/

/-- The state that a halt hands on, if it hands one on (a light call), is canonical. -/
def Halt.Canonical : Halt → Prop
  | .light s => s.Canonical
  | _ => True

/-- The state that a completed instruction leaves. -/
def After.state : After → State
  | .seq s => s
  | .goto s _ => s
  | .gone s => s

/-- P holds of the result where there is one, and a halt hands on no state out of canonical form. -/
inductive Res.Holds {α : Type} (P : α → Prop) : Res α → Prop
  | ok {a : α} (h : P a) : Res.Holds P (.ok a)
  | error {e : Halt} (h : e.Canonical) : Res.Holds P (.error e)

@[simp] theorem Res.holds_ok {α : Type} (P : α → Prop) (a : α) : Res.Holds P (.ok a) ↔ P a := ⟨fun | .ok h => h, .ok⟩
@[simp] theorem Res.holds_error {α : Type} (P : α → Prop) (e : Halt) : Res.Holds P (.error e : Res α) ↔ e.Canonical :=
  ⟨fun | .error h => h, .error⟩

theorem Res.Holds.bind {α β : Type} {P : α → Prop} {Q : β → Prop} {x : Res α} {k : α → Res β} (hx : x.Holds P)
    (hk : ∀ a, P a → (k a).Holds Q) : Res.Holds Q (x >>= k) := by
  cases hx with
  | ok h => exact hk _ h
  | error h => exact .error h

theorem Res.Holds.pure {α : Type} {P : α → Prop} {a : α} (h : P a) : Res.Holds P (Pure.pure a) := .ok h

theorem Res.Holds.of_error {α β : Type} {P : α → Prop} {Q : β → Prop} {x : Res α} {e : Halt} (h : x.Holds P) (hx : x = .error e) :
    Res.Holds Q (.error e : Res β) := by
  cases h with
  | ok _ => nomatch hx
  | error h =>
    cases hx
    exact .error h

theorem Res.Holds.ite {α : Type} {P : α → Prop} {c : Prop} [Decidable c] {x y : Res α} (hx : x.Holds P) (hy : y.Holds P) :
    Res.Holds P (if c then x else y) := by
  split <;> assumption

/-- A test that halts the instruction, or lets it go on. -/
theorem Res.Holds.guard {α : Type} {P : α → Prop} {c : Prop} [Decidable c] {e : Halt} {k : Unit → Res α} (he : e.Canonical)
    (hk : (k ()).Holds P) : Res.Holds P (if c then throw e >>= k else k ()) := .ite (.error he) hk

/-- Two ways to a value, and one continuation. -/
theorem Res.Holds.choose {α β : Type} {P : α → Prop} {Q : β → Prop} {c : Prop} [Decidable c] {x y : Res α} {k : α → Res β}
    (hx : x.Holds P) (hy : y.Holds P) (hk : ∀ a, P a → (k a).Holds Q) : Res.Holds Q (if c then x >>= k else y >>= k) :=
  .ite (.bind hx hk) (.bind hy hk)

/-! ### Checks hand on no state -/

theorem checkGranule_holds (k : Cluster) (cl l g : Nat) (addr : Word) : Res.Holds (fun _ => True) (checkGranule k cl l g addr) := by
  grind [checkGranule, Res.Holds, Halt.Canonical]
theorem checkGranules_holds (k : Cluster) (cl l : Nat) (addr : Word) (gs : List Nat) :
    Res.Holds (fun _ => True) (checkGranules k cl l addr gs) := by
  induction gs with
  | nil => exact .ok trivial
  | cons g gs ih => exact .bind (checkGranule_holds ..) fun _ _ => ih
theorem State.checkLocal_holds (s : State) (addr : Word) (n align : Nat) : (s.checkLocal addr n align).Holds fun _ => True := by
  grind [State.checkLocal, Res.Holds, Halt.Canonical, checkGranules_holds]
theorem State.sound_holds (s : State) (a n : Nat) (addr : Word) : (s.sound a n addr).Holds fun _ => True := by
  grind [State.sound, Res.Holds, Halt.Canonical]
theorem State.unboarded_holds (s : State) (a n : Nat) (addr : Word) : (s.unboarded a n addr).Holds fun _ => True := by
  grind [State.unboarded, Res.Holds, Halt.Canonical, State.sound_holds]
theorem State.reach_holds (s : State) (addr : Word) (n align : Nat) : (s.reach addr n align).Holds fun _ => True :=
  .bind (s.checkLocal_holds ..) fun _ _ => .bind (s.unboarded_holds ..) fun _ _ => .pure trivial
theorem State.reachAfter_holds (s : State) (addr : Word) (n align : Nat) {ports : Res Unit} (h : ports.Holds fun _ => True) :
    (s.reachAfter addr n align ports).Holds fun _ => True :=
  .bind (s.checkLocal_holds ..) fun _ _ => .bind h fun _ _ => .bind (s.unboarded_holds ..) fun _ _ => .pure trivial
theorem firstOf_holds {f : Nat → Except Halt Unit} (h : ∀ n, Res.Holds (fun _ => True) (f n)) (l : List Nat) :
    Res.Holds (fun _ => True) (firstOf f l) := by
  induction l with
  | nil => exact .ok trivial
  | cons n l ih => grind [firstOf]
theorem checkBounds_holds (addr : Word) (off : Int) (limit len : Nat) (d : Int) :
    Res.Holds (fun _ => True) (checkBounds addr off limit len d) := by
  grind [checkBounds, Res.Holds, Halt.Canonical]
theorem State.checkProtected_holds (s : State) (addr : Word) (off : Int) (len : Nat) (d : Int) :
    Res.Holds (fun _ => True) (s.checkProtected addr off len d) := by
  unfold State.checkProtected
  split
  · exact .ok trivial
  · exact firstOf_holds (fun _ => checkGranule_holds ..) _
theorem State.checkRows_holds (s : State) (r : Reach) (off : Int) (limit : Nat) (store : Bool) :
    Res.Holds (fun _ => True) (s.checkRows r off limit store) := by
  have bounds := firstOf_holds (fun h =>
    checkBounds_holds r.addr off limit r.len (h * r.stride)) (List.range (if r.stride = 0 then 1 else min r.rows 524289))
  have guarded := firstOf_holds (fun h =>
    s.checkProtected_holds r.addr off r.len (h * r.stride)) (List.range (if r.stride = 0 then 1 else min r.rows 524289))
  unfold State.checkRows
  grind
theorem State.checkReach_holds (s : State) (r : Reach) : Res.Holds (fun _ => True) (s.checkReach r) := by
  grind [State.checkReach, Res.Holds, Halt.Canonical, State.checkRows_holds]
theorem State.checkReaches_holds (s : State) (rs : List Reach) : Res.Holds (fun _ => True) (s.checkReaches rs) := by
  induction rs with
  | nil => exact .ok trivial
  | cons r rs ih => grind [State.checkReaches, State.checkReach_holds]
theorem State.checkNamed_holds (s : State) (op modf : Nat) (run : List Word) (bar : Word) {engine : Except Halt Unit}
    (h : Res.Holds (fun _ => True) engine) : (s.checkNamed op modf run bar engine).Holds fun _ => True := by
  unfold State.checkNamed
  split
  · exact .error trivial
  · exact .bind (s.checkReach_holds _) fun _ _ => .bind h fun _ _ => .bind (s.checkReaches_holds _) fun _ _ =>
      .ite (.error trivial) (.pure trivial)
theorem State.checkCommand_holds (s : State) (op modf : Nat) (run : List Word) (bar : Word) :
    (s.checkCommand op modf run bar).Holds fun _ => True := s.checkNamed_holds op modf run bar (.ok trivial)
theorem engineOf_holds (a : Word) : Res.Holds (fun _ => True) (engineOf a) := by
  grind [engineOf, Res.Holds, Halt.Canonical]
theorem State.srcReady_holds (s : State) (o : Operand) : (s.srcReady o).Holds fun _ => True := by
  cases o <;> grind [State.srcReady, Res.Holds, Halt.Canonical]
theorem State.dstReady_holds (s : State) (o : Operand) : (s.dstReady o).Holds fun _ => True := by
  cases o <;> grind [State.dstReady, Res.Holds, Halt.Canonical]
theorem State.lanePlaces_holds (s : State) (base : Word) (w : Nat) (is : List Nat) : (s.lanePlaces base w is).Holds fun _ => True := by
  induction is with
  | nil => exact .ok trivial
  | cons i is ih => grind [State.lanePlaces, Res.Holds, State.checkLocal_holds]
theorem State.laneReach_holds (s : State) (f : Fields) : (s.laneReach f).Holds fun _ => True := by
  grind [State.laneReach, Res.Holds, Halt.Canonical, State.lanePlaces_holds]
theorem State.feReach_holds (s : State) (f : Fields) (a : Nat) (full : Bool) : (s.feReach f a full).Holds fun _ => True := by
  grind [State.feReach, Res.Holds, Halt.Canonical, State.unboarded_holds]
theorem State.checkChannelAddr_holds (s : State) (a : Word) : (s.checkChannelAddr a).Holds fun _ => True := by
  grind [State.checkChannelAddr, Res.Holds, Halt.Canonical]
theorem State.readElement_holds (s : State) (addr : Word) (j : Nat) : Res.Holds (fun _ => True) (s.readElement addr j) := by
  grind [State.readElement, Res.Holds, Halt.Canonical]
theorem pathSearch_holds {read : Nat → Except Halt Nat} (h : ∀ n, Res.Holds (fun _ => True) (read n)) (d k lo hi : Nat) :
    Res.Holds (fun _ => True) (pathSearch read d k lo hi) := by
  induction k generalizing lo hi with
  | zero => exact .ok trivial
  | succ k ih => grind [pathSearch, Res.Holds]
theorem State.checkGangSett_holds (s : State) : Res.Holds (fun _ => True) s.checkGangSett := by
  grind [State.checkGangSett, Res.Holds, Halt.Canonical]
theorem State.checkMember_holds (s : State) : Res.Holds (fun _ => True) s.checkMember := by
  grind [State.checkMember, Res.Holds, Halt.Canonical]
theorem State.checkAccRows_holds (s : State) (d n : Nat) : Res.Holds (fun _ => True) (s.checkAccRows d n) := by
  grind [State.checkAccRows, Res.Holds, Halt.Canonical]
theorem State.checkPool_holds (s : State) (addr : Word) (n align : Nat) : (s.checkPool addr n align).Holds fun _ => True := by
  grind [State.checkPool, Res.Holds, Halt.Canonical, State.checkLocal_holds]
theorem State.interlock_holds (s : State) (r n : Nat) : Res.Holds (fun _ => True) (s.interlock r n) := by
  grind [State.interlock, Res.Holds, Halt.Canonical]
theorem State.handleSett_holds (s : State) (h : Word) : Res.Holds (fun _ => True) (s.handleSett h) := by
  grind [State.handleSett, Res.Holds, Halt.Canonical]

/-! ### Memory in canonical form -/

/-- `Mem.wf` as a fact of its own, which no proof below takes apart. -/
def Mem.Canonical (m : Mem) : Prop := m.wf

theorem State.canonical_def (s : State) : s.Canonical ↔ s.mem.Canonical := Iff.rfl

theorem State.Canonical.mem {s : State} (h : s.Canonical) : s.mem.Canonical := h

theorem State.Canonical.of_mem {s t : State} (h : s.Canonical) (e : t.mem = s.mem) : t.Canonical := by
  rwa [State.canonical_def, e]

theorem State.Canonical.ite {c : Prop} [Decidable c] {s t : State} (hs : s.Canonical) (ht : t.Canonical) :
    (if c then s else t).Canonical := by
  split <;> assumption

/-- A fold keeps memory canonical when each of its steps does. -/
theorem State.foldl_canonical {α : Type} {f : State → α → State} {s : State} (l : List α) (h : s.Canonical)
    (step : ∀ t a, t.Canonical → (f t a).Canonical) : (l.foldl f s).Canonical := by
  induction l generalizing s with
  | nil => exact h
  | cons a l ih => exact ih (step _ _ h)

/-- As `State.foldl_canonical`, where the fold carries a value beside the state. -/
theorem State.foldl_fst_canonical {α β : Type} {f : State × β → α → State × β} {o : State × β} (l : List α) (h : o.1.Canonical)
    (step : ∀ o a, o.1.Canonical → (f o a).1.Canonical) : (l.foldl f o).1.Canonical := by
  induction l generalizing o with
  | nil => exact h
  | cons a l ih => exact ih (step _ _ h)

theorem Mem.canonical_writeN {m : Mem} (h : m.Canonical) (a n x : Nat) : Mem.Canonical (Mem.writeN m a n x) := Mem.wf_writeN a n x h
theorem Mem.canonical_zero {m : Mem} (h : m.Canonical) (a n : Nat) : Mem.Canonical (m.zero a n) := Mem.wf_zero a n h
theorem Mem.canonical_filter {m : Mem} (h : m.Canonical) (p : Host.Cell → Bool) : Mem.Canonical (m.filter p) := Mem.wf_filter p h
theorem Mem.canonical_overlay {m : Mem} (h : m.Canonical) (x : Mem) : Mem.Canonical (Mem.overlay m x) := Mem.wf_overlay x h
theorem Mem.canonical_foldl {α : Type} {f : Mem → α → Mem} {m : Mem} (l : List α) (h : m.Canonical)
    (step : ∀ m a, Mem.Canonical m → Mem.Canonical (f m a)) : Mem.Canonical (l.foldl f m) := by
  induction l generalizing m with
  | nil => exact h
  | cons a l ih => exact ih (step _ _ h)
theorem Mem.canonical_words {m : Mem} (h : m.Canonical) (a : Nat) (xs : List Nat) : Mem.Canonical (Mem.words m a xs) := by
  induction xs generalizing m a with
  | nil => exact h
  | cons x xs ih => exact ih (Mem.canonical_writeN h ..) _

/-- What an instruction or event answers is a state in canonical form, if it is a state. -/
def Out.Canonical : Out → Prop
  | .next s => s.Canonical
  | _ => True

/-! ### Operands and commands -/

section
variable {s : State} (h : s.Canonical)
include h

theorem State.pop_holds (p : Nat) : (s.pop p).Holds fun r => r.2.Canonical := by
  unfold State.pop
  grind [Res.Holds, Halt.Canonical, State.canonical_def, State.afterPop_mem, State.lightCall_mem]

theorem State.src_holds (o : Operand) : (s.src o).Holds fun r => r.2.Canonical := by
  cases o with
  | port n => exact State.pop_holds h _
  | _ => exact .ok h

theorem State.laneB_holds (o : Operand) (w : Nat) : (s.laneB o w).Holds fun r => r.2.Canonical := by
  unfold State.laneB
  grind [Res.Holds, State.src_holds h o]

theorem State.pushRing_holds (p : Nat) (w : Word) (tag : Bool) : (s.pushRing p w tag).Holds State.Canonical := by
  unfold State.pushRing
  grind [Res.Holds, Halt.Canonical, State.canonical_def, State.setHere_mem, State.post_mem]

theorem State.issueCommand_holds (op modf : Nat) (run : List Word) (bar : Word) (b : Nat) (rs : List Reach)
    (engine : Option (Nat × Nat)) (via : List Word) : (s.issueCommand op modf run bar b rs engine via).Holds State.Canonical := by
  unfold State.issueCommand
  dsimp only
  split
  · exact .error trivial
  · exact .ite (.error trivial) (.error trivial)
  · refine .ite (.error trivial) (.ok (h.of_mem ?_))
    simp

theorem State.issueRotate_holds (modf : Nat) (run : List Word) (bar : Word) (b : Nat) (rs : List Reach) :
    (s.issueRotate modf run bar b rs).Holds State.Canonical := by
  have issued := State.issueCommand_holds h 0xA9 modf run bar b rs none []
  unfold State.issueRotate
  split
  · exact .error trivial
  · dsimp only
    split
    next he => exact issued.of_error he
    next t ht =>
      have ht : t.Canonical := by simpa [ht] using issued
      exact .ok (ht.of_mem (by simp))

theorem State.sendCommand_holds (eng : Word) (own : Bool) (header : Word) (args : List Word) (bar : Word) :
    (s.sendCommand eng own header args bar).Holds State.Canonical := by
  unfold State.sendCommand
  simp only
  split
  · exact .error trivial
  · split
    · exact .error trivial
    · split
      · refine .bind (s.checkCommand_holds ..) fun c _ => ?_
        split
        · exact State.issueRotate_holds h ..
        · exact State.issueCommand_holds h ..
      · have served := engineOf_holds eng
        split
        next he => exact .bind (s.checkNamed_holds _ _ _ _ (served.of_error he)) fun c _ => State.issueCommand_holds h ..
        · exact .bind (s.checkNamed_holds _ _ _ _ (.ok trivial)) fun c _ => State.issueCommand_holds h ..

theorem State.push_holds (p : Nat) (w : Word) : (s.push p w).Holds State.Canonical := by
  have sent := State.sendCommand_holds (h.of_mem (State.modMe_mem s fun x => { x with cmd := [] }))
  unfold State.push
  simp only
  split
  · exact State.pushRing_holds h p w false
  · split
    · split
      · exact .error trivial
      · split
        · exact .ok (h.of_mem (by simp))
        · split
          next ht => exact ht ▸ sent ..
          · exact .error trivial
          next he => exact he ▸ sent ..
    · exact .ite (.ok (h.of_mem (by simp))) (.error trivial)

theorem State.dst_holds (o : Operand) (x : Word) : (s.dst o x).Holds State.Canonical := by
  cases o with
  | port n => exact State.push_holds h _ x
  | _ => exact .ok h

theorem State.dstFree_holds (o : Operand) (v : Option Word) : (s.dstFree o v).Holds State.Canonical := by
  cases v with
  | none => exact State.dst_holds (h.of_mem (by simp)) o _
  | some v => exact State.dst_holds h o v

theorem State.received_holds (f : Fields) (w : QWord) : (s.received f w).Holds State.Canonical := by
  unfold State.received
  simp only
  split
  · exact State.dst_holds (h.of_mem (State.modMe_mem ..)) _ _
  · exact State.dst_holds h _ _

theorem State.changeEntry_holds (a : Word) (g : Nat → Nat) : (s.changeEntry a g).Holds State.Canonical := by
  unfold State.changeEntry
  simp only
  split
  · exact .error trivial
  · split
    · exact .error trivial
    · exact .ok h

theorem State.sendDest_holds (op : Nat) (o : Operand) : (s.sendDest op o).Holds fun r => r.2.Canonical := by
  unfold State.sendDest
  grind [Res.Holds, Halt.Canonical, Halt.illegal, Halt.field, State.src_holds h o, State.checkChannelAddr_holds]

theorem State.barrierOperands_holds (f : Fields) : (s.barrierOperands f).Holds fun r => r.2.2.Canonical := by
  unfold State.barrierOperands
  grind [Res.Holds, Halt.Canonical, Halt.field, State.src_holds h f.b, State.srcReady_holds, State.reachAfter_holds]

end

theorem seqOf_holds {r : Res State} (h : r.Holds State.Canonical) : (seqOf r).Holds fun a => a.state.Canonical := by
  cases h with
  | ok h => exact .ok h
  | error h => exact .error h

/-! ### Cores, slots and words -/

theorem State.poke_canonical {s : State} (h : s.Canonical) (a n x : Nat) : (s.poke a n x).Canonical := Mem.canonical_writeN h.mem a n x

theorem State.pokeWord_canonical {s : State} (h : s.Canonical) (a : Nat) (x : Word) : (s.pokeWord a x).Canonical := by
  grind [State.pokeWord, State.poke_canonical]

theorem State.land_canonical {s : State} (h : s.Canonical) (a n x : Nat) : (s.land a n x).Canonical := by
  grind [State.land, State.canonical_def, State.foldl_canonical, State.poke_canonical, State.markWord_mem]

/-! ### Translation -/

theorem State.setEntryState_canonical {s : State} (h : s.Canonical) (e x : Nat) : (s.setEntryState e x).Canonical := by
  grind [State.setEntryState, State.poke_canonical]

theorem State.rearm_canonical {s : State} (h : s.Canonical) (e : Nat) : (s.rearm e).Canonical := by
  grind [State.rearm, State.setEntryState_canonical]

theorem State.landAt_canonical {s : State} (h : s.Canonical) (pl : Place) (n x : Nat) : (s.landAt pl n x).Canonical := by
  unfold State.landAt
  grind [State.land_canonical, State.poke_canonical]

/-! ### Rings and words that the device writes for a tenant -/

theorem State.arriveWordsAt_canonical {s : State} (h : s.Canonical) (a b n flags : Nat) : (s.arriveWordsAt a b n flags).Canonical := by
  grind [State.arriveWordsAt, State.poke_canonical]

theorem State.putVa_canonical {s : State} (h : s.Canonical) (t : Nat) (a x : Word) : (s.putVa t a x).Canonical := by
  grind [State.putVa, State.land_canonical]

theorem State.putWords_canonical {s : State} (h : s.Canonical) (t : Nat) (a : Word) (xs : List Word) : (s.putWords t a xs).Canonical := by
  induction xs generalizing s a with
  | nil => exact h
  | cons x xs ih => exact ih (State.putVa_canonical h ..) _

theorem State.postRing_canonical {s : State} (h : s.Canonical) (place : Nat → Option Nat) (cap : Nat) (ws : List Word) :
    (s.postRing place cap ws).1.Canonical := by
  grind [State.postRing, State.poke_canonical, State.land_canonical, State.foldl_canonical]

theorem State.putRecord_canonical {s : State} (h : s.Canonical) (fn ring : Nat) (ws : List Word) : (s.putRecord fn ring ws).Canonical := by
  grind [State.putRecord, State.canonical_def, State.postRing_canonical]

theorem State.postRecord_canonical {s : State} (h : s.Canonical) (fn ring : Nat) (ws : List Word) :
    (s.postRecord fn ring ws).Canonical := by
  grind [State.postRecord, State.canonical_def, State.putRecord_canonical]

theorem State.askFor_canonical {s : State} (h : s.Canonical) (fn : Nat) (a : Word) : (s.askFor fn a).Canonical := by
  grind [State.askFor, State.canonical_def, State.setPage_mem, State.eventRecord_mem, State.postRecord_canonical]

theorem State.offerRecord_canonical {s : State} (h : s.Canonical) (fn ring : Nat) (ws : List Word) :
    (s.offerRecord fn ring ws).Canonical := by
  grind [State.offerRecord, State.postRecord_canonical, State.askFor_canonical]

theorem State.offerPosts_canonical {s : State} (h : s.Canonical) : s.offerPosts.Canonical := by
  grind [State.offerPosts, State.canonical_def, State.foldl_canonical, State.offerRecord_canonical]

theorem State.postEvent_canonical {s : State} (h : s.Canonical) (fn ring kind source : Nat) (w2 w3 : Word) :
    (s.postEvent fn ring kind source w2 w3).Canonical := by
  grind [State.postEvent, State.canonical_def, State.eventRecord_mem, State.offerRecord_canonical]

theorem State.postAllTenants_canonical {s : State} (h : s.Canonical) (kind source : Nat) (w2 w3 : Word) :
    (s.postAllTenants kind source w2 w3).Canonical := by
  grind [State.postAllTenants, State.foldl_canonical, State.postEvent_canonical]

theorem State.postFault_canonical {s : State} (h : s.Canonical) (rec job cl kind stage t lseq : Nat) :
    (s.postFault rec job cl kind stage t lseq).Canonical := by
  grind [State.postFault, State.canonical_def, State.postRing_canonical, State.post_mem]

theorem State.offerHeld_canonical {s : State} (h : s.Canonical) : s.offerHeld.Canonical := by
  grind [State.offerHeld, State.canonical_def, State.foldl_canonical, State.postFault_canonical]

/-! ### The order of writes -/

theorem State.arrive_canonical {s : State} (h : s.Canonical) (t c a b n flags : Nat) (l : Seen) (reads : List Release) :
    (s.arrive t c a b n flags l reads).Canonical := by
  grind [State.arrive, State.canonical_def, State.arriveWordsAt_canonical, State.addSync_mem, State.noteWaiters_mem]

/-! ### Contexts that are not resident -/

theorem State.loadPool_canonical {s : State} (h : s.Canonical) (c partw region sec : Nat) : (s.loadPool c partw region sec).Canonical :=
  Mem.canonical_foldl _ (Mem.canonical_zero h.mem _ _) fun _ _ hm => Mem.canonical_writeN hm ..

theorem State.loadStore_canonical {s : State} (h : s.Canonical) (cl sec : Nat) : (s.loadStore cl sec).Canonical :=
  Mem.canonical_overlay (Mem.canonical_zero h.mem _ _) _

theorem State.writeSection_canonical {s : State} (h : s.Canonical) (t e cl : Nat) (js : List Job) : (s.writeSection t e cl js).Canonical :=
  Mem.canonical_overlay (Mem.canonical_zero h.mem _ _) _

theorem State.writeChannel_canonical {s : State} (hs : s.Canonical) (t e c h ch : Nat) (k : Core) :
    (s.writeChannel t e c h ch k).Canonical := by
  grind [State.writeChannel, State.foldl_canonical, State.poke_canonical]

theorem State.writeCompletions_canonical {s : State} (h : s.Canonical) (t e c : Nat) (k : Core) : (s.writeCompletions t e c k).Canonical :=
  Mem.canonical_words h.mem _ _

theorem State.bringIn_canonical {s : State} (h : s.Canonical) (t e cl : Nat) (x : SavedCtx) (keep : Core → Core → Core) :
    (s.bringIn t e cl x keep).Canonical := by
  grind [State.bringIn, State.canonical_def, State.foldl_canonical, State.loadPool_canonical, State.modCore_mem, State.clearOrder_mem,
    State.moveOrder_mem, State.loadStore_canonical, State.modCluster_mem]

theorem State.onContext_canonical {s : State} (h : s.Canonical) (l : Launch) {f : State → State}
    (hf : ∀ t, t.Canonical → (f t).Canonical) : (s.onContext l f).Canonical := by
  unfold State.onContext
  split
  · exact hf _ h
  · refine Mem.canonical_overlay (Mem.canonical_filter (State.foldl_canonical _ (hf _ (State.foldl_canonical _ h ?_)) ?_) _) _
    · exact fun t cl ht => State.bringIn_canonical ht ..
    · exact fun t cl ht => State.writeSection_canonical ht ..

/-! ### Launches, firings, walkers and setts -/

theorem State.arriveFor_canonical {s : State} (h : s.Canonical) (j : Job) (n flags : Nat) : (s.arriveFor j n flags).Canonical := by
  grind [State.arriveFor, State.canonical_def, State.meets_mem, State.arrive_canonical]

theorem State.endJob_canonical {s : State} (h : s.Canonical) (j : Job) (engine refused : Bool) : (s.endJob j engine refused).Canonical := by
  grind [State.endJob, State.canonical_def, State.arriveFor_canonical, State.modCoreOf_mem, State.writeCompletions_canonical,
    State.dropJob_mem, State.post_mem]

theorem State.arrivePart_canonical {s : State} (h : s.Canonical) (p : ArrayPart) (flags : Nat) : (s.arrivePart p flags).Canonical := by
  grind [State.arrivePart, State.canonical_def, State.meets_mem, State.arrive_canonical]

theorem State.dissolveGang_canonical {s : State} (h : s.Canonical) (cl : Nat) : (s.dissolveGang cl).Canonical := by
  grind [State.dissolveGang, State.canonical_def, State.foldl_canonical, State.modCore_mem, State.arrivePart_canonical,
    State.endJob_canonical, State.modCluster_mem]

theorem State.strip_canonical {s : State} (h : s.Canonical) (cl gen reason : Nat) : (s.strip cl gen reason).Canonical := by
  grind [State.strip, State.canonical_def, State.modSett_mem, State.dissolveGang_canonical, State.modLaunch_mem, State.addJob_mem]

theorem State.leaveGang_canonical {s : State} (h : s.Canonical) (c n : Nat) : (s.leaveGang c n).Canonical := by
  grind [State.leaveGang, State.canonical_def, State.dissolveGang_canonical, State.modCore_mem]

theorem State.clearSlot_canonical {s : State} (h : s.Canonical) (c n : Nat) : (s.clearSlot c n).Canonical := by
  grind [State.clearSlot, State.canonical_def, State.foldl_canonical, State.modCore_mem, State.freedWord_mem, State.giveMirror_mem,
    State.modLaunch_mem, State.modCluster_mem, State.endRequests_mem, State.leaveGang_canonical, State.setSlot_mem, State.post_mem,
    State.evalRules_mem]

theorem State.endWrapup_canonical {s : State} (h : s.Canonical) (l : Nat) (wall : Bool) : (s.endWrapup l wall).Canonical := by
  grind [State.endWrapup, State.canonical_def, State.foldl_canonical, State.modLaunch_mem, State.clearSlot_canonical, State.modCore_mem,
    State.post_mem]

theorem State.afterFiring_canonical {s : State} (h : s.Canonical) (c : Nat) (sl : Slot) : (s.afterFiring c sl).Canonical := by
  grind [State.afterFiring, State.canonical_def, State.setLaunch_mem, State.addPending_mem, State.endRecall_mem, State.modCore_mem,
    State.modLaunch_mem, State.endWrapup_canonical, State.post_mem]

theorem State.endFiring_canonical {s : State} (h : s.Canonical) (c n : Nat) : (s.endFiring c n).Canonical := by
  grind [State.endFiring, State.canonical_def, State.clearSlot_canonical, State.settRefuse_mem, State.countRecall_mem,
    State.afterFiring_canonical]

theorem State.stripFiring_canonical {s : State} (h : s.Canonical) (c n reason : Nat) : (s.stripFiring c n reason).Canonical := by
  grind [State.stripFiring, State.canonical_def, State.clearSlot_canonical, State.strip_canonical, State.countRecall_mem,
    State.afterFiring_canonical]

theorem State.endWaiting_canonical {s : State} (h : s.Canonical) (l : Nat) : (s.endWaiting l).Canonical := by
  grind [State.endWaiting, State.canonical_def, State.foldl_canonical, State.modCore_mem, State.endJob_canonical, State.dropJob_mem]

theorem State.stopFirings_canonical {s : State} (h : s.Canonical) (l : Nat) : (s.stopFirings l).Canonical := by
  grind [State.stopFirings, State.canonical_def, State.foldl_canonical, State.clearSlot_canonical, State.endRecall_mem, State.unreserve_mem]

theorem State.endOnCores_canonical {s : State} (h : s.Canonical) (x : Launch) : (s.endOnCores x).Canonical := by
  grind [State.endOnCores, State.canonical_def, State.foldl_canonical, State.stopFirings_canonical, State.dropWords_mem,
    State.dropWalkers_mem, State.strip_canonical, State.settOutcome_mem, State.dropRecalls_mem, State.settGone_mem, State.addJob_mem]

theorem State.endLaunch_canonical {s : State} (h : s.Canonical) (l status cls c : Nat) (value : Word) :
    (s.endLaunch l status cls c value).Canonical := by
  grind [State.endLaunch, State.canonical_def, State.modLaunch_mem, State.onContext_canonical, State.endOnCores_canonical,
    State.endWaiting_canonical, State.post_mem]

theorem State.faultLaunch_canonical {s : State} (h : s.Canonical) (l cls c : Nat) (value : Word) :
    (s.faultLaunch l cls c value).Canonical := by
  grind [State.faultLaunch, State.endLaunch_canonical]

theorem State.spillWalker_canonical {s : State} (h : s.Canonical) (cl : Nat) (w : Walker) : (s.spillWalker cl w).Canonical := by
  grind [State.spillWalker, State.canonical_def, State.meets_mem, State.modCluster_mem, State.countWalkers_mem,
    State.faultLaunch_canonical, State.spillJob_mem]

theorem State.walkerArrives_canonical {s : State} (h : s.Canonical) (cl : Nat) (w : Walker) : (s.walkerArrives cl w).Canonical := by
  grind [State.walkerArrives, State.canonical_def, State.countWalkers_mem, State.seat_mem, State.spillWalker_canonical]

theorem State.expireCore_canonical {s : State} (h : s.Canonical) (c l : Nat) : (s.expireCore c l).Canonical := by
  grind [State.expireCore, State.canonical_def, State.foldl_canonical, State.clearSlot_canonical, State.unreserve_mem, State.modCore_mem,
    State.dropWords_mem]

/-! ### Exact faults and issue -/

theorem State.takeExact_canonical {s : State} (h : s.Canonical) (cause : Nat) (val addr : Word) :
    (s.takeExact cause val addr).Canonical := by
  grind [State.takeExact, State.canonical_def, State.setMe_mem, State.stripFiring_canonical, State.faultLaunch_canonical,
    State.enterTrap_mem]

theorem State.tellBad_canonical {s : State} (h : s.Canonical) (a ended : Nat) : (s.tellBad a ended).Canonical := by
  grind [State.tellBad, State.postEvent_canonical]

theorem State.meetBad_canonical {s : State} (h : s.Canonical) (a : Nat) (addr : Word) : (s.meetBad a addr).Canonical := by
  grind [State.meetBad, State.canonical_def, State.setMe_mem, State.tellBad_canonical, State.stripFiring_canonical,
    State.faultLaunch_canonical]

theorem State.settle_canonical {s : State} (h : s.Canonical) {r : Res After} (hr : r.Holds fun a => a.state.Canonical) :
    (s.settle r).Canonical := by
  unfold State.settle
  grind [Res.Holds, Halt.Canonical, After.state, State.canonical_def, State.retire_mem, State.retireTo_mem, State.takeExact_canonical,
    State.stallMe_mem, State.forgetWait_mem, State.meetBad_canonical, State.modMe_mem]

/-- An instruction whose body keeps memory canonical keeps it so, whatever its checks and its guard answer. -/
theorem State.issue_canonical {s : State} (h : s.Canonical) (op : Nat) (f : Fields) {body : State → Res After}
    (hb : (body s).Holds fun a => a.state.Canonical) : Out.Canonical (s.issue op f body) := by
  grind [State.issue, Out.Canonical, State.canonical_def, State.takeExact_canonical, State.stallMe_mem, State.settle_canonical,
    State.setHere_mem, State.retire_mem]

theorem jumpTo_holds {s : State} (h : s.Canonical) (pc : Word) : Res.Holds (fun a => a.state.Canonical) (jumpTo s pc) := by
  grind [jumpTo, Res.Holds, Halt.Canonical, After.state, State.canonical_def, State.setHere_mem]

/-! ### Integer arithmetic -/

theorem scalarInt_holds {s : State} (h : s.Canonical) (g : Nat → Bool → Nat → Nat → Nat → Nat) (f : Fields) :
    Res.Holds State.Canonical (scalarInt g f s) := by
  grind [scalarInt, Res.Holds, State.src_holds, State.dst_holds]

theorem vectorInt_holds {s : State} (h : s.Canonical) (g : Nat → Bool → Nat → Nat → Nat → Nat) (f : Fields) :
    Res.Holds State.Canonical (vectorInt g f s) := by
  grind [vectorInt, Res.Holds, State.canonical_def, State.laneB_holds, State.dstV_mem]

theorem intBody_holds {s : State} (h : s.Canonical) (g : Nat → Bool → Nat → Nat → Nat → Nat) (f : Fields) :
    Res.Holds (fun a => a.state.Canonical) (intBody g f s) := by
  grind [intBody, Res.Holds, After.state, vectorInt_holds, scalarInt_holds]

/-! ### Control instructions -/

theorem branchTo_holds {s : State} (h : s.Canonical) (t : Int) : Res.Holds (fun a => a.state.Canonical) (branchTo s t) := by
  grind [branchTo, Res.Holds, Halt.Canonical, After.state, State.canonical_def, State.setHere_mem]

@[simp] theorem execNop_canonical {s : State} (h : s.Canonical) (f : Fields) : Out.Canonical (execNop f s) := by
  refine State.issue_canonical h _ _ ?_
  grind [Res.Holds, After.state]

@[simp] theorem execBra_canonical {s : State} (h : s.Canonical) (f : Fields) : Out.Canonical (execBra f s) := by
  refine State.issue_canonical h _ _ ?_
  grind [Res.Holds, After.state, branchTo_holds]

@[simp] theorem execJmp_canonical {s : State} (h : s.Canonical) (f : Fields) : Out.Canonical (execJmp f s) := by
  refine State.issue_canonical h _ _ ?_
  grind [jumpTo_holds]

@[simp] theorem execCall_canonical {s : State} (h : s.Canonical) (f : Fields) : Out.Canonical (execCall f s) := by
  refine State.issue_canonical h _ _ ?_
  grind [Res.Holds, State.dst_holds, branchTo_holds, jumpTo_holds]

@[simp] theorem execRet_canonical {s : State} (h : s.Canonical) (f : Fields) : Out.Canonical (execRet f s) := by
  refine State.issue_canonical h _ _ ?_
  grind [State.canonical_def, jumpTo_holds, State.modMe_mem]

@[simp] theorem execLoop_canonical {s : State} (h : s.Canonical) (f : Fields) : Out.Canonical (execLoop f s) := by
  refine State.issue_canonical h _ _ ?_
  grind [Res.Holds, After.state, State.dst_holds, branchTo_holds]

@[simp] theorem execEndFiring_canonical {s : State} (h : s.Canonical) (f : Fields) : Out.Canonical (execEndFiring f s) := by
  refine State.issue_canonical h _ _ ?_
  grind [Res.Holds, After.state, State.canonical_def, State.retire_mem, State.endFiring_canonical]

@[simp] theorem execYield_canonical {s : State} (h : s.Canonical) (f : Fields) : Out.Canonical (execYield f s) := by
  refine State.issue_canonical h _ _ ?_
  grind [Res.Holds, After.state]

@[simp] theorem execJtab_canonical {s : State} (h : s.Canonical) (f : Fields) : Out.Canonical (execJtab f s) := by
  refine State.issue_canonical h _ _ ?_
  grind [Res.Holds, Halt.Canonical, After.state, branchTo_holds]

@[simp] theorem execTrap_canonical {s : State} (h : s.Canonical) (f : Fields) : Out.Canonical (execTrap f s) := by
  refine State.issue_canonical h _ _ ?_
  grind [Res.Holds, Halt.Canonical, State.src_holds]

@[simp] theorem execWaitb_canonical {s : State} (h : s.Canonical) (f : Fields) : Out.Canonical (execWaitb f s) := by
  have src := State.src_holds h f.b
  refine State.issue_canonical h _ _ ?_
  split
  · grind [Res.Holds, State.checkLocal_holds]
  · split
    · exact src.of_error ‹_›
    · grind [Res.Holds, Halt.Canonical, After.state, State.canonical_def, State.unboarded_holds, State.waited_mem, State.dst_holds,
      State.pokeWord_canonical, State.waitedShort_mem]

@[simp] theorem execWaitc_canonical {s : State} (h : s.Canonical) (f : Fields) : Out.Canonical (execWaitc f s) := by
  refine State.issue_canonical h _ _ ?_
  grind [Res.Holds, Halt.Canonical, After.state, State.dst_holds]

@[simp] theorem execBrk_canonical {s : State} (h : s.Canonical) (f : Fields) : Out.Canonical (execBrk f s) := by
  refine State.issue_canonical h _ _ ?_
  grind [Res.Holds, Halt.Canonical]

@[simp] theorem execSleep_canonical {s : State} (h : s.Canonical) (f : Fields) : Out.Canonical (execSleep f s) := by
  refine State.issue_canonical h _ _ ?_
  grind [Res.Holds, Halt.Canonical, After.state, State.canonical_def, State.src_holds, State.modMe_mem, State.setHere_mem]

/-! ### Moves and lane moves -/

@[simp] theorem execMov_canonical {s : State} (h : s.Canonical) (f : Fields) : Out.Canonical (execMov f s) := by
  refine State.issue_canonical h _ _ ?_
  grind [Res.Holds, After.state, State.canonical_def, State.dstV_mem, State.dstP_mem, State.dstW_mem, State.dstM_mem, State.src_holds,
    seqOf_holds, State.dst_holds]

@[simp] theorem execMovh_canonical {s : State} (h : s.Canonical) (f : Fields) : Out.Canonical (execMovh f s) := by
  refine State.issue_canonical h _ _ ?_
  grind [Res.Holds, After.state, seqOf_holds, State.dst_holds]

@[simp] theorem execSel_canonical {s : State} (h : s.Canonical) (f : Fields) : Out.Canonical (execSel f s) := by
  refine State.issue_canonical h _ _ ?_
  grind [Res.Holds, After.state, State.canonical_def, State.dstP_mem, State.laneB_holds, State.dstV_mem, State.src_holds, seqOf_holds,
    State.dst_holds]

@[simp] theorem execCmp_canonical {s : State} (h : s.Canonical) (f : Fields) : Out.Canonical (execCmp f s) := by
  refine State.issue_canonical h _ _ ?_
  grind [Res.Holds, After.state, State.canonical_def, State.src_holds, State.dstP_mem]

@[simp] theorem execCmpv_canonical {s : State} (h : s.Canonical) (f : Fields) : Out.Canonical (execCmpv f s) := by
  refine State.issue_canonical h _ _ ?_
  grind [Res.Holds, After.state, State.canonical_def, State.laneB_holds, State.dstW_mem]

theorem predBody_holds {s : State} (h : s.Canonical) (g : Bool → Bool → Bool) (h : Word → Word → Word) (f : Fields) :
    Res.Holds (fun a => a.state.Canonical) (predBody g h f s) := by
  grind [predBody, Res.Holds, After.state, State.canonical_def, State.dstW_mem, State.dstP_mem]

@[simp] theorem execLea_canonical {s : State} (h : s.Canonical) (f : Fields) : Out.Canonical (execLea f s) := by
  refine State.issue_canonical h _ _ ?_
  grind [seqOf_holds, State.dst_holds]

@[simp] theorem execMovs_canonical {s : State} (h : s.Canonical) (f : Fields) : Out.Canonical (execMovs f s) := by
  refine State.issue_canonical h _ _ ?_
  grind [Res.Holds, After.state, State.canonical_def, seqOf_holds, State.dstFree_holds, State.src_holds, State.setHere_mem]

@[simp] theorem execMovw_canonical {s : State} (h : s.Canonical) (f : Fields) : Out.Canonical (execMovw f s) := by
  refine State.issue_canonical h _ _ ?_
  split
  · exact seqOf_holds (State.dst_holds h ..)
  · exact seqOf_holds (State.dst_holds h ..)
  · grind [Res.Holds, Halt.Canonical, Halt.field, seqOf_holds, State.src_holds, State.dst_holds]
  · have src := State.src_holds h f.a
    split
    · exact src.of_error ‹_›
    · grind [Res.Holds, Halt.Canonical, Halt.field, After.state, State.canonical_def, State.src_holds, State.dstW_mem, State.dstP_mem,
      State.dstM_mem]

@[simp] theorem execIota_canonical {s : State} (h : s.Canonical) (f : Fields) : Out.Canonical (execIota f s) := by
  refine State.issue_canonical h _ _ ?_
  grind [Res.Holds, After.state, State.canonical_def, State.src_holds, State.dstV_mem]

@[simp] theorem execBcast_canonical {s : State} (h : s.Canonical) (f : Fields) : Out.Canonical (execBcast f s) := by
  refine State.issue_canonical h _ _ ?_
  grind [Res.Holds, After.state, State.canonical_def, State.src_holds, State.dstV_mem]

@[simp] theorem execExtl_canonical {s : State} (h : s.Canonical) (f : Fields) : Out.Canonical (execExtl f s) := by
  refine State.issue_canonical h _ _ ?_
  grind [Res.Holds, State.src_holds, seqOf_holds, State.dst_holds]

@[simp] theorem execInsl_canonical {s : State} (h : s.Canonical) (f : Fields) : Out.Canonical (execInsl f s) := by
  refine State.issue_canonical h _ _ ?_
  grind [Res.Holds, After.state, State.canonical_def, State.src_holds, State.dstV_mem]

/-! ### Floating point -/

theorem floatBody_holds {s : State} (h : s.Canonical) (g : LaneFun) (f : Fields) :
    Res.Holds (fun a => a.state.Canonical) (floatBody g f s) := by
  grind [floatBody, Res.Holds, After.state, State.canonical_def, State.laneB_holds, State.rounded_mem, State.dstV_mem, State.src_holds,
    seqOf_holds, State.dst_holds]

theorem rawBody_holds {s : State} (h : s.Canonical) (g : Nat → Nat → Nat → Nat) (f : Fields) :
    Res.Holds (fun a => a.state.Canonical) (rawBody g f s) := by
  grind [rawBody, Res.Holds, After.state, State.canonical_def, State.laneB_holds, State.dstV_mem, State.src_holds, seqOf_holds,
    State.dst_holds]

@[simp] theorem execFcmp_canonical {s : State} (h : s.Canonical) (f : Fields) : Out.Canonical (execFcmp f s) := by
  refine State.issue_canonical h _ _ ?_
  grind [Res.Holds, After.state, State.canonical_def, State.laneB_holds, State.dstW_mem, State.src_holds, State.dstP_mem]

@[simp] theorem execFscale_canonical {s : State} (h : s.Canonical) (f : Fields) : Out.Canonical (execFscale f s) := by
  refine State.issue_canonical h _ _ ?_
  grind [Res.Holds, After.state, State.canonical_def, State.rounded_mem, State.dstV_mem, floatBody_holds, State.src_holds, seqOf_holds,
    State.dst_holds]

@[simp] theorem execFcvt_canonical {s : State} (h : s.Canonical) (f : Fields) : Out.Canonical (execFcvt f s) := by
  refine State.issue_canonical h _ _ ?_
  grind [Res.Holds, After.state, State.canonical_def, State.src_holds, State.rounded_mem, State.dstV_mem, seqOf_holds, State.dst_holds]

@[simp] theorem execFtoi_canonical {s : State} (h : s.Canonical) (f : Fields) : Out.Canonical (execFtoi f s) := by
  refine State.issue_canonical h _ _ ?_
  grind [Res.Holds, After.state, State.canonical_def, State.roundedInts_mem, State.dstV_mem, State.src_holds, seqOf_holds, State.dst_holds]

@[simp] theorem execItof_canonical {s : State} (h : s.Canonical) (f : Fields) : Out.Canonical (execItof f s) := by
  refine State.issue_canonical h _ _ ?_
  grind [Res.Holds, After.state, State.canonical_def, State.rounded_mem, State.dstV_mem, State.src_holds, seqOf_holds, State.dst_holds]

@[simp] theorem execFdot_canonical {s : State} (h : s.Canonical) (f : Fields) : Out.Canonical (execFdot f s) := by
  refine State.issue_canonical h _ _ ?_
  grind [State.canonical_def, State.rounded_mem, seqOf_holds, State.dst_holds]

@[simp] theorem execQnt_canonical {s : State} (h : s.Canonical) (f : Fields) : Out.Canonical (execQnt f s) :=
  State.issue_canonical h _ _ <|
    .ite (.ok (h.of_mem ((State.dstV_mem ..).trans ((State.quantise_mem ..).trans (State.quantise_mem ..)))))
      (.ok (h.of_mem ((State.dstV_mem ..).trans (State.quantise_mem ..))))

@[simp] theorem execDqnt_canonical {s : State} (h : s.Canonical) (f : Fields) : Out.Canonical (execDqnt f s) := by
  refine State.issue_canonical h _ _ ?_
  grind [Res.Holds, Halt.Canonical, After.state, State.canonical_def, State.src_holds, State.rounded_mem, State.dstV_mem, Halt.field]

@[simp] theorem execPlsplit_canonical {s : State} (h : s.Canonical) (f : Fields) : Out.Canonical (execPlsplit f s) := by
  refine State.issue_canonical h _ _ ?_
  grind [Res.Holds, Halt.Canonical, State.src_holds, seqOf_holds, State.dst_holds, Halt.field]

@[simp] theorem execPljoin_canonical {s : State} (h : s.Canonical) (f : Fields) : Out.Canonical (execPljoin f s) := by
  refine State.issue_canonical h _ _ ?_
  grind [Res.Holds, Halt.Canonical, After.state, State.canonical_def, State.src_holds, State.dstV_mem, Halt.field]

/-! ### Vector instructions -/

@[simp] theorem execVshuf_canonical {s : State} (h : s.Canonical) (f : Fields) : Out.Canonical (execVshuf f s) := by
  refine State.issue_canonical h _ _ ?_
  grind [Res.Holds, After.state, State.canonical_def, State.lanesD_mem]

@[simp] theorem execVperm2_canonical {s : State} (h : s.Canonical) (f : Fields) : Out.Canonical (execVperm2 f s) := by
  refine State.issue_canonical h _ _ ?_
  grind [Res.Holds, After.state, State.canonical_def, State.lanesD_mem]

@[simp] theorem execVrot_canonical {s : State} (h : s.Canonical) (f : Fields) : Out.Canonical (execVrot f s) := by
  refine State.issue_canonical h _ _ ?_
  grind [Res.Holds, After.state, State.canonical_def, State.src_holds, State.lanesD_mem]

@[simp] theorem execVzip_canonical {s : State} (h : s.Canonical) (f : Fields) : Out.Canonical (execVzip f s) := by
  refine State.issue_canonical h _ _ ?_
  grind [Res.Holds, After.state, State.canonical_def, State.lanesD_mem]

@[simp] theorem execVunzip_canonical {s : State} (h : s.Canonical) (f : Fields) : Out.Canonical (execVunzip f s) := by
  refine State.issue_canonical h _ _ ?_
  grind [Res.Holds, After.state, State.canonical_def, State.lanesD_mem]

@[simp] theorem execVcomp_canonical {s : State} (h : s.Canonical) (f : Fields) : Out.Canonical (execVcomp f s) := by
  refine State.issue_canonical h _ _ ?_
  grind [Res.Holds, After.state, State.canonical_def, State.lanesD_mem]

@[simp] theorem execVexp_canonical {s : State} (h : s.Canonical) (f : Fields) : Out.Canonical (execVexp f s) := by
  refine State.issue_canonical h _ _ ?_
  grind [Res.Holds, After.state, State.canonical_def, State.lanesD_mem]

@[simp] theorem execVmatch_canonical {s : State} (h : s.Canonical) (f : Fields) : Out.Canonical (execVmatch f s) := by
  refine State.issue_canonical h _ _ ?_
  grind [Res.Holds, After.state, State.canonical_def, State.dstW_mem]

@[simp] theorem execVred_canonical {s : State} (h : s.Canonical) (f : Fields) : Out.Canonical (execVred f s) := by
  refine State.issue_canonical h _ _ ?_
  grind [State.canonical_def, State.setHere_mem, seqOf_holds, State.dst_holds]

@[simp] theorem execVscan_canonical {s : State} (h : s.Canonical) (f : Fields) : Out.Canonical (execVscan f s) := by
  refine State.issue_canonical h _ _ ?_
  grind [Res.Holds, After.state, State.canonical_def, State.setHere_mem, State.lanesD_mem]

@[simp] theorem execVseg_canonical {s : State} (h : s.Canonical) (f : Fields) : Out.Canonical (execVseg f s) := by
  refine State.issue_canonical h _ _ ?_
  grind [Res.Holds, After.state, State.canonical_def, State.setHere_mem, State.lanesD_mem]

@[simp] theorem execVsort_canonical {s : State} (h : s.Canonical) (f : Fields) : Out.Canonical (execVsort f s) := by
  refine State.issue_canonical h _ _ ?_
  grind [Res.Holds, After.state, State.canonical_def, State.lanesD_mem]

@[simp] theorem execVtopk_canonical {s : State} (h : s.Canonical) (f : Fields) : Out.Canonical (execVtopk f s) := by
  refine State.issue_canonical h _ _ ?_
  grind [Res.Holds, Halt.Canonical, After.state, State.canonical_def, State.src_holds, State.lanesD_mem, State.modMe_mem]

@[simp] theorem execVdist_canonical {s : State} (h : s.Canonical) (f : Fields) : Out.Canonical (execVdist f s) := by
  refine State.issue_canonical h _ _ ?_
  grind [State.canonical_def, seqOf_holds, State.setHere_mem, State.dst_holds]

/-! ### Membership instructions -/

@[simp] theorem execMset_canonical {s : State} (h : s.Canonical) (f : Fields) : Out.Canonical (execMset f s) := by
  refine State.issue_canonical h _ _ ?_
  grind [Res.Holds, After.state, State.canonical_def, State.src_holds, State.dstM_mem]

theorem memberBody_holds {s : State} (h : s.Canonical) (g : Members → Members → Members) (f : Fields) :
    Res.Holds (fun a => a.state.Canonical) (memberBody g f s) := by
  grind [memberBody, Res.Holds, After.state, State.canonical_def, State.dstM_mem]

@[simp] theorem execMcnt_canonical {s : State} (h : s.Canonical) (f : Fields) : Out.Canonical (execMcnt f s) := by
  refine State.issue_canonical h _ _ ?_
  grind [Res.Holds, State.src_holds, seqOf_holds, State.dst_holds]

@[simp] theorem execMfind_canonical {s : State} (h : s.Canonical) (f : Fields) : Out.Canonical (execMfind f s) := by
  refine State.issue_canonical h _ _ ?_
  grind [Res.Holds, State.src_holds, seqOf_holds, State.dst_holds]

@[simp] theorem execMsplit_canonical {s : State} (h : s.Canonical) (f : Fields) : Out.Canonical (execMsplit f s) := by
  refine State.issue_canonical h _ _ ?_
  grind [Res.Holds, Halt.Canonical, After.state, State.canonical_def, State.modMe_mem]

@[simp] theorem execMpred_canonical {s : State} (h : s.Canonical) (f : Fields) : Out.Canonical (execMpred f s) := by
  refine State.issue_canonical h _ _ ?_
  grind [Res.Holds, After.state, State.canonical_def, State.dstM_mem]

@[simp] theorem execMtov_canonical {s : State} (h : s.Canonical) (f : Fields) : Out.Canonical (execMtov f s) := by
  refine State.issue_canonical h _ _ ?_
  grind [Res.Holds, After.state, State.canonical_def, State.src_holds, State.lanesD_mem, State.dstV_mem]

@[simp] theorem execVtom_canonical {s : State} (h : s.Canonical) (f : Fields) : Out.Canonical (execVtom f s) := by
  refine State.issue_canonical h _ _ ?_
  grind [Res.Holds, After.state, State.canonical_def, State.dstM_mem]

@[simp] theorem execQld_canonical {s : State} (h : s.Canonical) (f : Fields) : Out.Canonical (execQld f s) := by
  refine State.issue_canonical h _ _ ?_
  grind [Res.Holds, After.state, State.canonical_def, State.src_holds, State.reach_holds, State.dstV_mem, State.loadOrder_mem]

@[simp] theorem execQst_canonical {s : State} (h : s.Canonical) (f : Fields) : Out.Canonical (execQst f s) := by
  refine State.issue_canonical h _ _ ?_
  grind [Res.Holds, Halt.Canonical, After.state, State.canonical_def, State.checkLocal_holds, State.startJob_mem]

@[simp] theorem execWalk_canonical {s : State} (h : s.Canonical) (f : Fields) : Out.Canonical (execWalk f s) := by
  refine State.issue_canonical h _ _ ?_
  grind [Res.Holds, Halt.Canonical, After.state, State.canonical_def, State.src_holds, State.setHere_mem, State.post_mem]

@[simp] theorem execMmeet_canonical {s : State} (h : s.Canonical) (f : Fields) : Out.Canonical (execMmeet f s) := by
  refine State.issue_canonical h _ _ ?_
  grind [Res.Holds, Halt.Canonical, After.state, State.canonical_def, State.src_holds, State.modCluster_mem, State.modMe_mem,
    State.overflowReturn_mem, Halt.illegal]

/-! ### Local memory -/

@[simp] theorem execLd_canonical {s : State} (h : s.Canonical) (f : Fields) : Out.Canonical (execLd f s) := by
  refine State.issue_canonical h _ _ ?_
  grind [Res.Holds, State.canonical_def, State.reachAfter_holds, State.dstReady_holds, seqOf_holds, State.loaded_mem, State.dst_holds]

@[simp] theorem execSt_canonical {s : State} (h : s.Canonical) (f : Fields) : Out.Canonical (execSt f s) := by
  refine State.issue_canonical h _ _ ?_
  grind [Res.Holds, After.state, State.canonical_def, State.reachAfter_holds, State.srcReady_holds, State.src_holds,
    State.pokeWord_canonical, State.stored_mem]

@[simp] theorem execLdv_canonical {s : State} (h : s.Canonical) (f : Fields) : Out.Canonical (execLdv f s) := by
  refine State.issue_canonical h _ _ ?_
  grind [Res.Holds, After.state, State.canonical_def, State.reach_holds, State.dstV_mem, State.loaded_mem]

@[simp] theorem execStv_canonical {s : State} (h : s.Canonical) (f : Fields) : Out.Canonical (execStv f s) := by
  refine State.issue_canonical h _ _ ?_
  grind [Res.Holds, After.state, State.canonical_def, State.reach_holds, State.poke_canonical, State.stored_mem]

@[simp] theorem execLdx_canonical {s : State} (h : s.Canonical) (f : Fields) : Out.Canonical (execLdx f s) := by
  refine State.issue_canonical h _ _ ?_
  grind [Res.Holds, After.state, State.canonical_def, State.laneReach_holds, State.lanesLoaded_mem, State.lanesD_mem]

theorem State.storeLanes_canonical {s : State} (h : s.Canonical) (n : Nat) (l : List (Option Nat)) (xs : List Nat) :
    (s.storeLanes n l xs).Canonical := by
  induction l generalizing s xs with
  | nil => exact h
  | cons a l ih =>
    cases xs with
    | nil => cases a <;> exact h
    | cons x xs =>
      cases a with
      | none => exact ih h xs
      | some a => exact ih ((State.poke_canonical h a n x).of_mem (State.storeOrder_mem ..)) xs

@[simp] theorem execStx_canonical {s : State} (h : s.Canonical) (f : Fields) : Out.Canonical (execStx f s) := by
  refine State.issue_canonical h _ _ ?_
  grind [Res.Holds, After.state, State.laneReach_holds, State.storeLanes_canonical]

@[simp] theorem execLdfe_canonical {s : State} (h : s.Canonical) (f : Fields) : Out.Canonical (execLdfe f s) := by
  refine State.issue_canonical h _ _ ?_
  simp only [bind, Except.bind]
  grind [Res.Holds, After.state, State.canonical_def, State.checkLocal_holds, State.dstReady_holds, State.feReach_holds, State.loaded_mem,
    State.dst_holds, State.feDone_mem, State.markWord_mem]

@[simp] theorem execLdff_canonical {s : State} (h : s.Canonical) (f : Fields) : Out.Canonical (execLdff f s) := by
  refine State.issue_canonical h _ _ ?_
  simp only [bind, Except.bind]
  grind [Res.Holds, After.state, State.canonical_def, State.checkLocal_holds, State.dstReady_holds, State.feReach_holds, State.loaded_mem,
    State.dst_holds, State.feDone_mem]

@[simp] theorem execStef_canonical {s : State} (h : s.Canonical) (f : Fields) : Out.Canonical (execStef f s) := by
  refine State.issue_canonical h _ _ ?_
  grind [Res.Holds, After.state, State.canonical_def, State.checkLocal_holds, State.src_holds, State.feReach_holds,
    State.pokeWord_canonical, State.stored_mem, State.feDone_mem, State.markWord_mem]

@[simp] theorem execStxf_canonical {s : State} (h : s.Canonical) (f : Fields) : Out.Canonical (execStxf f s) := by
  refine State.issue_canonical h _ _ ?_
  grind [Res.Holds, After.state, State.canonical_def, State.reachAfter_holds, State.srcReady_holds, State.src_holds,
    State.pokeWord_canonical, State.stored_mem, State.markWord_mem]

@[simp] theorem execFemark_canonical {s : State} (h : s.Canonical) (f : Fields) : Out.Canonical (execFemark f s) := by
  refine State.issue_canonical h _ _ ?_
  grind [Res.Holds, After.state, State.canonical_def, State.reach_holds, State.markWord_mem]

@[simp] theorem execFepoll_canonical {s : State} (h : s.Canonical) (f : Fields) : Out.Canonical (execFepoll f s) := by
  refine State.issue_canonical h _ _ ?_
  grind [Res.Holds, After.state, State.canonical_def, State.reach_holds, State.dstP_mem]

@[simp] theorem execLatom_canonical {s : State} (h : s.Canonical) (f : Fields) : Out.Canonical (execLatom f s) := by
  refine State.issue_canonical h _ _ ?_
  simp only [bind, Except.bind]
  grind [Res.Holds, State.canonical_def, State.reachAfter_holds, State.srcReady_holds, State.dstReady_holds, State.src_holds, seqOf_holds,
    State.pokeWord_canonical, State.chainOrder_mem, State.dst_holds]

/-! ### Barriers and channels -/

@[simp] theorem execBinit_canonical {s : State} (h : s.Canonical) (f : Fields) : Out.Canonical (execBinit f s) := by
  refine State.issue_canonical h _ _ ?_
  grind [Res.Holds, After.state, State.canonical_def, State.barrierOperands_holds, State.poke_canonical, State.storeOrder_mem]

@[simp] theorem execBexpect_canonical {s : State} (h : s.Canonical) (f : Fields) : Out.Canonical (execBexpect f s) := by
  refine State.issue_canonical h _ _ ?_
  grind [Res.Holds, After.state, State.barrierOperands_holds, State.poke_canonical]

@[simp] theorem execBarrive_canonical {s : State} (h : s.Canonical) (f : Fields) : Out.Canonical (execBarrive f s) := by
  refine State.issue_canonical h _ _ ?_
  grind [Res.Holds, After.state, State.canonical_def, State.barrierOperands_holds, State.arrive_canonical, State.demote_mem]

@[simp] theorem execBpoll_canonical {s : State} (h : s.Canonical) (f : Fields) : Out.Canonical (execBpoll f s) := by
  refine State.issue_canonical h _ _ ?_
  grind [Res.Holds, State.canonical_def, State.reachAfter_holds, State.dstReady_holds, seqOf_holds, State.polled_mem, State.dst_holds]

@[simp] theorem execFence_canonical {s : State} (h : s.Canonical) (f : Fields) : Out.Canonical (execFence f s) := by
  refine State.issue_canonical h _ _ ?_
  grind [Res.Holds, After.state, State.canonical_def, State.demote_mem, State.fence_mem]

@[simp] theorem execSend_canonical {s : State} (h : s.Canonical) (f : Fields) : Out.Canonical (execSend f s) := by
  refine State.issue_canonical h _ _ ?_
  grind [Res.Holds, Halt.Canonical, After.state, State.canonical_def, State.sendDest_holds, State.src_holds, State.sendWord_mem]

@[simp] theorem execSendt_canonical {s : State} (h : s.Canonical) (f : Fields) : Out.Canonical (execSendt f s) := by
  refine State.issue_canonical h _ _ ?_
  grind [Res.Holds, Halt.Canonical, After.state, State.canonical_def, State.sendDest_holds, State.src_holds, State.sendWord_mem]

@[simp] theorem execTrysend_canonical {s : State} (h : s.Canonical) (f : Fields) : Out.Canonical (execTrysend f s) := by
  refine State.issue_canonical h _ _ ?_
  grind [Res.Holds, After.state, State.canonical_def, State.sendDest_holds, State.src_holds, State.dstP_mem, State.sendWord_mem]

@[simp] theorem execCtrl_canonical {s : State} (h : s.Canonical) (f : Fields) : Out.Canonical (execCtrl f s) := by
  refine State.issue_canonical h _ _ ?_
  split
  · grind [Res.Holds, Halt.Canonical, Halt.field, seqOf_holds, State.src_holds, State.pushRing_holds]
  · have dest := State.sendDest_holds h 0x9A f.a
    split
    · exact dest.of_error ‹_›
    · grind [Res.Holds, Halt.Canonical, Halt.field, After.state, State.canonical_def, State.src_holds, State.sendWord_mem]

@[simp] theorem execRecv_canonical {s : State} (h : s.Canonical) (f : Fields) : Out.Canonical (execRecv f s) := by
  refine State.issue_canonical h _ _ ?_
  grind [Res.Holds, Halt.Canonical, After.state, State.canonical_def, seqOf_holds, State.afterPop_mem, State.received_holds,
    State.pop_holds, State.dst_holds]

@[simp] theorem execPeek_canonical {s : State} (h : s.Canonical) (f : Fields) : Out.Canonical (execPeek f s) := by
  refine State.issue_canonical h _ _ ?_
  grind [Res.Holds, Halt.Canonical, After.state, State.canonical_def, seqOf_holds, State.acquired_mem, State.received_holds]

@[simp] theorem execChcnt_canonical {s : State} (h : s.Canonical) (f : Fields) : Out.Canonical (execChcnt f s) := by
  refine State.issue_canonical h _ _ ?_
  grind [Res.Holds, Halt.Canonical, After.state, seqOf_holds, State.dst_holds, Halt.field, Halt.illegal]

@[simp] theorem execGang_canonical {s : State} (h : s.Canonical) (f : Fields) : Out.Canonical (execGang f s) := by
  refine State.issue_canonical h _ _ ?_
  grind [Res.Holds, Halt.Canonical, After.state, State.canonical_def, State.src_holds, State.setHere_mem, State.stallMe_mem, State.post_mem]

@[simp] theorem execHmask_canonical {s : State} (h : s.Canonical) (f : Fields) : Out.Canonical (execHmask f s) := by
  refine State.issue_canonical h _ _ ?_
  grind [Res.Holds, State.src_holds, seqOf_holds, State.changeEntry_holds]

@[simp] theorem execHprio_canonical {s : State} (h : s.Canonical) (f : Fields) : Out.Canonical (execHprio f s) := by
  have first := State.src_holds h f.a
  refine State.issue_canonical h _ _ ?_
  split
  · exact first.of_error ‹_›
  · grind [Res.Holds, Halt.Canonical, Halt.field, After.state, State.src_holds, State.changeEntry_holds]

@[simp] theorem execSpawn_canonical {s : State} (h : s.Canonical) (f : Fields) : Out.Canonical (execSpawn f s) := by
  refine State.issue_canonical h _ _ ?_
  grind [Res.Holds, Halt.Canonical, After.state, State.canonical_def, State.src_holds, State.drew_mem, State.countWords_mem,
    State.modCore_mem, State.taskHead_mem, State.dstP_mem, Halt.field]

/-! ### Engine instructions -/

theorem commandBody_holds {s : State} (h : s.Canonical) (op n : Nat) (f : Fields) :
    Res.Holds (fun a => a.state.Canonical) (commandBody op n f s) := by
  grind [commandBody, Res.Holds, State.checkCommand_holds, seqOf_holds, State.issueCommand_holds]

@[simp] theorem execRotate_canonical {s : State} (h : s.Canonical) (f : Fields) : Out.Canonical (execRotate f s) := by
  refine State.issue_canonical h _ _ ?_
  grind [Res.Holds, State.checkCommand_holds, seqOf_holds, State.issueRotate_holds]

@[simp] theorem execJob_canonical {s : State} (h : s.Canonical) (f : Fields) : Out.Canonical (execJob f s) := by
  refine State.issue_canonical h _ _ ?_
  grind [Res.Holds, Halt.Canonical, After.state, State.canonical_def, State.reach_holds, State.src_holds, State.modMe_mem, Halt.field]

@[simp] theorem execEmsg_canonical {s : State} (h : s.Canonical) (f : Fields) : Out.Canonical (execEmsg f s) := by
  refine State.issue_canonical h _ _ ?_
  grind [seqOf_holds, State.sendCommand_holds]

@[simp] theorem execMpath_canonical {s : State} (h : s.Canonical) (f : Fields) : Out.Canonical (execMpath f s) := by
  refine State.issue_canonical h _ _ ?_
  grind [Res.Holds, Halt.Canonical, seqOf_holds, State.dst_holds, State.checkReach_holds, pathSearch_holds, State.readElement_holds,
    Halt.field]

/-! ### Matrix instructions -/

@[simp] theorem execMlds_canonical {s : State} (h : s.Canonical) (f : Fields) : Out.Canonical (execMlds f s) := by
  refine State.issue_canonical h _ _ <|
    .bind (State.checkPool_holds ..) fun a _ => .bind (State.checkGangSett_holds ..) fun _ _ => .guard trivial <|
    .bind (State.sound_holds ..) fun _ _ => .guard trivial <| .bind (State.checkPool_holds ..) fun _ _ =>
    .choose (.pure trivial) (State.checkPool_holds ..) fun _ _ => .choose (State.checkPool_holds ..) (.pure trivial) fun _ _ =>
      .guard trivial <|
    .bind (State.sound_holds ..) fun _ _ => .bind (State.sound_holds ..) fun _ _ => .bind (State.sound_holds ..) fun _ _ =>
    .guard trivial <| .guard trivial <| .pure (h.of_mem ?_)
  simp [After.state]

@[simp] theorem execMswap_canonical {s : State} (h : s.Canonical) (f : Fields) : Out.Canonical (execMswap f s) :=
  State.issue_canonical h _ _ <| .bind (State.checkGangSett_holds s) fun _ _ => .bind (State.checkMember_holds s) fun _ _ =>
    .pure (h.of_mem (State.joinArray_mem ..))

theorem streamBody_holds {s : State} (h : s.Canonical) (op : Nat) (gathered : Bool) (f : Fields) :
    Res.Holds (fun a => a.state.Canonical) (streamBody op gathered f s) := by
  refine .bind (State.checkPool_holds ..) fun a _ => .bind (State.checkLocal_holds ..) fun _ _ =>
    .bind (State.checkGangSett_holds ..) fun _ _ => .bind (State.checkMember_holds ..) fun _ _ => .guard trivial <|
    .bind (State.sound_holds ..) fun _ _ => .guard trivial <| .bind (State.checkAccRows_holds ..) fun _ _ =>
    .bind (State.checkReaches_holds ..) fun _ _ => .guard trivial <| .pure (h.of_mem ?_)
  simp [After.state]

@[simp] theorem execMacc_canonical {s : State} (h : s.Canonical) (f : Fields) : Out.Canonical (execMacc f s) :=
  State.issue_canonical h _ _ <| .bind (State.src_holds h _) fun ⟨_, _⟩ ht => .guard trivial <|
    .bind (State.checkAccRows_holds ..) fun _ _ => .bind (State.interlock_holds ..) fun _ _ => .pure (ht.of_mem (State.setHere_mem ..))

@[simp] theorem execMcvt_canonical {s : State} (h : s.Canonical) (f : Fields) : Out.Canonical (execMcvt f s) := by
  refine State.issue_canonical h _ _ <| .bind (State.checkLocal_holds ..) fun a _ => .bind (State.checkAccRows_holds ..) fun _ _ =>
    .guard trivial <| .bind (State.sound_holds ..) fun _ _ => .bind (State.interlock_holds ..) fun _ _ => .pure ?_
  exact (State.poke_canonical (h.of_mem (State.rounded_mem ..)) ..).of_mem (State.storeOrder_mem ..)

@[simp] theorem execMrda_canonical {s : State} (h : s.Canonical) (f : Fields) : Out.Canonical (execMrda f s) :=
  State.issue_canonical h _ _ <| .bind (State.checkAccRows_holds ..) fun _ _ => .bind (State.interlock_holds ..) fun _ _ =>
    .pure (h.of_mem (State.dstV_mem ..))

@[simp] theorem execMwra_canonical {s : State} (h : s.Canonical) (f : Fields) : Out.Canonical (execMwra f s) :=
  State.issue_canonical h _ _ <| .bind (State.checkAccRows_holds ..) fun _ _ => .bind (State.interlock_holds ..) fun _ _ =>
    .pure (h.of_mem (State.setAccRow_mem ..))

@[simp] theorem execMstat_canonical {s : State} (h : s.Canonical) (f : Fields) : Out.Canonical (execMstat f s) := by
  refine State.issue_canonical h _ _ ?_
  split
  · exact .bind (State.checkAccRows_holds ..) fun _ _ => .bind (State.interlock_holds ..) fun _ _ => seqOf_holds (State.dst_holds h ..)
  · exact seqOf_holds (State.dst_holds h ..)

/-! ### Settlements -/

theorem State.pursue_canonical {s : State} (h : s.Canonical) (cl : Nat) (r : SettReq) (lent recalls ending : List Sett) :
    (s.pursue cl r lent recalls ending).1.Canonical :=
  State.foldl_fst_canonical _ (State.foldl_canonical _ h fun _ _ ht => State.strip_canonical ht ..) fun _ _ ho =>
    ho.of_mem (State.placeRecall_mem ..)

theorem State.clearOverflow_canonical {s : State} (h : s.Canonical) (cl first n : Nat) : (s.clearOverflow cl first n).Canonical := by
  grind [State.clearOverflow, State.canonical_def, State.foldl_canonical, State.modCluster_mem, State.faultLaunch_canonical,
    State.writeSpill_mem]

theorem State.wipe_canonical {s : State} (h : s.Canonical) (a n : Nat) : (s.wipe a n).Canonical := Mem.canonical_zero h.mem a n

theorem State.grantSett_canonical {s : State} (h : s.Canonical) (c : Nat) (l : Launch) (i : Nat) (e : Word) (first : Nat) :
    (s.grantSett c l i e first).1.Canonical := by
  grind [State.grantSett, State.canonical_def, State.modCluster_mem, State.wipe_canonical, State.clearOverflow_canonical]

/-! ### System instructions -/

@[simp] theorem execSacq_canonical {s : State} (h : s.Canonical) (f : Fields) : Out.Canonical (execSacq f s) := by
  refine State.issue_canonical h _ _ <| .bind (State.src_holds h _) fun ⟨b, t⟩ ht => .guard trivial ?_
  have busy (c : Nat) (who : Option (Nat × Nat × Nat)) : (seqOf ((t.dropRequest c who).dst f.d 0)).Holds fun a => a.state.Canonical :=
    seqOf_holds (State.dst_holds (ht.of_mem (by simp)) ..)
  split
  · exact .error trivial
  · refine .guard trivial <| .guard trivial <| .guard trivial <| .ite (.pure (h.of_mem (by simp [After.state]))) ?_
    split
    · exact seqOf_holds (State.dst_holds (State.grantSett_canonical (ht.of_mem (by simp)) ..) ..)
    · exact .pure (h.of_mem (by simp [After.state]))
    · exact .ite (busy _ _) (.pure (h.of_mem (by simp [After.state])))
    · exact .ite (busy _ _) (.pure ((State.pursue_canonical h ..).of_mem (by simp [After.state]; rfl)))

@[simp] theorem execSrel_canonical {s : State} (h : s.Canonical) (f : Fields) : Out.Canonical (execSrel f s) :=
  State.issue_canonical h _ _ <| .bind (State.src_holds h _) fun ⟨_, _⟩ ht => .bind (State.handleSett_holds ..) fun _ _ =>
    .guard trivial <| .guard trivial <| .pure (ht.of_mem (State.settGone_mem ..))

@[simp] theorem execSshrink_canonical {s : State} (h : s.Canonical) (f : Fields) : Out.Canonical (execSshrink f s) := by
  refine State.issue_canonical h _ _ <| .bind (State.src_holds h _) fun ⟨x, t⟩ ht => .bind (State.src_holds ht _) fun ⟨b, u⟩ hu =>
    .bind (State.handleSett_holds ..) fun y _ => .guard trivial <| .guard trivial <| .ite (.pure ?_) (.pure ?_)
  · exact hu.of_mem (by simp [After.state])
  · exact hu.of_mem (State.settShrink_mem ..)

@[simp] theorem execSurr_canonical {s : State} (h : s.Canonical) (f : Fields) : Out.Canonical (execSurr f s) := by
  refine State.issue_canonical h _ _ <| .bind (State.src_holds h _) fun ⟨x, t⟩ ht => .bind (State.src_holds ht _) fun ⟨b, u⟩ hu =>
    .bind (State.handleSett_holds ..) fun y _ => .guard trivial <| .guard trivial <| .pure ?_
  exact hu.of_mem (State.modSett_mem ..)

@[simp] theorem execSverd_canonical {s : State} (h : s.Canonical) (f : Fields) : Out.Canonical (execSverd f s) := by
  refine State.issue_canonical h _ _ <| .choose (State.src_holds h _) (.pure h) fun ⟨_, _⟩ ht =>
    .guard trivial <| .guard trivial <| .guard trivial <| .pure (State.endFiring_canonical (ht.of_mem ?_) ..)
  split
  · simp
  · rfl

@[simp] theorem execSqry_canonical {s : State} (h : s.Canonical) (f : Fields) : Out.Canonical (execSqry f s) :=
  State.issue_canonical h _ _ <| .bind (State.src_holds h _) fun ⟨_, _⟩ ht => .bind (State.handleSett_holds ..) fun _ _ =>
    seqOf_holds (State.dst_holds ht ..)

@[simp] theorem execEstset_canonical {s : State} (h : s.Canonical) (f : Fields) : Out.Canonical (execEstset f s) :=
  State.issue_canonical h _ _ <| .bind (State.src_holds h _) fun ⟨_, _⟩ ht => .guard trivial <|
    .ite (.pure ht) (.pure (ht.of_mem ((State.post_mem ..).trans (State.modLaunch_mem ..))))

@[simp] theorem execCommit_canonical {s : State} (h : s.Canonical) (f : Fields) : Out.Canonical (execCommit f s) :=
  State.issue_canonical h _ _ <| .bind (State.src_holds h _) fun ⟨_, _⟩ ht =>
    .choose (.pure ht) (State.src_holds ht _) fun ⟨_, _⟩ hu => .guard trivial <| .guard trivial <|
    .ite (.pure (hu.of_mem (State.demote_mem ..))) (.pure (hu.of_mem ((State.demote_mem ..).trans (State.modLaunch_mem ..))))

@[simp] theorem execWuend_canonical {s : State} (h : s.Canonical) (f : Fields) : Out.Canonical (execWuend f s) := by
  refine State.issue_canonical h _ _ ?_
  grind [Res.Holds, After.state, State.canonical_def, State.retire_mem, State.endFiring_canonical, State.endWrapup_canonical]

theorem State.landWords_canonical {s : State} (h : s.Canonical) (place : Nat → Option Nat) (i : Nat) (xs : List Word) :
    (s.landWords place i xs).Canonical := by
  induction xs generalizing s i with
  | nil => exact h
  | cons x xs ih => grind [State.landWords, State.land_canonical]

theorem State.publish_canonical {s t : State} (h : s.Canonical) {fn m : Nat} {msg : List Word} {prio : Nat}
    (e : s.publish fn m msg prio = some t) : t.Canonical := by
  unfold State.publish at e
  grind [State.canonical_def, State.land_canonical, State.landWords_canonical, State.raiseTail_mem]

@[simp] theorem execLaunch_canonical {s : State} (h : s.Canonical) (f : Fields) : Out.Canonical (execLaunch f s) := by
  refine State.issue_canonical h _ _ <|
    .bind (State.reachAfter_holds _ _ _ _ (State.srcReady_holds ..)) fun _ _ => .bind (State.src_holds h _) fun ⟨b, t⟩ ht => ?_
  dsimp only
  split
  · exact .error trivial
  · refine .guard trivial <| .guard trivial ?_
    split
    · exact .error trivial
    · split
      next e => exact .pure ((State.publish_canonical ht e).of_mem (by simp [After.state]))
      · exact .pure (ht.of_mem (by simp [After.state]))

/-! ### Privileged instructions -/

@[simp] theorem execMovsw_canonical {s : State} (h : s.Canonical) (f : Fields) : Out.Canonical (execMovsw f s) := by
  refine State.issue_canonical h _ _ ?_
  split
  · exact .bind (State.src_holds h _) fun ⟨_, _⟩ ht => .guard trivial (.pure (ht.of_mem (State.setHere_mem ..)))
  · exact seqOf_holds (State.dst_holds h ..)
  · exact .ok h

@[simp] theorem execRft_canonical {s : State} (h : s.Canonical) (f : Fields) : Out.Canonical (execRft f s) := by
  refine State.issue_canonical h _ _ ?_
  grind [Res.Holds, After.state, State.canonical_def, State.leaveTrap_mem, State.retire_mem, State.endFiring_canonical]

theorem frameBody_holds {s : State} (h : s.Canonical) (op : Nat) (want : SlotSt) (f : Fields) :
    Res.Holds (fun a => a.state.Canonical) (frameBody op want f s) :=
  .bind (State.checkCommand_holds ..) fun _ _ => .guard trivial (seqOf_holds (State.issueCommand_holds h ..))

@[simp] theorem execNiinv_canonical {s : State} (h : s.Canonical) (f : Fields) : Out.Canonical (execNiinv f s) :=
  State.issue_canonical h _ _ <| .bind (State.src_holds h _) fun ⟨_, _⟩ ht => .bind (State.src_holds ht _) fun ⟨_, _⟩ hu =>
    .guard trivial <| .guard trivial <| .pure (hu.of_mem (State.setHere_mem ..))

@[simp] theorem execNisync_canonical {s : State} (h : s.Canonical) (f : Fields) : Out.Canonical (execNisync f s) := by
  refine State.issue_canonical h _ _ ?_
  grind [Res.Holds, Halt.Canonical, After.state]

@[simp] theorem execJrnl_canonical {s : State} (h : s.Canonical) (f : Fields) : Out.Canonical (execJrnl f s) := by
  refine State.issue_canonical h _ _ <| .bind (State.src_holds h _) fun ⟨_, _⟩ ht => .guard trivial ?_
  split
  · exact .pure (ht.of_mem (State.dstV_mem ..))
  · exact seqOf_holds (State.dst_holds ht ..)
  · exact seqOf_holds (State.dst_holds ht ..)

@[simp] theorem execEvpost_canonical {s : State} (h : s.Canonical) (f : Fields) : Out.Canonical (execEvpost f s) :=
  State.issue_canonical h _ _ <| .bind (State.src_holds h _) fun ⟨_, _⟩ ht => .guard trivial <|
    .pure ((State.postEvent_canonical ht ..).of_mem (State.dstP_mem ..))

@[simp] theorem execPerf_canonical {s : State} (h : s.Canonical) (f : Fields) : Out.Canonical (execPerf f s) :=
  State.issue_canonical h _ _ <| .bind (State.src_holds h _) fun ⟨_, _⟩ ht =>
    .ite (.guard trivial (.pure (ht.of_mem (State.setHere_mem ..)))) (.guard trivial (seqOf_holds (State.dst_holds ht ..)))

@[simp] theorem execIdle_canonical {s : State} (h : s.Canonical) (f : Fields) : Out.Canonical (execIdle f s) := by
  refine State.issue_canonical h _ _ ?_
  grind [Res.Holds, Halt.Canonical]

theorem State.putBytes_canonical {s : State} (h : s.Canonical) (t : Nat) (a : Word) (m : Mem) (n : Nat) :
    (s.putBytes t a m n).Canonical := by
  grind [State.putBytes, State.putWords_canonical]

@[simp] theorem execSpillni_canonical {s : State} (h : s.Canonical) (f : Fields) : Out.Canonical (execSpillni f s) :=
  State.issue_canonical h _ _ <| .bind (State.src_holds h _) fun ⟨_, _⟩ ht => .guard trivial <| .guard trivial <| .guard trivial <|
    seqOf_holds (State.dst_holds (State.putBytes_canonical ht ..) ..)

/-! ### Firings and stalls -/

theorem State.startWalker_canonical {s : State} (h : s.Canonical) (c n : Nat) (y : WarrenEntry) : (s.startWalker c n y).Canonical := by
  grind [State.startWalker, State.canonical_def, State.foldl_canonical, State.modCluster_mem, State.place'_mem, State.modCore_mem,
    State.walkerArrives_canonical, State.overflowReturn_mem]

@[simp] theorem execFiringStart_canonical {s : State} (h : s.Canonical) (c : Nat) : Out.Canonical (execFiringStart c s) := by
  grind [execFiringStart, Out.Canonical, State.canonical_def, State.passOver_mem, State.startPending_mem, State.startWalker_canonical,
    State.post_mem]

@[simp] theorem execBucketRecompute_canonical {s : State} (h : s.Canonical) (c : Nat) : Out.Canonical (execBucketRecompute c s) := by
  grind [execBucketRecompute, Out.Canonical, State.canonical_def, State.modCore_mem, State.timerNs_mem]

@[simp] theorem execEstimateArrival_canonical {s : State} (h : s.Canonical) (l : Nat) : Out.Canonical (execEstimateArrival l s) := by
  grind [execEstimateArrival, Out.Canonical, State.canonical_def, State.foldl_canonical, State.setLaunch_mem, State.post_mem,
    State.modCore_mem]

@[simp] theorem execStallResume_canonical {s : State} (h : s.Canonical) (c n : Nat) : Out.Canonical (execStallResume c n s) := by
  unfold execStallResume
  dsimp only
  split
  · exact h.of_mem (by simp)
  · exact h

theorem State.within_canonical {s : State} (h : s.Canonical) (c n : Nat) {f : State → State}
    (hf : ∀ t, t.Canonical → (f t).Canonical) : (s.within c n f).Canonical := by
  have ran : (f { s with cur := c, curSlot := n }).Canonical := hf _ h
  simpa [State.canonical_def, State.within] using ran

theorem nextOr_canonical {s : State} (h : s.Canonical) {o : Out} (ho : Out.Canonical o) : (nextOr s o).Canonical := by
  cases o with
  | next t => exact ho
  | _ => exact h

theorem State.runWaiting_canonical {s : State} (h : s.Canonical) (c n : Nat) : (s.runWaiting c n).Canonical := by
  have resumed : (s.modSlot c n (fun x => { x with st := .running, stall := none })).Canonical := h
  unfold State.runWaiting
  grind [State.within_canonical, nextOr_canonical, execLdfe_canonical, execLdff_canonical, execStef_canonical, execWaitb_canonical]

@[simp] theorem execFullEmptyGrant_canonical {s : State} (h : s.Canonical) (cl a : Nat) : Out.Canonical (execFullEmptyGrant cl a s) := by
  grind [execFullEmptyGrant, Out.Canonical, State.canonical_def, State.runWaiting_canonical, State.post_mem]

@[simp] theorem execAsyncTrapDelivery_canonical {s : State} (h : s.Canonical) (c : Nat) : Out.Canonical (execAsyncTrapDelivery c s) := by
  grind [execAsyncTrapDelivery, Out.Canonical, State.canonical_def, State.modCore_mem, State.post_mem, State.addPending_mem,
    State.faultLaunch_canonical]

@[simp] theorem execIllegalInstruction_canonical {s : State} (h : s.Canonical) (x : IllegalFetch) :
    Out.Canonical (execIllegalInstruction x s) := by
  cases x with
  | reserved op f =>
    exact (State.issue_canonical h _ f (.error trivial) : Out.Canonical (s.issue op.toNat f fun _ => .error (.illegal op.toNat)))
  | pastEnd =>
    refine State.takeExact_canonical ?_ ..
    exact h.of_mem (by simp)

/-! ### Gangs, array operations and rotations -/

@[simp] theorem execGangFormation_canonical {s : State} (h : s.Canonical) (cl : Nat) : Out.Canonical (execGangFormation cl s) := by
  grind [execGangFormation, Out.Canonical, State.canonical_def, State.foldl_canonical, State.joinGang_mem, State.modCluster_mem]

theorem State.failGang_canonical {s : State} (h : s.Canonical) (ps : List ArrayPart) (rs : List RotPart) :
    (s.failGang ps rs).Canonical := by
  grind [State.failGang, State.canonical_def, State.foldl_canonical, State.arrivePart_canonical, State.post_mem, State.endJob_canonical]

theorem State.formGang_canonical {s : State} (h : s.Canonical) (cl : Nat) : (s.formGang cl).Canonical := by
  grind [State.formGang, State.canonical_def, State.modCluster_mem, State.post_mem, State.failGang_canonical, State.postArray_mem]

@[simp] theorem execArrayOperationForm_canonical {s : State} (h : s.Canonical) (cl : Nat) :
    Out.Canonical (execArrayOperationForm cl s) := by
  grind [execArrayOperationForm, Out.Canonical, State.formGang_canonical]

theorem State.meetRanges_canonical {s : State} (h : s.Canonical) (l c : Nat) (rs : List (Nat × Nat)) :
    (s.meetRanges l c rs).Canonical := by
  grind [State.meetRanges, State.faultLaunch_canonical, State.tellBad_canonical]

theorem State.rotate_canonical {s : State} (h : s.Canonical) (rs : List RotPart) : (s.rotate rs).Canonical := by
  refine State.foldl_canonical _ (State.foldl_canonical _ h fun t r ht => ?_) fun t r ht => ?_
  · split
    · exact State.land_canonical ht ..
    · exact ht
  · split
    · exact State.meetRanges_canonical (State.endJob_canonical ht ..) ..
    · exact ht

@[simp] theorem execRotationRun_canonical {s : State} (h : s.Canonical) (cl : Nat) : Out.Canonical (execRotationRun cl s) := by
  grind [execRotationRun, Out.Canonical, State.canonical_def, State.formGang_canonical, State.modCluster_mem, State.rotate_canonical]

@[simp] theorem execMswapApply_canonical {s : State} (h : s.Canonical) (cl : Nat) : Out.Canonical (execMswapApply cl s) := by
  grind [execMswapApply, Out.Canonical, State.canonical_def, State.modCluster_mem, State.postArray_mem]

@[simp] theorem execArrayOperationComplete_canonical {s : State} (h : s.Canonical) (cl n : Nat) :
    Out.Canonical (execArrayOperationComplete cl n s) := by
  grind [execArrayOperationComplete, Out.Canonical, State.canonical_def, State.streamAll_mem, State.arrivePart_canonical,
    State.modCluster_mem, State.post_mem, State.meetRanges_canonical, State.postArray_mem]

theorem State.quietWait_canonical {s : State} (h : s.Canonical) (c n : Nat) : (s.quietWait c n).Canonical := by
  grind [State.quietWait, State.canonical_def, State.pokeWord_canonical, State.acquireShort_mem, State.modSlot_mem]

@[simp] theorem execWrapupQuietPoint_canonical {s : State} (h : s.Canonical) (l : Nat) : Out.Canonical (execWrapupQuietPoint l s) := by
  grind [execWrapupQuietPoint, Out.Canonical, State.canonical_def, State.runWaiting_canonical, State.post_mem]

/-! ### Words on their way -/

theorem State.accept_canonical {s t : State} (h : s.Canonical) {w : OutWord} (e : s.accept w = some t) : t.Canonical := by
  unfold State.accept at e
  grind [State.canonical_def, State.modSavedCore_mem, State.writeChannel_canonical, State.countWords_mem, State.freedWord_mem,
    State.modCore_mem, State.evalRules_mem]

@[simp] theorem execChannelWordArrival_canonical {s : State} (h : s.Canonical) (c net : Nat) :
    Out.Canonical (execChannelWordArrival c net s) := by
  have arrived {t u : State} {w : OutWord} (ht : t.mem = s.mem) (e : t.accept w = some u) : u.Canonical :=
    State.accept_canonical (h.of_mem ht) e
  unfold execChannelWordArrival
  split
  · split
    · exact h
    · refine .ite (.of_mem (.ite (h.of_mem (by simp)) ?_) (State.post_mem ..)) (.ite (h.of_mem (by simp)) ?_)
      · split
        next e => exact arrived (by simp) e
        · exact h.of_mem (by simp)
      · split
        next e => exact arrived (by simp) e
        · exact h.of_mem (by simp)
  · exact h

@[simp] theorem execWordReoffer_canonical {s : State} (h : s.Canonical) (c net : Nat) : Out.Canonical (execWordReoffer c net s) := by
  have arrived {t u : State} {w : OutWord} (ht : t.mem = s.mem) (e : t.accept w = some u) : u.Canonical :=
    State.accept_canonical (h.of_mem ht) e
  unfold execWordReoffer
  dsimp only
  split
  next t e =>
    obtain ⟨w, -, hw⟩ := List.exists_of_findSome?_eq_some e
    have ht : t.Canonical := by
      split at hw
      · obtain rfl := Option.some.inj hw
        exact h.of_mem (by simp)
      · exact arrived (State.modCore_mem ..) hw
    exact ht.of_mem (by simp)
  · exact h

@[simp] theorem execFreeSlotReturn_canonical {s : State} (h : s.Canonical) (c ch : Nat) : Out.Canonical (execFreeSlotReturn c ch s) := by
  grind [execFreeSlotReturn, Out.Canonical, State.canonical_def, State.modCore_mem, State.giveMirror_mem, State.evalRules_mem]

@[simp] theorem execRingWordArrival_canonical {s : State} (h : s.Canonical) (c : Nat) : Out.Canonical (execRingWordArrival c s) := by
  grind [execRingWordArrival, Out.Canonical, State.canonical_def, State.modCore_mem, State.ringArrives_mem, State.post_mem]

theorem State.sendWalker_canonical {s : State} (h : s.Canonical) (w : Walker) : (s.sendWalker w).Canonical := by
  grind [State.sendWalker, State.canonical_def, State.walkerArrives_canonical, State.modSavedCluster_mem, State.faultLaunch_canonical,
    State.spillJob_mem]

@[simp] theorem execWalkerMessageArrival_canonical {s : State} (h : s.Canonical) (c : Nat) :
    Out.Canonical (execWalkerMessageArrival c s) := by
  grind [execWalkerMessageArrival, Out.Canonical, State.canonical_def, State.drew_mem, State.modCore_mem, State.sendWalker_canonical,
    State.post_mem]

@[simp] theorem execHoldReached_canonical {s : State} (h : s.Canonical) (cl e : Nat) : Out.Canonical (execHoldReached cl e s) := by
  grind [execHoldReached, Out.Canonical, State.canonical_def, State.modCluster_mem, State.post_mem]

/-! ### Jobs without a command -/

theorem State.completionEvent_canonical {s : State} (h : s.Canonical) (r : RecInfo) (lost : Bool) :
    (s.completionEvent r lost).Canonical := by
  grind [State.completionEvent, State.postEvent_canonical]

theorem State.endUnplaced_canonical {s : State} (h : s.Canonical) (m : Queued) (status cls : Nat) (q : Option Nat) :
    (s.endUnplaced m status cls q).Canonical := by
  grind [State.endUnplaced, State.canonical_def, State.completionEvent_canonical, State.queueAdvance_mem, State.addRecord_mem]

theorem State.entrySync_canonical {s : State} (h : s.Canonical) (e : Nat) : (s.entrySync e).Canonical := by
  grind [State.entrySync, State.poke_canonical]

theorem State.entrySync?_canonical {s : State} (h : s.Canonical) (e : Option Nat) : (s.entrySync? e).Canonical := by
  unfold State.entrySync?
  grind [State.entrySync_canonical]

theorem State.finishLaunch_canonical {s : State} (h : s.Canonical) (r : RecInfo) (lost : Bool) : (s.finishLaunch r lost).Canonical := by
  grind [State.finishLaunch, State.canonical_def, State.foldl_mem, State.withdraw_mem, State.onContext_canonical, State.settGone_mem,
    State.modCore_mem, State.timerNs_mem, State.entrySync?_canonical, State.completionEvent_canonical, State.queueAdvance_mem,
    State.retryPlacements_mem, State.post_mem]

theorem State.recordDone_canonical {s : State} (h : s.Canonical) (j : Job) (lost : Bool) : (s.recordDone j lost).Canonical := by
  grind [State.recordDone, State.canonical_def, State.dropJob_mem, State.post_mem, State.finishLaunch_canonical,
    State.completionEvent_canonical, State.queueAdvance_mem]

theorem State.cancelLive_canonical {s : State} (h : s.Canonical) (l : Launch) : (s.cancelLive l).Canonical := by
  grind [State.cancelLive, State.canonical_def, State.modLaunch_mem, State.post_mem, State.endLaunch_canonical]

theorem State.cancel_canonical {s : State} (h : s.Canonical) (fn m seq : Nat) : (s.cancel fn m seq).Canonical := by
  grind [State.cancel, State.canonical_def, State.cancelLive_canonical, State.setQueue_mem, State.endUnplaced_canonical, State.setJob_mem]

theorem State.mailboxWrite_canonical {s : State} (h : s.Canonical) (fn off : Nat) (x : Word) : (s.mailboxWrite fn off x).Canonical := by
  grind [State.mailboxWrite, State.canonical_def, State.raiseTail_mem, State.cancel_canonical]

/-! ### Parts of a job's piece -/

/-- P holds of what a part of a piece gives, where it gives something. -/
def Piecewise.Holds {α : Type} (P : α → Prop) : Piecewise α → Prop
  | .ok a => P a
  | .error _ => True

theorem Piecewise.Holds.bind {α β : Type} {P : α → Prop} {Q : β → Prop} {x : Piecewise α} {k : α → Piecewise β}
    (hx : x.Holds P) (hk : ∀ a, P a → (k a).Holds Q) : Piecewise.Holds Q (x >>= k) := by
  cases x with
  | error e => trivial
  | ok a => exact hk a hx

/-- Nothing is asked of a value that is only read. -/
theorem Piecewise.holds_true {α : Type} (x : Piecewise α) : x.Holds fun _ => True := by cases x <;> trivial

theorem Piecewise.Holds.pure {α : Type} {P : α → Prop} {a : α} (h : P a) : Piecewise.Holds P (Pure.pure a) := h

theorem Piecewise.Holds.ite {α : Type} {P : α → Prop} {c : Prop} [Decidable c] {x y : Piecewise α} (hx : x.Holds P) (hy : y.Holds P) :
    Piecewise.Holds P (if c then x else y) := by
  split <;> assumption

/-- Two ways to a value that is only read, and one continuation. -/
theorem Piecewise.Holds.choose {α β : Type} {Q : β → Prop} {c : Prop} [Decidable c] {x y : Piecewise α} {k : α → Piecewise β}
    (hk : ∀ a, (k a).Holds Q) : Piecewise.Holds Q (if c then x >>= k else y >>= k) :=
  .ite (.bind (holds_true _) fun a _ => hk a) (.bind (holds_true _) fun a _ => hk a)

/-- A value that is only read. -/
theorem Piecewise.Holds.read {α β : Type} {Q : β → Prop} {x : Piecewise α} {k : α → Piecewise β} (hk : ∀ a, (k a).Holds Q) :
    Piecewise.Holds Q (x >>= k) := .bind (holds_true _) fun a _ => hk a

/-! ### Jobs and their pieces -/

theorem State.putWord_holds {s : State} (h : s.Canonical) (j : Job) (i : Nat) (addr : Word) (n x : Nat) :
    (s.putWord j i addr n x).Holds State.Canonical := by
  refine .bind (Piecewise.holds_true _) fun _ _ => ?_
  grind [Piecewise.Holds, State.canonical_def, State.used_mem, State.land_canonical, State.landAt_canonical, State.beforeWrite_mem,
    State.giveLaunch_mem, State.mailboxWrite_canonical]

theorem State.put_holds {s : State} (h : s.Canonical) (j : Job) (i k : Nat) (addr : Word) (n x : Nat) :
    (s.put j i k addr n x).Holds State.Canonical := by
  induction k generalizing s addr n x with
  | zero => exact h
  | succ k ih =>
    unfold State.put
    split
    · exact h
    · exact .bind (State.putWord_holds h ..) fun t ht => ih ht ..

theorem State.write_holds {s : State} (h : s.Canonical) (j : Job) (i : Nat) (addr : Word) (n x : Nat) :
    (s.write j i addr n x).Holds State.Canonical :=
  State.put_holds h ..

theorem State.transferPiece_holds {s : State} (h : s.Canonical) (j : Job) (i : Nat) :
    (s.transferPiece j i).Holds fun r => r.s.Canonical := by
  have read (lo n : Nat) : State.Canonical (if j.journal.isSome then s else s.sourceRead j (rw j.run 1) lo n) := h.of_mem (by simp)
  exact .choose fun x => .bind (State.write_holds (read _ _) ..) fun t ht => .pure ht

theorem State.rowPiece_holds {s : State} (h : s.Canonical) (j : Job) (i : Nat) : (s.rowPiece j i).Holds fun r => r.s.Canonical :=
  .read fun x => .bind (State.write_holds (h.of_mem (by simp)) ..) fun t ht => .pure ht

theorem State.listPiece_holds {s : State} (h : s.Canonical) (j : Job) (i : Nat) : (s.listPiece j i).Holds fun r => r.s.Canonical := by
  have read (a : Word) (n : Nat) {t : State} (ht : t.Canonical) : (t.didRead j a n).Canonical := ht.of_mem (by simp)
  exact .read fun idx => .ite (.pure (read _ _ h)) <| .ite (.pure (read _ _ h)) <| .ite trivial <|
    .read fun x => .bind (State.write_holds (read _ _ (read _ _ h)) ..) fun t ht => .pure ht

theorem State.atomic_holds {s : State} (h : s.Canonical) (j : Job) (addr : Word) (wide : Bool) (op : Nat) (b b2 c c2 : Word) :
    (s.atomic j addr wide op b b2 c c2).Holds fun r => r.1.Canonical := by
  refine .bind (Piecewise.holds_true _) fun _ _ => ?_
  grind [Piecewise.Holds, State.canonical_def, State.used_mem, State.landAt_canonical, State.foldl_mem, State.addSync_mem,
    State.keepOld_mem, State.gotFrom_mem]

theorem State.amoPiece_holds {s : State} (h : s.Canonical) (j : Job) : (s.amoPiece j).Holds fun r => r.s.Canonical :=
  .ite trivial <| .bind (State.atomic_holds h ..) fun _ hr => .ite (.bind (State.write_holds hr ..) fun _ ht => .pure ht) (.pure hr)

theorem State.amoxPiece_holds {s : State} (h : s.Canonical) (j : Job) (i : Nat) : (s.amoxPiece j i).Holds fun r => r.s.Canonical := by
  have read (a : Word) (n : Nat) {t : State} (ht : t.Canonical) : (t.didRead j a n).Canonical := ht.of_mem (by simp)
  exact .read fun idx => .ite (.pure (read _ _ h)) <| .ite (.pure (read _ _ h)) <| .ite trivial <|
    .choose fun b => .bind (State.atomic_holds (.ite (read _ _ (read _ _ h)) (read _ _ h)) ..) fun r hr => .pure hr

theorem State.qstPiece_holds {s : State} (h : s.Canonical) (j : Job) (i : Nat) : (s.qstPiece j i).Holds fun r => r.s.Canonical := by
  unfold State.qstPiece
  split
  · trivial
  · exact .ite trivial <| .read fun _ => .pure (State.landAt_canonical h ..)

theorem State.csavePiece_holds {s : State} (h : s.Canonical) (j : Job) (i : Nat) : (s.csavePiece j i).Holds fun r => r.s.Canonical :=
  .bind (State.write_holds h ..) fun _ ht => .pure ht

theorem State.crestPiece_holds {s : State} (h : s.Canonical) (j : Job) (i : Nat) : (s.crestPiece j i).Holds fun r => r.s.Canonical :=
  .read fun x => .pure (h.of_mem (by simp))

theorem State.waitAbsent_canonical {s : State} (h : s.Canonical) (j : Job) (stage rec kind : Nat) :
    (s.waitAbsent j stage rec kind).Canonical := by
  grind [State.waitAbsent, State.canonical_def, State.postFault_canonical, State.setJob_mem]

theorem State.waitHost_canonical {s : State} (h : s.Canonical) (j : Job) (addr : Word) : (s.waitHost j addr).Canonical := by
  grind [State.waitHost, State.canonical_def, State.setJob_mem, State.postEvent_canonical]

theorem State.finishJob_canonical {s : State} (h : s.Canonical) (j : Job) : (s.finishJob j).Canonical := by
  grind [State.finishJob, State.canonical_def, State.modCore_mem, State.raise_mem, State.endJob_canonical]

theorem State.restoreFrame_canonical {s : State} (h : s.Canonical) (j : Job) : (s.restoreFrame j).Canonical := by
  grind [State.restoreFrame, State.canonical_def, State.finishJob_canonical, State.setSlot_mem]

theorem State.jobDone_canonical {s : State} (h : s.Canonical) (j : Job) : (s.jobDone j).Canonical := by
  grind [State.jobDone, State.canonical_def, State.restoreFrame_canonical, State.finishJob_canonical, State.setJob_mem]

theorem State.advance_canonical {s : State} (h : s.Canonical) (j : Job) (n : Nat) : (s.advance j n).Canonical := by
  grind [State.advance, State.canonical_def, State.chargeReply_mem, State.arriveFor_canonical, State.setJob_mem, State.post_mem,
    State.jobDone_canonical]

theorem State.qstRefused_canonical {s : State} (h : s.Canonical) (j : Job) : (s.qstRefused j).Canonical := by
  grind [State.qstRefused, State.canonical_def, State.raise_mem, State.arriveFor_canonical, State.setJob_mem, State.post_mem,
    State.endJob_canonical]

theorem State.jobBad_canonical {s : State} (h : s.Canonical) (j : Job) (a : Nat) (addr : Word) : (s.jobBad j a addr).Canonical := by
  grind [State.jobBad, State.canonical_def, State.finishJob_canonical, State.setJob_mem, State.faultLaunch_canonical,
    State.tellBad_canonical]

theorem State.afterStop_canonical {s : State} (h : s.Canonical) (j : Job) (x : Stop) : (s.afterStop j x).Canonical := by
  unfold State.afterStop
  grind [State.waitAbsent_canonical, State.waitHost_canonical, State.qstRefused_canonical, State.advance_canonical,
    State.jobDone_canonical, State.jobBad_canonical]

theorem State.xsendPiece_holds {s : State} (h : s.Canonical) (j : Job) (i : Nat) : (s.xsendPiece j i).Holds fun r => r.s.Canonical :=
  .read fun x => .pure (h.of_mem (by simp))

theorem State.xgetPiece_holds {s : State} (h : s.Canonical) (j : Job) (i : Nat) : (s.xgetPiece j i).Holds fun r => r.s.Canonical := by
  grind [State.xgetPiece, Piecewise.Holds, State.canonical_def, State.sendPacket_mem]

theorem State.piece_holds {s : State} (h : s.Canonical) (j : Job) : (s.piece j).Holds fun r => r.s.Canonical := by
  grind [State.piece, Piecewise.Holds, State.transferPiece_holds, State.rowPiece_holds, State.listPiece_holds, State.amoPiece_holds,
    State.amoxPiece_holds, State.xsendPiece_holds, State.xgetPiece_holds, State.qstPiece_holds, State.csavePiece_holds,
    State.crestPiece_holds]

theorem State.startJobAt_canonical {s : State} (h : s.Canonical) (j : Job) : (s.startJobAt j).Canonical := by
  grind [State.startJobAt, State.canonical_def, State.charge_mem, State.jobDone_canonical, State.finishJob_canonical, State.setJob_mem,
    State.postLists_mem, State.post_mem]

theorem State.landBlock_canonical {s : State} (h : s.Canonical) (a n : Nat) (m : Mem) (off : Nat) : (s.landBlock a n m off).Canonical :=
  Mem.canonical_overlay (Mem.canonical_zero h.mem a n) _

theorem State.blockPiece_holds {s : State} (h : s.Canonical) (j : Job) (n : Nat) (m : Mem) (off : Nat) :
    (s.blockPiece j n m off).Holds State.Canonical := by
  grind [State.blockPiece, Piecewise.Holds, State.canonical_def, State.used_mem, State.landBlock_canonical]

theorem State.evictDone_canonical {s : State} (h : s.Canonical) (j : Job) : (s.evictDone j).Canonical := by
  grind [State.evictDone, State.canonical_def, State.dropJob_mem, State.modCluster_mem, State.settGone_mem, State.released_mem,
    State.modSett_mem, State.settOutcome_mem, State.dropRecalls_mem, State.postEvent_canonical, State.post_mem]

theorem State.evictStepHere_canonical {s : State} (h : s.Canonical) (j : Job) : (s.evictStepHere j).Canonical := by
  grind [State.evictStepHere, Piecewise.Holds, State.canonical_def, State.evictDone_canonical, State.blockPiece_holds, State.setJob_mem,
    State.post_mem, State.waitAbsent_canonical, State.waitHost_canonical]

theorem State.evictStep_canonical {s : State} (h : s.Canonical) (j : Job) : (s.evictStep j).Canonical := by
  grind [State.evictStep, State.onContext_canonical, State.evictStepHere_canonical]

theorem State.imageStep_canonical {s : State} (h : s.Canonical) (j : Job) : (s.imageStep j).Canonical := by
  grind [State.imageStep, Piecewise.Holds, State.canonical_def, State.dropJob_mem, State.post_mem, State.blockPiece_holds,
    State.setJob_mem, State.waitAbsent_canonical, State.waitHost_canonical]

theorem State.recordStep_canonical {s : State} (h : s.Canonical) (j : Job) : (s.recordStep j).Canonical := by
  grind [State.recordStep, State.canonical_def, State.foldl_canonical, State.keepOld_mem, State.land_canonical, State.setSyncs_mem,
    State.setSync_mem, State.used_mem, State.recordDone_canonical, State.waitAbsent_canonical, State.waitHost_canonical]

theorem State.spillStep_canonical {s : State} (h : s.Canonical) (j : Job) : (s.spillStep j).Canonical := by
  grind [State.spillStep, State.canonical_def, State.dropJob_mem, State.landBlock_canonical, State.setJob_mem, State.used_mem,
    State.post_mem, State.waitHost_canonical, State.waitAbsent_canonical]

theorem State.returnStep_canonical {s : State} (h : s.Canonical) (j : Job) : (s.returnStep j).Canonical := by
  grind [State.returnStep, State.canonical_def, State.waitAbsent_canonical, State.returnsDue_mem, State.dropJob_mem, State.used_mem]

theorem State.messageLanded_canonical {s : State} (h : s.Canonical) (b : Job) (n : Nat) (refused : Bool) :
    (s.messageLanded b n refused).Canonical := by
  grind [State.messageLanded, State.canonical_def, State.chargeReply_mem, State.finishJob_canonical, State.setJob_mem,
    State.arriveFor_canonical]

theorem State.arriveRemote_canonical {s : State} (h : s.Canonical) (t : Nat) (bar : Word) (n : Nat) (l : Seen) :
    (s.arriveRemote t bar n l).Canonical := by
  grind [State.arriveRemote, State.canonical_def, State.meets_mem, State.arrive_canonical]

theorem State.placeStep_canonical {s : State} (h : s.Canonical) (j : Job) : (s.placeStep j).Canonical := by
  grind [State.placeStep, Piecewise.Holds, State.canonical_def, State.dropJob_mem, State.answerPacket_mem, State.messageLanded_canonical,
    State.arriveRemote_canonical, State.write_holds, State.waitAbsent_canonical, State.waitHost_canonical, State.jobBad_canonical,
    State.tellBad_canonical]

theorem State.fetchStep_canonical {s : State} (h : s.Canonical) (j : Job) : (s.fetchStep j).Canonical := by
  grind [State.fetchStep, State.canonical_def, State.dropJob_mem, State.usedOver_mem, State.sendPacket_mem, State.waitAbsent_canonical,
    State.waitHost_canonical, State.tellBad_canonical]

theorem State.jobStep_canonical {s : State} (h : s.Canonical) (j : Job) : (s.jobStep j).Canonical := by
  have piece := State.piece_holds h j
  refine .ite h <| .ite (State.evictStep_canonical h _) <| .ite (State.imageStep_canonical h _) <| .ite (State.recordStep_canonical h _) <|
    .ite (h.of_mem (State.post_mem ..)) <| .ite (State.spillStep_canonical h _) <| .ite (State.returnStep_canonical h _) <|
    .ite (State.placeStep_canonical h _) <| .ite (State.fetchStep_canonical h _) <| .ite h <| .ite (State.startJobAt_canonical h _) <|
    .ite (h.of_mem (State.postLists_mem ..)) <| .ite h <| .ite (State.jobDone_canonical h _) <| .ite h ?_
  split
  next r e => exact State.advance_canonical (by simpa [e, Piecewise.Holds] using piece) _ _
  next e => exact State.afterStop_canonical h _ _

@[simp] theorem execJobPieceLand_canonical {s : State} (h : s.Canonical) (j : Nat) : Out.Canonical (execJobPieceLand j s) := by
  grind [execJobPieceLand, Out.Canonical, State.jobStep_canonical]

theorem State.searchList_holds {s : State} (h : s.Canonical) (j : Job) (ch : Nat) : (s.searchList j ch).Holds State.Canonical :=
  .read fun ids => .read fun q => .read fun xs => State.write_holds (h.of_mem (by simp)) ..

theorem State.listLanded_canonical {s : State} (h : s.Canonical) (j : Job) (ch : Nat) (refused : Bool) :
    (s.listLanded j ch refused).Canonical := by
  grind [State.listLanded, State.canonical_def, State.chargeReply_mem, State.jobDone_canonical, State.setJob_mem, State.arriveFor_canonical]

@[simp] theorem execSearchListLand_canonical {s : State} (h : s.Canonical) (j ch : Nat) : Out.Canonical (execSearchListLand j ch s) := by
  grind [execSearchListLand, Piecewise.Holds, Out.Canonical, State.searchList_holds, State.afterStop_canonical, State.listLanded_canonical]

@[simp] theorem execJobRetry_canonical {s : State} (h : s.Canonical) (j : Nat) : Out.Canonical (execJobRetry j s) := by
  grind [execJobRetry, Out.Canonical, State.canonical_def, State.setJob_mem, State.post_mem]

/-! ### Placement and completion -/

theorem State.freshCore_canonical {s : State} (h : s.Canonical) (c key n partw : Nat) (f : Found) :
    (s.freshCore c key n partw f).Canonical := Mem.canonical_writeN (Mem.canonical_zero h.mem _ _) _ _ _

theorem State.freshCluster_canonical {s : State} (h : s.Canonical) (cl key n partw : Nat) (f : Found) :
    (s.freshCluster cl key n partw f).Canonical := by
  unfold State.freshCluster
  refine State.foldl_canonical _ ?_ fun t c ht => State.freshCore_canonical ht ..
  exact Mem.canonical_writeN (Mem.canonical_zero h.mem _ _) _ _ _

theorem State.placeLaunch_canonical {s : State} (h : s.Canonical) (m : Queued) (f : Found) (e : Option Nat) (n area : Nat) :
    (s.placeLaunch m f e n area).Canonical := by
  grind [State.placeLaunch, State.canonical_def, State.foldl_canonical, State.freshCluster_canonical, State.modCore_mem,
    State.setLaunch_mem, State.addRecord_mem, State.startField_mem, State.addPending_mem, State.addJob_mem, State.evalRules_mem,
    State.timerNs_mem, State.post_mem, State.entrySync?_canonical]

@[simp] theorem execPlacement_canonical {s : State} (h : s.Canonical) (q : Nat) : Out.Canonical (execPlacement q s) := by
  grind [execPlacement, Out.Canonical, State.canonical_def, State.leaveQueue_mem, State.endUnplaced_canonical, State.placeLaunch_canonical,
    State.setQueue_mem]

@[simp] theorem execExpiredInQueue_canonical {s : State} (h : s.Canonical) (q : Nat) : Out.Canonical (execExpiredInQueue q s) := by
  grind [execExpiredInQueue, Out.Canonical, State.canonical_def, State.leaveQueue_mem, State.endUnplaced_canonical]

@[simp] theorem execDeadlineBeforePlacement_canonical {s : State} (h : s.Canonical) (q : Nat) :
    Out.Canonical (execDeadlineBeforePlacement q s) := by
  grind [execDeadlineBeforePlacement, Out.Canonical, State.canonical_def, State.leaveQueue_mem, State.endUnplaced_canonical]

@[simp] theorem execLaunchNumberRelease_canonical {s : State} (h : s.Canonical) : Out.Canonical (execLaunchNumberRelease s) := by
  grind [execLaunchNumberRelease, Out.Canonical, State.canonical_def, State.retryPlacements_mem]

@[simp] theorem execLaunchAreaRelease_canonical {s : State} (h : s.Canonical) : Out.Canonical (execLaunchAreaRelease s) := by
  grind [execLaunchAreaRelease, Out.Canonical, State.canonical_def, State.retryPlacements_mem]

theorem State.seedFault_canonical {s : State} (h : s.Canonical) (j : Job) (l : Launch) (cls : Nat) (addr : Word) :
    (s.seedFault j l cls addr).Canonical := by
  grind [State.seedFault, State.canonical_def, State.dropJob_mem, State.faultLaunch_canonical]

theorem State.seedStop_canonical {s : State} (h : s.Canonical) (j : Job) (l : Launch) (addr : Word) (x : Stop) :
    (s.seedStop j l addr x).Canonical := by
  unfold State.seedStop
  grind [State.waitAbsent_canonical, State.waitHost_canonical, State.seedFault_canonical, State.tellBad_canonical]

theorem State.nextSeed_canonical {s : State} (h : s.Canonical) (j : Job) (l : Launch) (list : Word) (n : Nat) :
    (s.nextSeed j l list n).Canonical := by
  grind [State.nextSeed, State.canonical_def, State.dropJob_mem, State.post_mem, State.seedStop_canonical, State.usedOver_mem,
    State.setLaunch_mem, State.countWalkers_mem, State.sendWalker_canonical]

@[simp] theorem execSeedSend_canonical {s : State} (h : s.Canonical) (l : Nat) : Out.Canonical (execSeedSend l s) := by
  grind [execSeedSend, Out.Canonical, State.canonical_def, State.dropJob_mem, State.nextSeed_canonical, State.seedFault_canonical,
    State.seedStop_canonical, State.usedOver_mem, State.setLaunch_mem, State.post_mem]

@[simp] theorem execLaunchComplete_canonical {s : State} (h : s.Canonical) (l : Nat) : Out.Canonical (execLaunchComplete l s) := by
  grind [execLaunchComplete, Out.Canonical, State.canonical_def, State.setLaunch_mem, State.post_mem]

@[simp] theorem execCompletionRecordWrite_canonical {s : State} (h : s.Canonical) (l : Nat) :
    Out.Canonical (execCompletionRecordWrite l s) := by
  grind [execCompletionRecordWrite, Out.Canonical, State.canonical_def, State.endWaiting_canonical, State.addRecord_mem]

/-! ### Deadlines and budgets -/

theorem State.serveRecall_canonical {s : State} (h : s.Canonical) (c : Nat) (r : Recall) : (s.serveRecall c r).Canonical := by
  grind [State.serveRecall, State.canonical_def, State.removeRecall_mem, State.modCluster_mem, State.settOutcome_mem,
    State.strip_canonical, State.countRecall_mem, State.addPending_mem]

@[simp] theorem execRecallHead_canonical {s : State} (h : s.Canonical) (c : Nat) : Out.Canonical (execRecallHead c s) := by
  grind [execRecallHead, Out.Canonical, State.serveRecall_canonical]

@[simp] theorem execRecallPlace_canonical {s : State} (h : s.Canonical) (c : Nat) : Out.Canonical (execRecallPlace c s) := by
  grind [execRecallPlace, Out.Canonical, State.canonical_def, State.setCore_mem, State.post_mem]

@[simp] theorem execSurrenderBoundExceeded_canonical {s : State} (h : s.Canonical) (c k : Nat) :
    Out.Canonical (execSurrenderBoundExceeded c k s) := by
  grind [execSurrenderBoundExceeded, Out.Canonical, State.stripFiring_canonical]

@[simp] theorem execFinishLimitPassed_canonical {s : State} (h : s.Canonical) (cl g : Nat) :
    Out.Canonical (execFinishLimitPassed cl g s) := by
  grind [execFinishLimitPassed, Out.Canonical, State.strip_canonical]

@[simp] theorem execRefusalWindowEnd_canonical {s : State} (h : s.Canonical) : Out.Canonical (execRefusalWindowEnd s) := by
  grind [execRefusalWindowEnd, Out.Canonical, State.canonical_def]

theorem State.expireOn_canonical {s : State} (h : s.Canonical) (l c : Nat) : (s.expireOn l c).Canonical := by
  grind [State.expireOn, State.canonical_def, State.expireCore_canonical, State.setLaunch_mem, State.post_mem, State.startWall_mem,
    State.dropWalkers_mem, State.addPending_mem, State.endWrapup_canonical]

@[simp] theorem execDeadlineExpiry_canonical {s : State} (h : s.Canonical) (l c : Nat) : Out.Canonical (execDeadlineExpiry l c s) := by
  grind [execDeadlineExpiry, Out.Canonical, State.expireOn_canonical]

theorem State.recordExpiry_canonical {s : State} (h : s.Canonical) (n : Nat) (l : Launch) : (s.recordExpiry n l).Canonical := by
  grind [State.recordExpiry, State.canonical_def, State.setLaunch_mem, State.poke_canonical]

@[simp] theorem execWrapupBudgetExhausted_canonical {s : State} (h : s.Canonical) (c k : Nat) :
    Out.Canonical (execWrapupBudgetExhausted c k s) := by
  grind [execWrapupBudgetExhausted, Out.Canonical, State.endFiring_canonical]

@[simp] theorem execWallBudgetExpiry_canonical {s : State} (h : s.Canonical) (l : Nat) : Out.Canonical (execWallBudgetExpiry l s) := by
  grind [execWallBudgetExpiry, Out.Canonical, State.endWrapup_canonical]

theorem State.noteQuiet_canonical {s : State} (h : s.Canonical) (l : Launch) : (s.noteQuiet l).Canonical := by
  grind [State.noteQuiet, State.foldl_canonical, State.quietWait_canonical]

/-! ### The host -/

theorem State.consumeSlot_canonical {s : State} (h : s.Canonical) (f m : Nat) : (s.consumeSlot f m).Canonical := by
  grind [State.consumeSlot, State.canonical_def, State.askFor_canonical, State.land_canonical, State.endUnplaced_canonical,
    State.giveLaunch_mem, State.submit_mem, State.post_mem]

@[simp] theorem execMailboxSlotConsume_canonical {s : State} (h : s.Canonical) (f m : Nat) :
    Out.Canonical (execMailboxSlotConsume f m s) := by
  grind [execMailboxSlotConsume, Out.Canonical, State.consumeSlot_canonical]

@[simp] theorem execTailWrite_canonical {s : State} (h : s.Canonical) : Out.Canonical (execTailWrite s) := by
  grind [execTailWrite, Out.Canonical, State.canonical_def, State.giveLaunch_mem, State.raiseTail_mem]

@[simp] theorem execCancelWrite_canonical {s : State} (h : s.Canonical) : Out.Canonical (execCancelWrite s) := by
  grind [execCancelWrite, Out.Canonical, State.cancel_canonical]

@[simp] theorem execMailboxConfigWrite_canonical {s : State} (h : s.Canonical) : Out.Canonical (execMailboxConfigWrite s) := by
  grind [execMailboxConfigWrite, Out.Canonical, State.canonical_def, State.post_mem]

@[simp] theorem execEventRingConfigWrite_canonical {s : State} (h : s.Canonical) : Out.Canonical (execEventRingConfigWrite s) := by
  grind [execEventRingConfigWrite, Out.Canonical, State.canonical_def, State.offerPosts_canonical]

theorem State.pageTold_canonical {s : State} (h : s.Canonical) (k : Nat) : (s.pageTold k).Canonical := by
  grind [State.pageTold, State.postEvent_canonical]

theorem State.pageMoved_canonical {s : State} (h : s.Canonical) (k : Nat) (give : Bool) : (s.pageMoved k give).Canonical := by
  grind [State.pageMoved, State.canonical_def, State.setPage_mem, State.timerNs_mem, State.retryHost_mem, State.offerPosts_canonical,
    State.pageTold_canonical]

theorem State.takeEnds_canonical {s : State} (h : s.Canonical) (k : Nat) : (s.takeEnds k).Canonical := by
  grind [State.takeEnds, State.canonical_def, State.setPage_mem, State.pageMoved_canonical]

theorem State.movePage_canonical {s : State} (h : s.Canonical) (k : Nat) (give : Bool) : (s.movePage k give).Canonical := by
  grind [State.movePage, State.canonical_def, State.pageTold_canonical, State.pageMoved_canonical, State.setPage_mem, State.invalidate_mem,
    State.takeEnds_canonical]

theorem State.askPage_canonical {s : State} (h : s.Canonical) (k : Nat) (give : Bool) : (s.askPage k give).Canonical := by
  grind [State.askPage, State.canonical_def, State.movePage_canonical, State.setPage_mem]

@[simp] theorem execMiggive_canonical {s : State} (h : s.Canonical) : Out.Canonical (execMiggive s) := by
  grind [execMiggive, Out.Canonical, State.askPage_canonical]

@[simp] theorem execMigtake_canonical {s : State} (h : s.Canonical) : Out.Canonical (execMigtake s) := by
  grind [execMigtake, Out.Canonical, State.askPage_canonical]

@[simp] theorem execMigholdWrite_canonical {s : State} (h : s.Canonical) : Out.Canonical (execMigholdWrite s) := by
  grind [execMigholdWrite, Out.Canonical, State.canonical_def]

@[simp] theorem execPageHoldEnd_canonical {s : State} (h : s.Canonical) : Out.Canonical (execPageHoldEnd s) := by
  grind [execPageHoldEnd, Out.Canonical, State.canonical_def, State.foldl_canonical, State.takeEnds_canonical, State.setPage_mem,
    State.movePage_canonical, State.post_mem]

theorem State.fabricStore_canonical {s : State} (h : s.Canonical) (o : Nat) (v : Word) : (s.fabricStore o v).Canonical := by
  grind [State.fabricStore, State.canonical_def, State.land_canonical]

theorem State.fabricByte_canonical {s : State} (h : s.Canonical) (o b : Nat) : (s.fabricByte o b).Canonical := by
  grind [State.fabricByte, State.fabricStore_canonical]

theorem State.windowStore_canonical {s : State} (h : s.Canonical) (p n v : Nat) : (s.windowStore p n v).Canonical := by
  have stored : (s.land p n v).Canonical := State.land_canonical h ..
  refine .ite (.ite (State.fabricStore_canonical h ..) (State.foldl_canonical _ h fun t i ht => State.fabricByte_canonical ht ..)) ?_
  exact .ite (State.foldl_canonical _ stored fun t e ht => .ite (State.rearm_canonical ht _) ht) stored

theorem Places.scatter_canonical {s : State} (h : s.Canonical) (ps : Places) {put : State → Nat → Nat → Nat → State}
    (hp : ∀ t a n x, t.Canonical → (put t a n x).Canonical) (v : Nat) : (ps.scatter put s v).Canonical :=
  State.foldl_fst_canonical ps h fun _ _ ho => hp _ _ _ _ ho

theorem State.hostStore_canonical {s : State} (h : s.Canonical) (chain : Bool) (ps : Places) (v : Nat) :
    (s.hostStore chain ps v).Canonical :=
  Places.scatter_canonical (by simpa [State.canonical_def] using h) ps (fun _ _ _ _ ht => State.windowStore_canonical ht ..) v

theorem State.hostRequest_canonical {s : State} (h : s.Canonical) (place : Nat → Nat → Nat → Option Places) (r : HostRequest) :
    (s.hostRequest place r).Canonical := by
  unfold State.hostRequest
  grind [State.canonical_def, State.foldl_canonical, State.hostReply_mem, State.replyFree_mem, State.hostStore_canonical, State.reply_mem,
    State.hostGets_mem]

@[simp] theorem execHostWindowRequest_canonical {s : State} (h : s.Canonical) : Out.Canonical (execHostWindowRequest s) := by
  grind [execHostWindowRequest, Out.Canonical, State.canonical_def, State.configRead_mem, State.hostRequest_canonical, State.barRead_mem]

/-! ### Context switching -/

@[simp] theorem execPreemptionInterrupt_canonical {s : State} (h : s.Canonical) (c : Nat) :
    Out.Canonical (execPreemptionInterrupt c s) := by
  grind [execPreemptionInterrupt, Out.Canonical, State.canonical_def, State.freeze_mem, State.enterPrivileged_mem]

@[simp] theorem execDebuggerHalt_canonical {s : State} (h : s.Canonical) : Out.Canonical (execDebuggerHalt s) := by
  grind [execDebuggerHalt, Out.Canonical, State.canonical_def, State.freeze_mem, State.modCore_mem, State.enterPrivileged_mem]

@[simp] theorem execDebuggerResume_canonical {s : State} (h : s.Canonical) : Out.Canonical (execDebuggerResume s) := by
  grind [execDebuggerResume, Out.Canonical, State.canonical_def, State.modCore_mem, State.enterPrivileged_mem, State.unfreeze_mem]

theorem State.schedEvent_canonical {s : State} (h : s.Canonical) (t kind e w3 : Nat) : (s.schedEvent t kind e w3).Canonical := by
  grind [State.schedEvent, State.postEvent_canonical]

theorem State.meetEntries_canonical {s : State} (h : s.Canonical) (t : Nat) : (s.meetEntries t).Canonical := by
  grind [State.meetEntries, State.canonical_def, State.foldl_canonical, State.schedEvent_canonical, State.rearm_canonical]

theorem State.expireBefore_canonical {s : State} (h : s.Canonical) (t b : Nat) : (s.expireBefore t b).Canonical := by
  grind [State.expireBefore, State.foldl_canonical, State.recordExpiry_canonical]

@[simp] theorem execDescheduledExpiry_canonical {s : State} (h : s.Canonical) (l : Nat) : Out.Canonical (execDescheduledExpiry l s) := by
  grind [execDescheduledExpiry, Out.Canonical, State.recordExpiry_canonical]

theorem State.beginSwitch_canonical {s : State} (h : s.Canonical) (t e next : Nat) (turn : Bool) :
    (s.beginSwitch t e next turn).Canonical := by
  grind [State.beginSwitch, State.canonical_def, State.foldl_canonical, State.pauseWalls_mem, State.setEntryState_canonical,
    State.setSched_mem, State.post_mem, State.timerNs_mem]

theorem State.loadCluster_canonical {s : State} (h : s.Canonical) (t e cl : Nat) (x : SavedCtx) : (s.loadCluster t e cl x).Canonical := by
  grind [State.loadCluster, State.canonical_def, State.foldl_mem, State.bringIn_canonical, State.timer_mem, State.timerNs_mem,
    State.returnsDue_mem]

theorem State.resumeLaunches_canonical {s : State} (h : s.Canonical) (t e : Nat) : (s.resumeLaunches t e).Canonical := by
  grind [State.resumeLaunches, State.canonical_def, State.foldl_canonical, State.modLaunch_mem, State.startWall_mem,
    State.expireOn_canonical]

theorem State.resume_canonical {s : State} (h : s.Canonical) (t e : Nat) (turn : Bool) : (s.resume t e turn).Canonical := by
  grind [State.resume, State.canonical_def, State.foldl_canonical, State.foldl_mem, State.setSched_mem, State.setEntryState_canonical,
    State.schedEvent_canonical, State.modCore_mem, State.modCluster_mem, State.loadCluster_canonical, State.post_mem, State.poke_canonical,
    State.entrySync_canonical, State.resumeLaunches_canonical, State.retryPlacements_mem]

@[simp] theorem execSliceBoundary_canonical {s : State} (h : s.Canonical) (t : Nat) : Out.Canonical (execSliceBoundary t s) := by
  grind [execSliceBoundary, Out.Canonical, State.canonical_def, State.expireBefore_canonical, State.meetEntries_canonical,
    State.resume_canonical, State.sliceAgain_mem, State.beginSwitch_canonical]

@[simp] theorem execQuiescenceLimit_canonical {s : State} (h : s.Canonical) (t : Nat) : Out.Canonical (execQuiescenceLimit t s) := by
  grind [execQuiescenceLimit, Out.Canonical, State.canonical_def, State.setSched_mem]

theorem State.saveCluster_canonical {s : State} (h : s.Canonical) (t e cl : Nat) (js : List Job) (x : SavedCtx) :
    (s.saveCluster t e cl js x).1.Canonical := by
  unfold State.saveCluster
  have emptied := State.foldl_canonical (coresOf cl) (State.writeSection_canonical h t e cl js) fun t c ht =>
    (State.wipe_canonical ht (poolAt c 0) 98304).of_mem (State.modCore_mem _ c fun k => Core.initial.keep k)
  exact (State.wipe_canonical emptied (storeAt cl 0) 524288).of_mem (State.modCluster_mem ..)

theorem State.saveHeader_canonical {s : State} (h : s.Canonical) (t e replays : Nat) (late : Bool) :
    (s.saveHeader t e replays late).Canonical := by
  grind [State.saveHeader, State.poke_canonical, State.setEntryState_canonical]

theorem State.saveContext_canonical {s : State} (h : s.Canonical) (t e next : Nat) : (s.saveContext t e next).Canonical := by
  unfold State.saveContext
  extract_lets js late o ids gone replays o1 kept c headed told
  have ho : o.1.Canonical := State.foldl_fst_canonical _ h fun _ _ ho => State.saveCluster_canonical ho ..
  have hk : kept.Canonical := ho.of_mem rfl
  have hh : headed.Canonical := State.saveHeader_canonical hk ..
  have ht : told.Canonical := .ite (State.schedEvent_canonical hh ..) hh
  exact .ite (ht.of_mem (State.setSched_mem ..)) (State.resume_canonical ht ..)

@[simp] theorem execContextSaveComplete_canonical {s : State} (h : s.Canonical) (t : Nat) :
    Out.Canonical (execContextSaveComplete t s) := by
  grind [execContextSaveComplete, Out.Canonical, State.saveContext_canonical]

@[simp] theorem execContextRestore_canonical {s : State} (h : s.Canonical) (c : Nat) : Out.Canonical (execContextRestore c s) := by
  grind [execContextRestore, Out.Canonical, State.canonical_def, State.modCore_mem, State.enterPrivileged_mem, State.unfreeze_mem]

theorem State.pass_canonical {s : State} (h : s.Canonical) : s.pass.Canonical := by
  grind [State.pass, State.canonical_def, State.foldl_canonical, State.noteWait_mem, State.noteMet_mem, State.noteQuiet_canonical,
    State.noteIdle_mem, State.tick_mem]

@[simp] theorem execResetInterrupt_canonical {s : State} (h : s.Canonical) (c : Nat) : Out.Canonical (execResetInterrupt c s) := by
  grind [execResetInterrupt, Out.Canonical, State.canonical_def, State.freeze_mem, State.enterPrivileged_mem]

/-! ### Tenants and their requests -/

theorem State.ringDoneAt_canonical {s : State} (h : s.Canonical) (r base a result : Nat) : (s.ringDoneAt r base a result).Canonical := by
  grind [State.ringDoneAt, State.canonical_def, State.poke_canonical, State.land_canonical]

theorem State.ringDone_canonical {s : State} (h : s.Canonical) (r a result : Nat) : (s.ringDone r a result).Canonical := by
  grind [State.ringDone, State.ringDoneAt_canonical]

theorem State.serve_canonical {s : State} (h : s.Canonical) (r : Nat) (kinds : List Nat) {f : Nat → List Nat → State}
    (hf : ∀ a w, (f a w).Canonical) : (s.serve r kinds f).Canonical := by
  grind [State.serve, State.ringDone_canonical]

theorem State.serveInvalidate_canonical {s : State} (h : s.Canonical) (r kind : Nat) (void : List Nat) :
    (s.serveInvalidate r kind void).Canonical := by
  grind [State.serveInvalidate, State.canonical_def, State.serve_canonical, State.shootDown_mem, State.ringDone_canonical]

@[simp] theorem execRequestPageInvalidate_canonical {s : State} (h : s.Canonical) (r : Nat) :
    Out.Canonical (execRequestPageInvalidate r s) := by
  grind [execRequestPageInvalidate, Out.Canonical, State.serveInvalidate_canonical]

@[simp] theorem execRequestTenantInvalidate_canonical {s : State} (h : s.Canonical) (r : Nat) :
    Out.Canonical (execRequestTenantInvalidate r s) := by
  grind [execRequestTenantInvalidate, Out.Canonical, State.serveInvalidate_canonical]

@[simp] theorem execRequestAllInvalidate_canonical {s : State} (h : s.Canonical) (r : Nat) :
    Out.Canonical (execRequestAllInvalidate r s) := by
  grind [execRequestAllInvalidate, Out.Canonical, State.serveInvalidate_canonical]

theorem State.freeTurn_canonical {s : State} (h : s.Canonical) (cl t n : Nat) : (s.freeTurn cl t n).Canonical := by
  induction n generalizing s with
  | zero => exact h
  | succ n ih => grind [State.freeTurn, State.canonical_def, State.strip_canonical, State.setFreeing_mem, State.placeRecall_mem]

theorem State.freeAll_canonical {s : State} (h : s.Canonical) (cls : List Nat) (t : Nat) : (s.freeAll cls t).1.Canonical :=
  State.foldl_canonical _ h fun _ _ hu => State.freeTurn_canonical hu ..

theorem State.serveQuota_canonical {s : State} (h : s.Canonical) (r a : Nat) (w : List Nat) : (s.serveQuota r a w).Canonical := by
  grind [State.serveQuota, State.canonical_def, State.foldl_canonical, State.setQuota_mem, State.startFreeing_mem, State.freeAll_canonical,
    State.endFreeing_mem, State.ringDone_canonical]

@[simp] theorem execQuotaChange_canonical {s : State} (h : s.Canonical) (r : Nat) : Out.Canonical (execQuotaChange r s) := by
  grind [execQuotaChange, Out.Canonical, State.serve_canonical, State.serveQuota_canonical]

theorem State.serveReclaim_canonical {s : State} (h : s.Canonical) (r a : Nat) (w : List Nat) : (s.serveReclaim r a w).Canonical := by
  grind [State.serveReclaim, State.canonical_def, State.foldl_canonical, State.ringDone_canonical, State.startFreeing_mem,
    State.freeAll_canonical, State.endFreeing_mem]

@[simp] theorem execReclaim_canonical {s : State} (h : s.Canonical) (r : Nat) : Out.Canonical (execReclaim r s) := by
  grind [execReclaim, Out.Canonical, State.serve_canonical, State.serveReclaim_canonical]

theorem State.zeroCluster_canonical {s : State} (h : s.Canonical) (cl : Nat) (owner : Option Nat) : (s.zeroCluster cl owner).Canonical := by
  grind [State.zeroCluster, State.canonical_def, State.foldl_canonical, State.wipe_canonical, State.modCore_mem, State.modCluster_mem]

theorem State.applyContext_canonical {s : State} (h : s.Canonical) (t : Nat) (c : List Word) : (s.applyContext t c).Canonical := by
  unfold State.applyContext
  grind [State.canonical_def, State.foldl_canonical, State.refill_mem, State.zeroCluster_canonical, State.modCluster_mem,
    State.modCore_mem, State.refillTimer_mem, State.congestionTimer_mem]

theorem State.serveLoad_canonical {s : State} (h : s.Canonical) (r a : Nat) (w : List Nat) : (s.serveLoad r a w).Canonical := by
  grind [State.serveLoad, State.canonical_def, State.foldl_canonical, State.ringDone_canonical, State.applyContext_canonical,
    State.startFreeing_mem, State.freeAll_canonical, State.endFreeing_mem, State.invalidate_mem, State.ringDoneAt_canonical,
    State.loadEnds_mem, State.retryPlacements_mem]

@[simp] theorem execContextLoad_canonical {s : State} (h : s.Canonical) (r : Nat) : Out.Canonical (execContextLoad r s) := by
  grind [execContextLoad, Out.Canonical, State.serve_canonical, State.serveLoad_canonical]

@[simp] theorem execSecondStageRecordMove_canonical {s : State} (h : s.Canonical) : Out.Canonical (execSecondStageRecordMove s) := by
  grind [execSecondStageRecordMove, Out.Canonical, State.canonical_def, State.postRing_canonical, State.offerHeld_canonical, State.post_mem]

theorem State.beginReset_canonical {s : State} (h : s.Canonical) (t : Nat) : (s.beginReset t).Canonical := by
  grind [State.beginReset, State.canonical_def, State.foldl_canonical, State.land_canonical, State.post_mem]

theorem State.cancelledRecord_canonical {s : State} (h : s.Canonical) (t : Nat) (addr : Word) (ws : List Word) :
    (s.cancelledRecord t addr ws).Canonical := by
  grind [State.cancelledRecord, State.foldl_canonical, State.land_canonical]

theorem State.resetLaunch_canonical {s : State} (h : s.Canonical) (l : Launch) : (s.resetLaunch l).Canonical := by
  grind [State.resetLaunch, State.canonical_def, State.foldl_canonical, State.onContext_canonical, State.stopFirings_canonical,
    State.dropWalkers_mem, State.dropWords_mem, State.cancelledRecord_canonical]

theorem State.resetQueued_canonical {s : State} (h : s.Canonical) (m : Queued) : (s.resetQueued m).Canonical := by
  grind [State.resetQueued, State.cancelledRecord_canonical]

theorem State.resetUnplaced_canonical {s : State} (h : s.Canonical) (j : Job) : (s.resetUnplaced j).Canonical := by
  grind [State.resetUnplaced, State.cancelledRecord_canonical]

theorem State.resetRecord_canonical {s : State} (h : s.Canonical) (t replays launches : Nat) (scatters : List Job) :
    (s.resetRecord t replays launches scatters).Canonical := by
  unfold State.resetRecord
  extract_lets a n lost w3 bar ws told counted
  have ht : told.Canonical := State.foldl_canonical _ h fun _ _ ht => State.land_canonical ht ..
  have hc : counted.Canonical := State.land_canonical ht ..
  exact hc

theorem State.Canonical.setResets {s : State} (h : s.Canonical) (l : List Reset) : State.Canonical { s with resets := l } := h

theorem State.completeReset_canonical {s : State} (h : s.Canonical) (r : Reset) : (s.completeReset r).Canonical := by
  unfold State.completeReset
  extract_lets t running all scatters replays live queued unplaced ended unqueued dropped zeroed unscheduled wiped invalid gone recorded
    advanced
  have hu : unqueued.Canonical := State.foldl_canonical _ (State.foldl_canonical _ (State.foldl_canonical _ h fun _ l hs =>
    State.resetLaunch_canonical hs l)
    fun _ m hs => State.resetQueued_canonical hs m) fun _ j hs => State.resetUnplaced_canonical hs j
  have hd : dropped.Canonical := hu.of_mem rfl
  have hz : zeroed.Canonical := State.foldl_canonical _ hd fun _ e hs =>
    .ite (State.poke_canonical (State.poke_canonical (State.poke_canonical hs ..) ..) ..) hs
  have hw : wiped.Canonical := State.foldl_canonical _ (hz.of_mem (State.setSched_mem ..)) fun _ cl hs => State.zeroCluster_canonical hs ..
  have hi : invalid.Canonical := (hw.of_mem (State.invalidate_mem ..)).of_mem (State.invalidate_mem ..)
  have hg : gone.Canonical := hi.setResets _
  have hr : recorded.Canonical := State.resetRecord_canonical hg ..
  have ha : advanced.Canonical := State.foldl_canonical _ hr fun _ e hs => hs.of_mem (State.queueAdvance_mem ..)
  exact (State.offerHeld_canonical ha).of_mem (by simp)

theorem State.resetTurn_canonical {s : State} (h : s.Canonical) (byRing : Bool) : (s.resetTurn byRing).1.Canonical := by
  grind [State.resetTurn, State.beginReset_canonical, State.completeReset_canonical]

@[simp] theorem execTenantReset_canonical {s : State} (h : s.Canonical) (r : Nat) : Out.Canonical (execTenantReset r s) := by
  grind [execTenantReset, Out.Canonical, State.canonical_def, State.serve_canonical, State.resetTurn_canonical, State.ringDone_canonical]

@[simp] theorem execFunctionLevelReset_canonical {s : State} (h : s.Canonical) : Out.Canonical (execFunctionLevelReset s) := by
  grind [execFunctionLevelReset, Out.Canonical, State.canonical_def, State.resetTurn_canonical]

/-! ### Fabric -/

theorem State.setPort_canonical {s : State} (h : s.Canonical) (x j w : Nat) : (s.setPort x j w).Canonical := by
  grind [State.setPort, State.canonical_def, State.land_canonical]

theorem State.setRouter_canonical {s : State} (h : s.Canonical) (x w : Nat) : (s.setRouter x w).Canonical := by
  grind [State.setRouter, State.canonical_def, State.land_canonical]

theorem State.setClusterState_canonical {s : State} (h : s.Canonical) (c b : Nat) : (s.setClusterState c b).Canonical := by
  grind [State.setClusterState, State.canonical_def, State.poke_canonical]

theorem State.setLink_canonical {s : State} (h : s.Canonical) (x j w : Nat) : (s.setLink x j w).Canonical := by
  grind [State.setLink, State.setPort_canonical]

theorem State.showFabric_canonical {s : State} (h : s.Canonical) : s.showFabric.Canonical := by
  grind [State.showFabric, State.foldl_canonical, State.land_canonical, State.setPort_canonical, State.setRouter_canonical,
    State.setClusterState_canonical]

theorem State.fabricEvent_canonical {s : State} (h : s.Canonical) (kind w2 w3 : Nat) : (s.fabricEvent kind w2 w3).Canonical := by
  grind [State.fabricEvent, State.postEvent_canonical]

theorem State.renegotiate_canonical {s : State} (h : s.Canonical) (x j width : Nat) : (s.renegotiate x j width).Canonical := by
  grind [State.renegotiate, State.canonical_def, State.setLink_canonical, State.timer_mem]

theorem State.settled_canonical {s : State} (h : s.Canonical) (x j : Nat) : (s.settled x j).Canonical := by
  grind [State.settled, State.canonical_def, State.setLink_canonical]

theorem State.laneLost_canonical {s : State} (h : s.Canonical) (x j lane : Nat) : (s.laneLost x j lane).Canonical := by
  grind [State.laneLost, State.setLink_canonical, State.renegotiate_canonical, State.fabricEvent_canonical, State.settled_canonical]

theorem State.crcFailure_canonical {s : State} (h : s.Canonical) (x j lane : Nat) (replayOk : Bool) :
    (s.crcFailure x j lane replayOk).Canonical := by
  grind [State.crcFailure, State.canonical_def, State.setPort_canonical, State.laneLost_canonical]

@[simp] theorem execFlitCrcFailure_canonical {s : State} (h : s.Canonical) : Out.Canonical (execFlitCrcFailure s) := by
  grind [execFlitCrcFailure, Out.Canonical, State.crcFailure_canonical]

@[simp] theorem execPowerNarrowing_canonical {s : State} (h : s.Canonical) : Out.Canonical (execPowerNarrowing s) := by
  grind [execPowerNarrowing, Out.Canonical, State.renegotiate_canonical]

@[simp] theorem execLinkWidening_canonical {s : State} (h : s.Canonical) : Out.Canonical (execLinkWidening s) := by
  grind [execLinkWidening, Out.Canonical, State.renegotiate_canonical]

@[simp] theorem execRenegotiationEnd_canonical {s : State} (h : s.Canonical) : Out.Canonical (execRenegotiationEnd s) := by
  grind [execRenegotiationEnd, Out.Canonical, State.foldl_canonical, State.settled_canonical]

theorem State.loseRouter_canonical {s : State} (h : s.Canonical) (r : Nat) : (s.loseRouter r).Canonical := by
  grind [State.loseRouter, State.canonical_def, State.foldl_canonical, State.setRouter_canonical, State.setClusterState_canonical,
    State.fabricEvent_canonical, State.drew_mem, State.timerNs_mem, State.cancelLive_canonical]

@[simp] theorem execRouterFailure_canonical {s : State} (h : s.Canonical) : Out.Canonical (execRouterFailure s) := by
  grind [execRouterFailure, Out.Canonical, State.loseRouter_canonical]

@[simp] theorem execRequestResend_canonical {s : State} (h : s.Canonical) : Out.Canonical (execRequestResend s) := by
  grind [execRequestResend, Out.Canonical, State.canonical_def, State.foldl_canonical, State.post_mem]

@[simp] theorem execUePortStateChange_canonical {s : State} (h : s.Canonical) : Out.Canonical (execUePortStateChange s) := by
  grind [execUePortStateChange, Out.Canonical, State.canonical_def, State.fabricEvent_canonical, State.retryTransport_mem]

theorem State.packetArrives_canonical {s : State} (h : s.Canonical) (x : Packet) : (s.packetArrives x).Canonical := by
  unfold State.packetArrives
  grind [State.canonical_def, State.seenPacket_mem, State.addPlacement_mem, State.setJob_mem, State.sendPacket_mem,
    State.finishJob_canonical, State.arriveFor_canonical, State.post_mem, State.addJob_mem]

@[simp] theorem execTransportPacketArrival_canonical {s : State} (h : s.Canonical) : Out.Canonical (execTransportPacketArrival s) := by
  grind [execTransportPacketArrival, Out.Canonical, State.packetArrives_canonical]

@[simp] theorem execPacketResend_canonical {s : State} (h : s.Canonical) : Out.Canonical (execPacketResend s) := by
  grind [execPacketResend, Out.Canonical, State.canonical_def, State.sendPacket_mem]

theorem State.writeCongestion_canonical {s : State} (h : s.Canonical) (t p : Nat) : (s.writeCongestion t p).Canonical := by
  grind [State.writeCongestion, State.land_canonical]

@[simp] theorem execCongestionTableUpdate_canonical {s : State} (h : s.Canonical) : Out.Canonical (execCongestionTableUpdate s) := by
  grind [execCongestionTableUpdate, Out.Canonical, State.canonical_def, State.foldl_canonical, State.writeCongestion_canonical,
    State.congestionTimer_mem]

@[simp] theorem execTokenBucketRefill_canonical {s : State} (h : s.Canonical) : Out.Canonical (execTokenBucketRefill s) := by
  grind [execTokenBucketRefill, Out.Canonical, State.canonical_def, State.foldl_canonical, State.refill_mem, State.refillTimer_mem,
    State.post_mem]

/-! ### Bring-up -/

theorem State.lay_canonical {s : State} (h : s.Canonical) (a : Nat) (bs : List Byte) : (s.lay a bs).Canonical := by
  grind [State.lay, State.land_canonical]

theorem State.bringupEvent_canonical {s : State} (h : s.Canonical) (kind w3 : Nat) : (s.bringupEvent kind w3).Canonical := by
  grind [State.bringupEvent, State.postEvent_canonical]

@[simp] theorem execModuleReset_canonical (s : State) : Out.Canonical (execModuleReset s) := by
  unfold execModuleReset
  split <;> exact Mem.wf_nil

@[simp] theorem execSelfTestComplete_canonical {s : State} (h : s.Canonical) : Out.Canonical (execSelfTestComplete s) := by
  grind [execSelfTestComplete, Out.Canonical, State.canonical_def, State.foldl_canonical, State.placeSpare_mem, State.countRouters_mem,
    State.setClocks_mem, State.enter_mem]

@[simp] theorem execSelfTestFailure_canonical {s : State} (h : s.Canonical) : Out.Canonical (execSelfTestFailure s) := by
  grind [execSelfTestFailure, Out.Canonical, State.canonical_def, State.fail_mem]

@[simp] theorem execSecondTierTrained_canonical {s : State} (h : s.Canonical) : Out.Canonical (execSecondTierTrained s) := by
  grind [execSecondTierTrained, Out.Canonical, State.canonical_def, State.setTime_mem, State.enter_mem, State.showFabric_canonical,
    State.timerNs_mem]

@[simp] theorem execHbmTrained_canonical {s : State} (h : s.Canonical) : Out.Canonical (execHbmTrained s) := by
  grind [execHbmTrained, Out.Canonical, State.canonical_def, State.foldl_canonical, State.enter_mem, State.beginSwitch_canonical]

@[simp] theorem execHbmTrainingFailure_canonical {s : State} (h : s.Canonical) : Out.Canonical (execHbmTrainingFailure s) := by
  grind [execHbmTrainingFailure, Out.Canonical, State.canonical_def, State.bringupEvent_canonical]

@[simp] theorem execClockSwitchComplete_canonical {s : State} (h : s.Canonical) : Out.Canonical (execClockSwitchComplete s) := by
  grind [execClockSwitchComplete, Out.Canonical, State.canonical_def, State.foldl_canonical, State.setClocks_mem, State.enter_mem,
    State.bringupEvent_canonical, State.post_mem]

@[simp] theorem execRegisterWrite_canonical {s : State} (h : s.Canonical) : Out.Canonical (execRegisterWrite s) := by
  grind [execRegisterWrite, Out.Canonical, State.canonical_def, State.beginCommand_mem]

@[simp] theorem execUpdateCommand_canonical {s : State} (h : s.Canonical) : Out.Canonical (execUpdateCommand s) := by
  grind [execUpdateCommand, Out.Canonical, State.canonical_def, State.post_mem]

@[simp] theorem execAttestCommand_canonical {s : State} (h : s.Canonical) : Out.Canonical (execAttestCommand s) := by
  grind [execAttestCommand, Out.Canonical, State.canonical_def, State.post_mem, State.lay_canonical]

@[simp] theorem execCommandDone_canonical {s : State} (h : s.Canonical) : Out.Canonical (execCommandDone s) := by
  grind [execCommandDone, Out.Canonical, State.canonical_def]

@[simp] theorem execPowerLoss_canonical (s : State) : Out.Canonical (execPowerLoss s) := Mem.wf_nil

/-! ### Health -/

@[simp] theorem execServoLock_canonical {s : State} (h : s.Canonical) : Out.Canonical (execServoLock s) := by
  grind [execServoLock, Out.Canonical, State.canonical_def, State.postAllTenants_canonical, State.watchSync_mem]

theorem State.checkHoldover_canonical {s : State} (h : s.Canonical) : s.checkHoldover.Canonical := by
  grind [State.checkHoldover, State.canonical_def, State.postAllTenants_canonical]

theorem State.loseLock_canonical {s : State} (h : s.Canonical) (err : Int) : (s.loseLock err).Canonical := by
  grind [State.loseLock, State.canonical_def, State.postAllTenants_canonical, State.checkHoldover_canonical]

@[simp] theorem execDisciplineLost_canonical {s : State} (h : s.Canonical) : Out.Canonical (execDisciplineLost s) := by
  have lost (err : Int) : (s.loseLock err).Canonical := State.loseLock_canonical h err
  have watched : s.watchSync.Canonical := h.of_mem (by simp)
  unfold execDisciplineLost
  split
  · split
    · exact lost _
    · exact h
  · split
    · split
      · exact lost _
      · exact watched
    · exact h

@[simp] theorem execHoldoverLimitPassed_canonical {s : State} (h : s.Canonical) : Out.Canonical (execHoldoverLimitPassed s) := by
  grind [execHoldoverLimitPassed, Out.Canonical, State.canonical_def, State.checkHoldover_canonical]

@[simp] theorem execServoUpdate_canonical {s : State} (h : s.Canonical) : Out.Canonical (execServoUpdate s) := by
  grind [execServoUpdate, Out.Canonical, State.canonical_def, State.stamp_mem, State.checkHoldover_canonical, State.loseLock_canonical]

theorem State.healthEvent_canonical {s : State} (h : s.Canonical) (kind : Nat) (w2 w3 : Word) : (s.healthEvent kind w2 w3).Canonical := by
  grind [State.healthEvent, State.postEvent_canonical]

@[simp] theorem execPowerLimitSet_canonical {s : State} (h : s.Canonical) : Out.Canonical (execPowerLimitSet s) := by
  grind [execPowerLimitSet, Out.Canonical, State.canonical_def]

theorem State.throttle_canonical {s : State} (h : s.Canonical) (fraction : BitVec 16) : (s.throttle fraction).Canonical := by
  grind [State.throttle, State.canonical_def, State.withhold_mem, State.healthEvent_canonical]

@[simp] theorem execThrottleStart_canonical {s : State} (h : s.Canonical) : Out.Canonical (execThrottleStart s) := by
  grind [execThrottleStart, Out.Canonical, State.canonical_def, State.throttle_canonical, State.drew_mem]

@[simp] theorem execThrottleEnd_canonical {s : State} (h : s.Canonical) : Out.Canonical (execThrottleEnd s) := by
  grind [execThrottleEnd, Out.Canonical, State.canonical_def, State.withhold_mem, State.healthEvent_canonical]

theorem State.critical_canonical {s : State} (h : s.Canonical) (die : Nat) (temp : Nat) : (s.critical die temp).Canonical := by
  grind [State.critical, State.canonical_def, State.healthEvent_canonical]

@[simp] theorem execCriticalTemperature_canonical {s : State} (h : s.Canonical) : Out.Canonical (execCriticalTemperature s) := by
  grind [execCriticalTemperature, Out.Canonical, State.canonical_def, State.critical_canonical, State.drew_mem]

@[simp] theorem execTelemetryRecord_canonical {s : State} (h : s.Canonical) : Out.Canonical (execTelemetryRecord s) := by
  grind [execTelemetryRecord, Out.Canonical, State.canonical_def, State.healthEvent_canonical, State.timerNs_mem]

theorem State.lastingError_canonical {s : State} (h : s.Canonical) (a : Nat) : (s.lastingError a).Canonical := by
  grind [State.lastingError, State.canonical_def, State.healthEvent_canonical]

theorem State.correctedError_canonical {s : State} (h : s.Canonical) (a : Nat) (recurs : Bool) : (s.correctedError a recurs).Canonical := by
  grind [State.correctedError, State.canonical_def, State.lastingError_canonical]

theorem State.uncorrectable_canonical {s : State} (h : s.Canonical) (a : Nat) (met : List Nat) : (s.uncorrectable a met).Canonical := by
  grind [State.uncorrectable, State.canonical_def, State.foldl_canonical, State.faultLaunch_canonical, State.tellBad_canonical]

theorem State.serveMet_canonical {s : State} (h : s.Canonical) : s.serveMet.Canonical := by
  grind [State.serveMet, State.canonical_def, State.faultLaunch_canonical, State.tellBad_canonical, State.post_mem]

@[simp] theorem execScrubPass_canonical {s : State} (h : s.Canonical) : Out.Canonical (execScrubPass s) := by
  grind [execScrubPass, Out.Canonical, State.canonical_def, State.renew_mem, State.correctedError_canonical, State.uncorrectable_canonical,
    State.serveMet_canonical]

/-! ### Dispatch and step -/

/-- Every instruction and event keeps memory canonical. -/
theorem exec_canonical {s : State} (h : s.Canonical) (i : Instr) : Out.Canonical (exec i s) := by
  cases i with
  | add f | sub f | mul f | mulh f | mad f | div f | rem f | abs f | min f | max f | adds f | subs f | avg f | sad f | clamp f
    | and f | or f | xor f | andn f | shl f | shr f | sar f | rol f | clz f | popc f | brev f | ext f | ins f | hash f | mix f =>
      exact State.issue_canonical h _ _ (intBody_holds h ..)
  | pand f | por f | pxor f => exact State.issue_canonical h _ _ (predBody_holds h ..)
  | fadd f | fsub f | fmul f | fma f | fms f | fnma f | fdiv f | fsqrt f | frcp f | frsq f | fexp2 f | flog2 f | ftanh f =>
    exact State.issue_canonical h _ _ (floatBody_holds h ..)
  | fmin f | fmax f | fabs f | fneg f | fclass f | frnd f => exact State.issue_canonical h _ _ (rawBody_holds h ..)
  | mand f | mor f | mandn f => exact State.issue_canonical h _ _ (memberBody_holds h ..)
  | copy f | copy2 f | get f | put f | getx f | putx f | amo f | amox f | amof f | xsend f | xpost f | xget f | srch f | srchf f =>
    exact State.issue_canonical h _ _ (commandBody_holds h ..)
  | mma f | mmag f => exact State.issue_canonical h _ _ (streamBody_holds h ..)
  | csave f | crest f => exact State.issue_canonical h _ _ (frameBody_holds h ..)
  | _ =>
    dsimp only [exec]
    simp [h]

theorem afterMove_canonical {o : Out} (h : Out.Canonical o) : Out.Canonical (afterMove o) := by
  cases o with
  | next s => exact State.pass_canonical h
  | _ => trivial

theorem afterIssue_canonical {o : Out} (h : Out.Canonical o) (before : State) (c n : Nat) : Out.Canonical (afterIssue before c n o) := by
  cases o with
  | next s => exact h.of_mem (State.noteIssue_mem ..)
  | _ => trivial

/-- What a move hands on is a state in canonical form. -/
def Move.Canonical : Move → Prop
  | .event _ s => s.Canonical
  | .issue _ _ s => s.Canonical
  | .idle s => s.Canonical

theorem State.agendaMove_canonical {s : State} (h : s.Canonical) (n : Nat) : (s.agendaMove n).Canonical := by
  unfold State.agendaMove
  split <;> exact h

theorem State.issueMove_canonical {s : State} (h : s.Canonical) (c : Nat) : (s.issueMove c).Canonical := by
  unfold State.issueMove
  split <;> exact h

theorem State.eventMove_canonical {s : State} (h : s.Canonical) {m : Move} (hm : m.Canonical) : (s.eventMove m).Canonical := by
  unfold State.eventMove
  split
  · exact State.agendaMove_canonical h 0
  · dsimp only
    split
    · exact h
    · exact hm

theorem State.ownMove_canonical {s : State} (h : s.Canonical) : s.ownMove.Canonical := by
  unfold State.ownMove
  split
  · split
    · exact State.issueMove_canonical h _
    · exact State.eventMove_canonical h (State.issueMove_canonical h _)
  · exact State.eventMove_canonical h h

theorem State.move_canonical {s : State} (h : s.Canonical) : s.move.Canonical := by
  have ripe : s.ripen.Canonical := h.of_mem (State.ripen_mem s)
  unfold State.move
  grind [Move.Canonical, State.canonical_def, State.ownMove_canonical, State.issueMove_canonical, State.agendaMove_canonical]

theorem step_canonical {s : State} (h : s.Canonical) : Out.Canonical (step s) := by
  have moved := State.move_canonical h
  unfold step
  generalize s.move = m at moved
  cases m with
  | idle t => exact State.pass_canonical moved
  | event i t => exact afterMove_canonical (exec_canonical moved i)
  | issue c n t =>
    dsimp only
    split
    · exact afterMove_canonical (afterIssue_canonical (exec_canonical (moved.of_mem (State.select_mem ..)) _) ..)
    · trivial

/-- Settles O57: a step is a move, an instruction or event, and the passing of a clock, and each keeps memory canonical. -/
theorem memoryStaysCanonical : Obligations.MemoryStaysCanonical := by
  intro s t h e
  have stepped := step_canonical h
  rwa [e] at stepped

end Sys2Proof.Machine
end

section

/-! PROOF. What an operation leaves unchanged: the rules for `State.OnlySlot`, for states that differ in what reads have learnt, and for the
fields that the order of accesses keeps. -/

namespace Sys2Proof.Machine

/-! ### Only the issuing slot changes -/

section
variable {s t u : State}

theorem State.OnlySlot.refl (s : State) : s.OnlySlot s := ⟨rfl, fun _ _ => rfl, rfl, fun _ _ => rfl⟩

theorem State.OnlySlot.cur_eq (h : s.OnlySlot t) : t.cur = s.cur := (congrArg State.cur h.rest :)
theorem State.OnlySlot.curSlot_eq (h : s.OnlySlot t) : t.curSlot = s.curSlot := (congrArg State.curSlot h.rest :)
theorem State.OnlySlot.mem_eq (h : s.OnlySlot t) : t.mem = s.mem := (congrArg State.mem h.rest :)
theorem State.OnlySlot.full_eq (h : s.OnlySlot t) : t.full = s.full := (congrArg State.full h.rest :)

theorem State.OnlySlot.trans (h : s.OnlySlot t) (h' : t.OnlySlot u) : s.OnlySlot u where
  rest := h'.rest.trans (congrArg (fun x : State => { x with cores := u.cores }) h.rest)
  cores c hc := (h'.cores c (h.cur_eq ▸ hc)).trans (h.cores c hc)
  here := h'.here.trans (congrArg (fun k : Core => { k with slots := u.here.slots, perf := u.here.perf }) h.here)
  slots n hn := by
    have later := h'.slots n (h.curSlot_eq ▸ hn)
    rw [h.cur_eq] at later
    exact later.trans (h.slots n hn)

/-- A core that differs from the issuing one in its counters and in the issuing slot alone. -/
theorem State.onlySlot_setHere (s : State) (k : Core) (rest : k = { s.here with slots := k.slots, perf := k.perf })
    (slots : ∀ n, n ≠ s.curSlot → k.slot n = s.here.slot n) : s.OnlySlot (s.setHere k) where
  rest := rfl
  cores _ hc := State.core_setCore_ne s k hc
  here := by rwa [State.here_setHere]
  slots n hn := by simpa [State.slot, State.setHere, State.here] using slots n hn

theorem State.onlySlot_setMe (s : State) (x : Slot) : s.OnlySlot (s.setMe x) :=
  s.onlySlot_setHere _ rfl fun _ hn => Core.slot_setSlot_ne _ _ hn

theorem State.onlySlot_retireTo (s : State) (pc : Word) : s.OnlySlot (s.retireTo pc) where
  rest := s.retireTo_rest pc
  cores _ hc := s.retireTo_core pc hc
  here := s.retireTo_here pc
  slots _ hn := s.retireTo_slot pc hn

end

theorem State.me_retireTo_eq (s : State) (pc : Word) : (s.retireTo pc).me = s.me.retired pc := s.me_retireTo pc
theorem State.me_retire_eq (s : State) : s.retire.me = s.me.retired (s.me.pc + 12) := s.me_retireTo _

/-! ### Only the order that reads have learnt changes (R106, R107) -/

/-- From s to t the running firing has learnt an order, or nothing changed. -/
inductive State.Learns (s : State) : State → Prop
  | same : State.Learns s s
  | order (o : Order) : State.Learns s (s.setMe { s.me with order := o })

theorem Slot.learn_eq (x : Slot) (l : Seen) : x.learn l = { x with order := (x.learn l).order } := by
  unfold Slot.learn
  split <;> rfl

theorem State.learns_syncOn (s : State) (sc : Nat) (rs : List Release) : s.Learns (s.syncOn s.cur s.curSlot sc rs) := by
  unfold State.syncOn
  split
  · exact .same
  · unfold State.modSlot
    dsimp only
    rw [Slot.learn_eq]
    exact .order _

theorem State.learns_loadOrder (s : State) (modf a n : Nat) : s.Learns (s.loadOrder modf a n) := by
  unfold State.loadOrder
  dsimp only
  split
  · exact .same
  · split
    · exact s.learns_syncOn ..
    · exact .order _

theorem State.learns_acquired (s : State) (l : Seen) : s.Learns (s.acquired l) := by
  unfold State.acquired
  split
  · exact .same
  · unfold State.modMe
    dsimp only
    rw [Slot.learn_eq]
    exact .order _

theorem State.Learns.onlySlot {s t : State} (h : s.Learns t) : s.OnlySlot t := by
  cases h with
  | same => exact .refl s
  | order o => exact s.onlySlot_setMe _

end Sys2Proof.Machine
end

section

/-! PROOF. Operands and ports: what a source gives and a destination takes (O9; R92, R173, R174, R187, R189), and the pops and pushes of the
ports k4 to k7 (O10; R90, R91, R271). -/

namespace Sys2Proof.Machine

/-! ### Registers read after a write -/

theorem Slot.writeG_eq (x : Slot) (n : BitVec 5) (y : Word) : x.writeG n y = { x with g := (x.writeG n y).g } := by
  unfold Slot.writeG
  split <;> rfl
theorem Slot.writeP_eq (x : Slot) (n : BitVec 3) (y : Bool) : x.writeP n y = { x with p := (x.writeP n y).p } := by
  unfold Slot.writeP
  split <;> rfl
theorem Slot.writeW_eq (x : Slot) (n : BitVec 3) (y : Word) : x.writeW n y = { x with w := (x.writeW n y).w } := by
  unfold Slot.writeW
  split <;> rfl

/-- A write of one register of a file decides that register and no other. -/
theorem getElem_set_register {α : Type} {k : Nat} (r : Vector α (2 ^ k)) (n m : BitVec k) (y : α) :
    (r.set n.toNat y n.isLt)[m.toNat]'m.isLt = if m = n then y else r[m.toNat]'m.isLt := by
  rcases eq_or_ne m n with rfl | hm
  · simp
  · have : n.toNat ≠ m.toNat := fun e => hm (BitVec.eq_of_toNat_eq e.symm)
    rw [if_neg hm, Vector.getElem_set_ne _ _ this]

/-- As `getElem_set_register`, in a file whose register 0 reads as c and takes no write. -/
theorem getElem_set_register_ne_zero {α : Type} {k : Nat} (r : Vector α (2 ^ k)) (n m : BitVec k) (c y : α) :
    (if m = 0 then c else (if n = 0 then r else r.set n.toNat y n.isLt)[m.toNat]'m.isLt) =
      if m = n ∧ n ≠ 0 then y else if m = 0 then c else r[m.toNat]'m.isLt := by
  rcases eq_or_ne n 0 with rfl | hn
  · simp
  · rcases eq_or_ne m 0 with rfl | hm
    · rw [if_pos rfl, if_neg (fun h => hn h.1.symm), if_pos rfl]
    · rw [if_neg hm, if_neg hm, getElem_congr_coll (if_neg hn), getElem_set_register]
      simp only [hn, ne_eq, not_false_eq_true, and_true]

theorem Slot.writeG_g (x : Slot) (n : BitVec 5) (y : Word) : (x.writeG n y).g = if n = 0 then x.g else x.g.set n.toNat y n.isLt := by
  unfold Slot.writeG
  split <;> rfl
theorem Slot.writeP_p (x : Slot) (n : BitVec 3) (y : Bool) : (x.writeP n y).p = if n = 0 then x.p else x.p.set n.toNat y n.isLt := by
  unfold Slot.writeP
  split <;> rfl
theorem Slot.writeW_w (x : Slot) (n : BitVec 3) (y : Word) : (x.writeW n y).w = if n = 0 then x.w else x.w.set n.toNat y n.isLt := by
  unfold Slot.writeW
  split <;> rfl

theorem Slot.readG_writeG_ite (x : Slot) (n m : BitVec 5) (y : Word) :
    (x.writeG n y).readG m = if m = n ∧ n ≠ 0 then y else x.readG m := by
  simpa only [Slot.readG, Slot.writeG_g] using getElem_set_register_ne_zero (k := 5) x.g n m 0 y
theorem Slot.readP_writeP (x : Slot) (n m : BitVec 3) (y : Bool) :
    (x.writeP n y).readP m = if m = n ∧ n ≠ 0 then y else x.readP m := by
  simpa only [Slot.readP, Slot.writeP_p] using getElem_set_register_ne_zero (k := 3) x.p n m true y
theorem Slot.readW_writeW (x : Slot) (n m : BitVec 3) (y : Word) :
    (x.writeW n y).readW m = if m = n ∧ n ≠ 0 then y else x.readW m := by
  simpa only [Slot.readW, Slot.writeW_w] using getElem_set_register_ne_zero (k := 3) x.w n m (BitVec.allOnes 64) y
theorem Slot.readM_writeM (x : Slot) (n m : BitVec 2) (y : Members) : (x.writeM n y).readM m = if m = n then y else x.readM m :=
  getElem_set_register (k := 2) x.m n m y

/-! ### Destinations in the slot -/

@[simp] theorem State.dstV_v (s : State) (n : BitVec 5) (x : Line) : s.dstV (.v n) x = s.setMe (s.me.writeV n x) := rfl
@[simp] theorem State.dstP_p (s : State) (n : BitVec 3) (x : Bool) : s.dstP (.p n) x = s.setMe (s.me.writeP n x) := rfl
@[simp] theorem State.dstW_w (s : State) (n : BitVec 3) (x : Word) : s.dstW (.w n) x = s.setMe (s.me.writeW n x) := rfl
@[simp] theorem State.dstM_m (s : State) (n : BitVec 2) (x : Members) : s.dstM (.m n) x = s.setMe (s.me.writeM n x) := rfl

/-! ### Sources: a pop of a port -/

section
variable {s : State} {p : Nat} {q : QWord}

theorem State.pop_empty (h : s.peekPort p = none) : s.pop p = .error (.stall (.portEmpty p)) := by
  simp [State.pop, h]

theorem State.pop_word (h : s.peekPort p = some q) (quiet : q.tag = false ∨ s.lightOf p = none) : s.pop p = .ok (q.word, s.afterPop p) := by
  obtain h' | h' := quiet <;> simp [State.pop, h, h']

theorem State.pop_light {l : Nat} (h : s.peekPort p = some q) (tagged : q.tag = true) (light : s.lightOf p = some l) :
    s.pop p = .error (.light ((s.afterPop p).lightCall l q.word)) := by
  simp [State.pop, h, tagged, light]

end

/-- A light call changes the slot alone: its link registers, flag and pc (R92). -/
theorem State.slotwise_lightCall (s : State) (h : Nat) (v : Word) :
    s.Slotwise (s.lightCall h v) (({ (s.me.writeG 31 (s.me.pc + 12)).writeG 30 v with light := true, lightRet := s.me.pc + 12 } : Slot).retired
      (word (s.here.handler h).entry)) :=
  ⟨(s.onlySlot_setMe _).trans (State.onlySlot_retireTo ..), by
    rw [State.lightCall, State.me_retireTo_eq, State.modMe, State.me_setMe]⟩

/-- Settles O9, by operand class: sources first, then the destinations, each of which is a write to the running slot or a push. -/
theorem operandsReadAndWrite : Obligations.OperandsReadAndWrite := by
  refine ⟨fun _ _ => rfl, fun _ _ => rfl, fun _ => rfl, fun _ _ h => State.pop_empty h, fun _ _ _ h quiet => State.pop_word h quiet,
    fun _ _ _ _ h tagged light => ⟨_, State.pop_light h tagged light, State.slotwise_lightCall ..⟩,
    fun _ _ => rfl, fun _ _ => rfl, fun _ _ => rfl, fun _ _ => rfl, ?g, fun _ _ _ => rfl, fun _ _ => rfl, ?v, ?p, ?w, ?m, fun _ _ _ _ => rfl⟩
  case g =>
    exact fun s n x => ⟨_, State.dst_g s n x, s.onlySlot_setMe _, by
      rw [State.me_setMe]
      exact ⟨fun m => Slot.readG_writeG_ite .., Slot.writeG_eq ..⟩⟩
  case v =>
    exact fun s n x => ⟨_, State.dstV_v s n x, s.onlySlot_setMe _, by
      rw [State.me_setMe]
      exact ⟨fun m => Slot.readV_writeV .., rfl⟩⟩
  case p =>
    exact fun s n x => ⟨_, State.dstP_p s n x, s.onlySlot_setMe _, by
      rw [State.me_setMe]
      exact ⟨fun m => Slot.readP_writeP .., Slot.writeP_eq ..⟩⟩
  case w =>
    exact fun s n x => ⟨_, State.dstW_w s n x, s.onlySlot_setMe _, by
      rw [State.me_setMe]
      exact ⟨fun m => Slot.readW_writeW .., Slot.writeW_eq ..⟩⟩
  case m =>
    exact fun s n x => ⟨_, State.dstM_m s n x, s.onlySlot_setMe _, by
      rw [State.me_setMe]
      exact ⟨fun m => Slot.readM_writeM .., rfl⟩⟩

/-! ### Pops of k4 to k7 (R90, R271) -/

theorem State.afterPop_of_peek {s : State} {p : Nat} {q : QWord} (h : s.peekPort p = some q) :
    s.afterPop p = (s.takeWord p).acquired q.seen := by
  simp [State.afterPop, h]

theorem State.peek_take_ring4 {s : State} {q : QWord} {r : List QWord} (h : s.here.ring4 = q :: r) :
    s.peekPort 4 = some q ∧ s.takeWord 4 = s.setHere { s.here with ring4 := r } := by
  simp [State.peekPort, State.takeWord, h]
theorem State.peek_take_ring5 {s : State} {q : QWord} {r : List QWord} (h : s.here.ring5 = q :: r) :
    s.peekPort 5 = some q ∧ s.takeWord 5 = s.setHere { s.here with ring5 := r } := by
  simp [State.peekPort, State.takeWord, h]
theorem State.peek_take_completion {s : State} {q : QWord} {r : List QWord} (h : s.here.completions = q :: r) :
    s.peekPort 6 = some q ∧ s.takeWord 6 = s.setHere { s.here with completions := r, complUsed := s.here.complUsed - 1 } := by
  simp [State.peekPort, State.takeWord, h]
theorem State.peek_take_task {s : State} {w : Word} (h : s.me.task = some w) :
    s.peekPort 7 = some ⟨w, false, s.me.launch, []⟩ ∧ s.takeWord 7 = s.setMe { s.me with task := none } := by
  simp [State.peekPort, State.takeWord, State.modMe, h]
theorem State.peek_take_entry {s : State} {x : Task} (unread : s.me.task = none) (h : s.here.nextTask s.me.launch = some x) :
    s.peekPort 7 = some ⟨x.word, false, x.launch, x.seen⟩ ∧ s.takeWord 7 = s.takeTask s.cur x := by
  simp [State.peekPort, State.takeWord, unread, h]

theorem State.afterPop_of_peek_take {s t : State} {p : Nat} {q : QWord} (h : s.peekPort p = some q ∧ s.takeWord p = t) :
    s.peekPort p = some q ∧ s.afterPop p = t.acquired q.seen :=
  ⟨h.1, by rw [State.afterPop_of_peek h.1, h.2]⟩

theorem removeFirst_eq_erase {α : Type} [DecidableEq α] (x : α) (l : List α) : removeFirst x l = l.erase x := by
  induction l with
  | nil => rfl
  | cons y l ih => simp [removeFirst, List.erase_cons, ih]

@[simp] theorem State.here_post (s : State) (i : Instr) : (s.post i).here = s.here := by
  unfold State.post
  split <;> rfl
@[simp] theorem State.curSlot_post (s : State) (i : Instr) : (s.post i).curSlot = s.curSlot := by
  unfold State.post
  split <;> rfl

theorem State.here_addPending (s : State) (src : Source) (h l : Nat) :
    ∃ ps, (s.addPending s.cur src h l).here = { s.here with pending := ps } :=
  ⟨_, (State.here_post (s.setHere _) _).trans (s.here_setHere _)⟩

/-- The head of the task queue may become a pending firing, and nothing else changes on the core (R257). -/
theorem State.here_taskHead (s : State) : ∃ ps, (s.taskHead s.cur).here = { s.here with pending := ps } := by
  unfold State.taskHead
  dsimp only
  split
  · split
    · exact ⟨_, rfl⟩
    · exact s.here_addPending ..
  · exact ⟨_, rfl⟩

@[simp] theorem State.tasks_taskHead (s : State) : (s.taskHead s.cur).here.tasks = s.here.tasks := by
  obtain ⟨ps, h⟩ := s.here_taskHead
  rw [h]

@[simp] theorem State.curSlot_taskHead (s : State) (c : Nat) : (s.taskHead c).curSlot = s.curSlot := by
  unfold State.taskHead
  dsimp only
  split
  · split
    · rfl
    · exact State.curSlot_post ..
  · rfl

@[simp] theorem State.me_taskHead (s : State) : (s.taskHead s.cur).me = s.me := by
  obtain ⟨ps, h⟩ := s.here_taskHead
  rw [State.me_eq, h, State.curSlot_taskHead]
  rfl

/-- A task entry taken leaves the others in their order (R90). -/
theorem State.tasks_takeTask (s : State) (x : Task) : (s.takeTask s.cur x).here.tasks = s.here.tasks.erase x := by
  unfold State.takeTask
  dsimp only
  rw [← removeFirst_eq_erase]
  exact (State.tasks_taskHead (s.setHere _)).trans (by rw [State.here_setHere]; rfl)

theorem State.tasks_acquired (s : State) (l : Seen) : (s.acquired l).here.tasks = s.here.tasks := by
  have same := (s.learns_acquired l).onlySlot.here
  rw [same]

/-! ### Pushes at k4 to k7 (R90, R271) -/

theorem State.push_ring4 {s : State} (x : Word) (room : s.here.ringOut4.length + (s.core (succOf s.cur)).ring5.length < 16) :
    ∃ t, s.push 4 x = .ok t ∧ t.here = { s.here with ringOut4 := s.here.ringOut4 ++ [⟨x, false, s.me.launch, s.given⟩] } := by
  simp [State.push, State.pushRing, State.ringRoom4, room]
theorem State.push_ring4_full {s : State} (x : Word) (full : ¬ s.here.ringOut4.length + (s.core (succOf s.cur)).ring5.length < 16) :
    s.push 4 x = .error (.stall (.portFull 4)) := by
  simp [State.push, State.pushRing, State.ringRoom4, full]
theorem State.push_ring5 {s : State} (x : Word) (room : s.here.ringOut5.length + (s.core (predOf s.cur)).ring4.length < 16) :
    ∃ t, s.push 5 x = .ok t ∧ t.here = { s.here with ringOut5 := s.here.ringOut5 ++ [⟨x, false, s.me.launch, s.given⟩] } := by
  simp [State.push, State.pushRing, State.ringRoom5, room]
theorem State.push_ring5_full {s : State} (x : Word) (full : ¬ s.here.ringOut5.length + (s.core (predOf s.cur)).ring4.length < 16) :
    s.push 5 x = .error (.stall (.portFull 5)) := by
  simp [State.push, State.pushRing, State.ringRoom5, full]

/-- The argument count in the header of a command (R270). -/
theorem header_count (words : List Word) : bitsOf (msgWord words 1) 27 24 = (words.getD 1 0).toNat / 2 ^ 24 % 16 := by
  simp [bitsOf, msgWord, Nat.shiftRight_eq_div_pow]

section
variable {s : State} {x : Word} {words : List Word} (hw : words = s.me.cmd ++ [x])
include hw

theorem State.push_command_word (fits : words.length ≤ 16)
    (short : words.length = 1 ∨ words.length < (words.getD 1 0).toNat / 2 ^ 24 % 16 + 3) :
    s.push 6 x = .ok (s.setMe { s.me with cmd := words }) := by
  have short' : words.length < 2 ∨ words.length < bitsOf (msgWord words 1) 27 24 + 3 := by
    rw [header_count]
    omega
  simp only [State.push, ← hw]
  rw [if_neg (by decide), if_pos trivial, if_neg (by omega), if_pos short']
  rfl

theorem State.push_command_last {t : State} (fits : words.length ≤ 16)
    (last : (words.getD 1 0).toNat / 2 ^ 24 % 16 + 3 ≤ words.length)
    (sent : (s.setMe { s.me with cmd := [] }).sendCommand (words.getD 0 0) (words.getD 0 0 == 0) (words.getD 1 0)
      ((words.drop 2).take ((words.getD 1 0).toNat / 2 ^ 24 % 16)) (words.getD ((words.getD 1 0).toNat / 2 ^ 24 % 16 + 2) 0) = .ok t) :
    s.push 6 x = .ok t := by
  have long : ¬ (words.length < 2 ∨ words.length < bitsOf (msgWord words 1) 27 24 + 3) := by
    rw [header_count]
    omega
  rw [← header_count] at sent
  simp only [State.push, ← hw]
  rw [if_neg (by decide), if_pos trivial, if_neg (by omega), if_neg long]
  simp only [State.modMe, sent]

end

theorem State.push_command_full {s : State} (x : Word) (full : 16 ≤ s.me.cmd.length) : s.push 6 x = .error (.stall (.portFull 6)) := by
  have : 16 < (s.me.cmd ++ [x]).length := by simpa using Nat.lt_succ_of_le full
  simp only [State.push]
  rw [if_neg (by decide), if_pos trivial, if_pos this]

theorem State.push_task {s : State} (x : Word) (room : s.here.tasks.length < 32) : ∃ t, s.push 7 x = .ok t ∧
    t.here.tasks = s.here.tasks ++ [⟨s.me.handler, x, s.me.launch, s.given⟩] ∧ t.me = s.me ∧ t.mem = s.mem := by
  refine ⟨_, by simp only [State.push]; rw [if_neg (by decide), if_neg (by decide), if_pos room], ?_, ?_, ?_⟩
  · exact (State.tasks_taskHead (s.setHere _)).trans (by rw [State.here_setHere])
  · exact (State.me_taskHead (s.setHere _)).trans (by rw [State.me_setHere]; rfl)
  · simp
theorem State.push_task_full {s : State} (x : Word) (full : ¬ s.here.tasks.length < 32) : s.push 7 x = .error (.stall (.portFull 7)) := by
  simp [State.push, full]

/-- Settles O10, port by port: the pops of k4, k5, k6 and k7, then the pushes, with and without room. -/
theorem ringPortsPopAndPush : Obligations.RingPortsPopAndPush := by
  refine ⟨fun s q r h => State.afterPop_of_peek_take (State.peek_take_ring4 h),
    fun s q r h => State.afterPop_of_peek_take (State.peek_take_ring5 h),
    fun s q r h => State.afterPop_of_peek_take (State.peek_take_completion h),
    fun s w h => State.afterPop_of_peek_take (State.peek_take_task h), ?entry,
    fun s x => State.push_ring4 x, fun s x => State.push_ring4_full x, fun s x => State.push_ring5 x, fun s x => State.push_ring5_full x,
    fun s x words hw fits => ⟨State.push_command_word hw fits, fun _ _ => State.push_command_last hw fits⟩,
    fun s x => State.push_command_full x, fun s x => State.push_task x, fun s x => State.push_task_full x⟩
  case entry =>
    intro s x unread h
    have mine : x.launch = s.me.launch := by simpa using List.find?_some h
    obtain ⟨peek, pop⟩ := State.afterPop_of_peek_take (State.peek_take_entry unread h)
    exact ⟨mine ▸ peek, by rw [pop, State.tasks_acquired, State.tasks_takeTask]⟩

end Sys2Proof.Machine
end

section

/-! PROOF. Where a local access lands, and its faults by path, alignment and bounds (O31; R81, R83, R84, R183 check 8). -/

namespace Sys2Proof.Machine

theorem bitsOf_eq (x hi lo : Nat) : bitsOf x hi lo = x / 2 ^ lo % 2 ^ (hi + 1 - lo) := by
  rw [bitsOf, Nat.shiftRight_eq_div_pow]

theorem pathOf_eq (a : Word) : pathOf a = a.toNat / 2 ^ 60 := by
  rw [pathOf, bitsOf_eq]
  omega

/-- The fields of an address on path 0x4 within the 128 KiB of its offset (R81). -/
theorem pool_fields {a : Word} (path : pathOf a = 4) (low : a.toNat < 4 * 2 ^ 60 + 2 ^ 17) :
    bitsOf a.toNat 59 17 = 0 ∧ bitsOf a.toNat 16 0 = a.toNat - 4 * 2 ^ 60 := by
  rw [pathOf_eq] at path
  simp only [bitsOf_eq]
  omega

/-- The fields of an address on path 0x5 within the 512 KiB of its offset (R81). -/
theorem store_fields {a : Word} (path : pathOf a = 5) (low : a.toNat < 5 * 2 ^ 60 + 2 ^ 19) :
    bitsOf a.toNat 59 19 = 0 ∧ bitsOf a.toNat 18 0 = a.toNat - 5 * 2 ^ 60 := by
  rw [pathOf_eq] at path
  simp only [bitsOf_eq]
  omega

/-- Image granules are open to every launch (R84). -/
theorem checkGranules_image {k : Cluster} (cl l : Nat) (addr : Word) {gs : List Nat} (image : ∀ g ∈ gs, Tab.get .free k.granules g = .image) :
    checkGranules k cl l addr gs = .ok () := by
  induction gs with
  | nil => rfl
  | cons g gs ih =>
    have first : checkGranule k cl l g addr = .ok () := by rw [checkGranule, image g List.mem_cons_self]
    rw [checkGranules, first]
    exact ih fun g' h => image g' (List.mem_cons_of_mem _ h)

section
variable (s : State) {a : Word} {n k : Nat}

theorem State.checkLocal_path (pool : pathOf a ≠ 4) (store : pathOf a ≠ 5) :
    s.checkLocal a n k = .error (.trap 0x04 (word (pathOf a)) a) :=
  if_pos ⟨pool, store⟩

theorem State.checkLocal_align (path : pathOf a = 4 ∨ pathOf a = 5) (odd : a.toNat % k ≠ 0) :
    s.checkLocal a n k = .error (.trap 0x06 (word k) a) := by
  rw [State.checkLocal, if_neg (by omega), if_pos odd]

/-- An aligned access on path 0x4 within the offset's bits: bounds decide. -/
theorem State.checkLocal_pool (path : pathOf a = 4) (even : a.toNat % k = 0) (low : a.toNat < 4 * 2 ^ 60 + 2 ^ 17) (nonempty : 0 < n) :
    s.checkLocal a n k = if s.poolLimit s.cur < a.toNat - 4 * 2 ^ 60 + n then .error (.trap 0x05 (word (s.poolLimit s.cur)) a)
      else .ok (poolAt s.cur (a.toNat - 4 * 2 ^ 60)) := by
  obtain ⟨high, off⟩ := pool_fields path low
  have bounds : (a.toNat - 4 * 2 ^ 60 + n > s.poolLimit s.cur ∨ a.toNat - 4 * 2 ^ 60 ≥ s.poolLimit s.cur) ↔
      s.poolLimit s.cur < a.toNat - 4 * 2 ^ 60 + n := by
    omega
  rw [State.checkLocal, if_neg (by omega), if_neg (by omega), if_pos path, if_neg (by omega)]
  simp only [off, bounds]

/-- An aligned access on path 0x5 within the offset's bits: bounds come first. -/
theorem State.checkLocal_store_bounds (path : pathOf a = 5) (even : a.toNat % k = 0) (low : a.toNat < 5 * 2 ^ 60 + 2 ^ 19)
    (beyond : 524288 < a.toNat - 5 * 2 ^ 60 + n) : s.checkLocal a n k = .error (.trap 0x05 524288 a) := by
  obtain ⟨high, off⟩ := store_fields path low
  rw [State.checkLocal, if_neg (by omega), if_neg (by omega), if_neg (by omega), if_neg (by omega)]
  simp only [off]
  exact if_pos beyond

/-- Within bounds, its granules decide. -/
theorem State.checkLocal_store (path : pathOf a = 5) (even : a.toNat % k = 0) (low : a.toNat < 5 * 2 ^ 60 + 2 ^ 19)
    (inside : a.toNat - 5 * 2 ^ 60 + n ≤ 524288)
    (granules : checkGranules (s.cluster (clusterOf s.cur)) (clusterOf s.cur) s.me.launch a (granulesOf (a.toNat - 5 * 2 ^ 60) n) = .ok ()) :
    s.checkLocal a n k = .ok (storeAt (clusterOf s.cur) (a.toNat - 5 * 2 ^ 60)) := by
  obtain ⟨high, off⟩ := store_fields path low
  rw [State.checkLocal, if_neg (by omega), if_neg (by omega), if_neg (by omega), if_neg (by omega)]
  simp only [off]
  rw [if_neg (by omega), granules]

end

/-- Settles O31: each fault by the check that finds it, and the place where all pass. -/
theorem localAddressesAreChecked : Obligations.LocalAddressesAreChecked := by
  refine ⟨fun s _ _ _ pool store => s.checkLocal_path pool store, fun s _ _ _ path odd => s.checkLocal_align path odd,
    ?poolBound, ?pool, ?storeBound, ?store⟩
  case poolBound =>
    intro s a n k path even low nonempty beyond
    rw [s.checkLocal_pool path even low nonempty, if_pos beyond]
  case pool =>
    intro s a n k path even low nonempty inside
    rw [s.checkLocal_pool path even low nonempty, if_neg (by omega)]
  case storeBound =>
    exact fun s _ _ _ path even low beyond => s.checkLocal_store_bounds path even low beyond
  case store =>
    exact fun s _ _ _ path even low inside image => s.checkLocal_store path even low inside (checkGranules_image _ _ _ image)

end Sys2Proof.Machine
end

section

/-! PROOF. Rules for local accesses: what a fence's demotion, the order of a load or store and a full/empty bit leave unchanged,
and that a source or destination that answers was ready. -/

namespace Sys2Proof.Machine

/-! ### Issue -/

/-- An instruction that issues does what its body answers. -/
theorem State.issue_issues {s : State} {op : Nat} {f : Fields} (h : s.issues op f) (body : State → Res After) :
    s.issue op f body = .next (s.settle (body s)) := by
  obtain ⟨checks, guard, port⟩ := h
  exact s.issue_run op f body checks guard port

/-! ### Operations outside the slot -/

theorem State.post_rest (s : State) (i : Instr) : s.post i = { s with agenda := (s.post i).agenda } := by
  unfold State.post
  split <;> rfl

theorem State.demote_rest (s : State) (system : Bool) : s.demote system = { s with launches := (s.demote system).launches } := by
  unfold State.demote
  split
  · split
    · unfold State.modLaunch
      split <;> rfl
    · rfl
  · rfl

theorem State.setSyncs_rest (s : State) (a n : Nat) (l : List Release) :
    s.setSyncs a n l = { s with syncs := (s.setSyncs a n l).syncs, barriers := (s.setSyncs a n l).barriers } := by
  unfold State.setSyncs
  induction touched a n generalizing s with
  | nil => rfl
  | cons w ws ih => exact ih (s.setSync w l)

theorem State.bitChanged_rest (s : State) (a : Nat) : s.bitChanged a = { s with agenda := (s.bitChanged a).agenda } := by
  unfold State.bitChanged
  split
  · exact s.post_rest _
  · rfl

@[simp] theorem State.full_demote (s : State) (b : Bool) : (s.demote b).full = s.full := (congrArg State.full (s.demote_rest b) :)
@[simp] theorem State.me_demote (s : State) (b : Bool) : (s.demote b).me = s.me := (congrArg State.me (s.demote_rest b) :)
@[simp] theorem State.portRoom_demote (s : State) (b : Bool) : (s.demote b).portRoom = s.portRoom :=
  (congrArg State.portRoom (s.demote_rest b) :)

@[simp] theorem State.full_storeOrder (s : State) (modf a n : Nat) : (s.storeOrder modf a n).full = s.full :=
  (congrArg State.full (s.setSyncs_rest a n (s.storeReleases modf)) :)
@[simp] theorem State.me_storeOrder (s : State) (modf a n : Nat) : (s.storeOrder modf a n).me = s.me :=
  (congrArg State.me (s.setSyncs_rest a n (s.storeReleases modf)) :)

@[simp] theorem State.full_stored (s : State) (f : Fields) (a n : Nat) : (s.stored f a n).full = s.full := by simp [State.stored]
@[simp] theorem State.me_stored (s : State) (f : Fields) (a n : Nat) : (s.stored f a n).me = s.me := by simp [State.stored]

@[simp] theorem State.me_poke (s : State) (a n x : Nat) : (s.poke a n x).me = s.me := rfl
@[simp] theorem State.me_pokeWord (s : State) (a : Nat) (x : Word) : (s.pokeWord a x).me = s.me := rfl
@[simp] theorem State.full_pokeWord (s : State) (a : Nat) (x : Word) : (s.pokeWord a x).full = s.full := rfl
@[simp] theorem State.mem_pokeWord (s : State) (a : Nat) (x : Word) : (s.pokeWord a x).mem = Mem.writeN s.mem a 8 x.toNat := rfl

@[simp] theorem State.full_feDone (s : State) : s.feDone.full = s.full := rfl
@[simp] theorem State.me_feDone (s : State) : s.feDone.me = s.me := rfl

@[simp] theorem State.full_retire (s : State) : s.retire.full = s.full := rfl

/-! ### Full/empty bits (R87) -/

@[simp] theorem State.full_markWord (s : State) (a : Nat) (b : Bool) : (s.markWord a b).full = Full.put s.full (a / 8) b :=
  (congrArg State.full ((s.setFull a b).bitChanged_rest a) :)
@[simp] theorem State.me_markWord (s : State) (a : Nat) (b : Bool) : (s.markWord a b).me = s.me :=
  (congrArg State.me ((s.setFull a b).bitChanged_rest a) :)

theorem State.isFull_congr {s t : State} (h : t.full = s.full) (a : Nat) : t.isFull a = s.isFull a := by
  rw [State.isFull, h, State.isFull]

/-- Setting a word's bit decides it, and no other word's. -/
theorem State.isFull_markWord (s : State) (a : Nat) (b : Bool) (w : Nat) :
    (s.markWord a b).isFull (8 * w) = if w = a / 8 then b else s.isFull (8 * w) := by
  have bits := Full.mem_put s.full (a / 8) w b
  rw [State.isFull, State.isFull, State.full_markWord, Nat.mul_div_cancel_left w (by decide), Bool.eq_iff_iff]
  split <;> simp_all

/-! ### Loads (R105, R106) -/

@[simp] theorem State.core_ring4_setMe (s : State) (x : Slot) (c : Nat) : ((s.setMe x).core c).ring4 = (s.core c).ring4 := by
  by_cases h : c = s.cur
  · subst h
    exact (congrArg Core.ring4 (s.here_setMe x) :)
  · rw [(s.onlySlot_setMe x).cores c h]
@[simp] theorem State.core_ring5_setMe (s : State) (x : Slot) (c : Nat) : ((s.setMe x).core c).ring5 = (s.core c).ring5 := by
  by_cases h : c = s.cur
  · subst h
    exact (congrArg Core.ring5 (s.here_setMe x) :)
  · rw [(s.onlySlot_setMe x).cores c h]

/-- The room at a port is that of the queues and of the firing's own command. -/
theorem State.portRoom_setMe (s : State) {x : Slot} (h : x.cmd = s.me.cmd) : (s.setMe x).portRoom = s.portRoom := by
  funext p
  unfold State.portRoom State.ringRoom4 State.ringRoom5
  rw [State.me_setMe, State.here_setMe, State.core_ring4_setMe, State.core_ring5_setMe, h]
  rfl

theorem State.Learns.portRoom {s t : State} (h : s.Learns t) : t.portRoom = s.portRoom := by
  cases h with
  | same => rfl
  | order o => exact s.portRoom_setMe rfl

theorem State.learns_loaded (s : State) (f : Fields) (a n : Nat) : (s.demote (systemOrder f.modf.toNat)).Learns (s.loaded f a n) :=
  State.learns_loadOrder ..

@[simp] theorem State.full_loaded (s : State) (f : Fields) (a n : Nat) : (s.loaded f a n).full = s.full :=
  (s.learns_loaded f a n).onlySlot.full_eq.trans (s.full_demote _)
@[simp] theorem State.portRoom_loaded (s : State) (f : Fields) (a n : Nat) : (s.loaded f a n).portRoom = s.portRoom :=
  (s.learns_loaded f a n).portRoom.trans (s.portRoom_demote _)

/-! ### Operands that answer were ready (R40, R342) -/

theorem State.srcReady_of_src {s s' : State} {o : Operand} {b : Word} (h : s.src o = .ok (b, s')) : s.srcReady o = .ok () := by
  cases o with
  | port n =>
    cases empty : s.peekPort n.toNat with
    | none => rw [State.src_port, State.pop_empty empty] at h; nomatch h
    | some q => simp [State.srcReady, empty]
  | _ => rfl

theorem State.portRoom_of_push {s t : State} {p : Nat} {x : Word} (low : 4 ≤ p) (h : s.push p x = .ok t) : s.portRoom p = true := by
  by_contra full
  obtain rfl | rfl | rfl | task : p = 4 ∨ p = 5 ∨ p = 6 ∨ 6 < p := by omega
  · have : ¬ s.ringRoom4 = true := full
    simp [State.push, State.pushRing, this] at h
  · have : ¬ s.ringRoom5 = true := full
    simp [State.push, State.pushRing, this] at h
  · have : 16 ≤ s.me.cmd.length := by simpa [State.portRoom] using full
    rw [State.push_command_full x this] at h
    nomatch h
  · have other : p ≠ 4 ∧ p ≠ 5 ∧ p ≠ 6 ∧ ¬ p < 6 := by omega
    have : ¬ s.here.tasks.length < 32 := by simpa [State.portRoom, other] using full
    simp [State.push, other, this] at h

theorem State.dstReady_of_dst {s s' t : State} {o : Operand} {x : Word} (room : s'.portRoom = s.portRoom) (h : s'.dst o x = .ok t) :
    s.dstReady o = .ok () := by
  cases o with
  | port n =>
    refine if_neg fun ⟨low, full⟩ => ?_
    have := State.portRoom_of_push low h
    rw [room, full] at this
    nomatch this
  | _ => rfl

/-- A destination that is no port changes the slot alone. -/
theorem State.onlySlot_dst {s t : State} {o : Operand} {x : Word} (register : Operand.portNum o = none) (h : s.dst o x = .ok t) : s.OnlySlot t := by
  cases o with
  | port n => nomatch register
  | g n =>
    cases h
    exact s.onlySlot_setMe _
  | _ =>
    cases h
    exact .refl s

/-! ### Places (R94, R183) -/

theorem State.of_reach {s : State} {addr : Word} {n k a : Nat} (h : s.reach addr n k = .ok a) :
    s.checkLocal addr n k = .ok a ∧ s.unboarded a n addr = .ok () := by
  unfold State.reach at h
  cases place : s.checkLocal addr n k with
  | error e =>
    rw [place] at h
    nomatch h
  | ok b =>
    rw [place] at h
    cases free : s.unboarded b n addr with
    | error e => simp [bind, Except.bind, free] at h
    | ok _ =>
      obtain rfl : b = a := by simpa [bind, Except.bind, pure, Except.pure, free] using h
      exact ⟨rfl, free⟩

theorem State.reachAfter_of_reach {s : State} {addr : Word} {n k a : Nat} {ports : Res Unit} (h : s.reach addr n k = .ok a)
    (ready : ports = .ok ()) : s.reachAfter addr n k ports = .ok a := by
  subst ready
  exact h

end Sys2Proof.Machine
end

section

/-! PROOF. Full/empty accesses (O34; R87, R88, R242, R243). -/

namespace Sys2Proof.Machine
open Sys2Proof.Claims

/-! ### The full loads -/

/-- What `LDFE` and `LDFF` share: the checks and stalls of a full load, its destination, and what it makes of the state then. -/
def State.fullLoad (finish : State → Nat → State) (f : Fields) (s : State) : Res After :=
  match s.checkLocal (s.addr f.a 8) 8 8 with
  | .error e => .error e
  | .ok a =>
    match (do s.dstReady f.d; s.feReach f a true) with
    | .error e => .error e
    | .ok _ =>
      match (s.loaded f a 8).dst f.d (s.wordAt a) with
      | .error e => .error e
      | .ok s' => .ok (.seq (finish s' a))

theorem exec_ldfe (f : Fields) (s : State) :
    exec (.ldfe f) s = s.issue 0x86 f (State.fullLoad (fun t a => t.feDone.markWord a false) f) := rfl
theorem exec_ldff (f : Fields) (s : State) : exec (.ldff f) s = s.issue 0x87 f (State.fullLoad (fun t _ => t.feDone) f) := rfl

theorem State.feReach_of_ready {s : State} {f : Fields} {a : Nat} {full : Bool} (ready : s.feReady a full = true)
    (free : s.unboarded a 8 (s.addr f.a 8) = .ok ()) : s.feReach f a full = .ok () := by
  rw [State.feReach, if_pos ready, free]
theorem State.feReach_of_waits {s : State} (f : Fields) {a : Nat} {full : Bool} (waits : s.feReady a full = false) :
    s.feReach f a full = .error (.stall (.feBit a full)) := by
  rw [State.feReach, waits, if_neg (by decide)]

section
variable {s : State} {f : Fields} {a : Nat} (finish : State → Nat → State)

theorem State.fullLoad_proceeds {t : State} (place : s.reach (s.addr f.a 8) 8 8 = .ok a) (ready : s.feReady a true = true)
    (dst : (s.loaded f a 8).dst f.d (s.wordAt a) = .ok t) : s.fullLoad finish f = .ok (.seq (finish t a)) := by
  obtain ⟨place, free⟩ := State.of_reach place
  have port := State.dstReady_of_dst (s.portRoom_loaded f a 8) dst
  simp [State.fullLoad, place, port, State.feReach_of_ready ready free, dst, bind, Except.bind]

theorem State.fullLoad_port (place : s.checkLocal (s.addr f.a 8) 8 8 = .ok a) {w : Stall} (port : s.dstReady f.d = .error (.stall w)) :
    s.fullLoad finish f = .error (.stall w) := by
  simp [State.fullLoad, place, port, bind, Except.bind]

theorem State.fullLoad_waits (place : s.checkLocal (s.addr f.a 8) 8 8 = .ok a) (port : s.dstReady f.d = .ok ())
    (waits : s.feReady a true = false) : s.fullLoad finish f = .error (.stall (.feBit a true)) := by
  simp [State.fullLoad, place, port, State.feReach_of_waits f waits, bind, Except.bind]

end

/-- A full load into a register, or into nothing, leaves memory and bits as they were until its word's bit is put. -/
theorem State.dst_loaded_kept {s t : State} {f : Fields} {a n : Nat} {x : Word} (register : Operand.portNum f.d = none)
    (dst : (s.loaded f a n).dst f.d x = .ok t) : t.mem = s.mem ∧ t.full = s.full := by
  have slot := State.onlySlot_dst register dst
  exact ⟨slot.mem_eq.trans (s.loaded_mem f a n), slot.full_eq.trans (s.full_loaded f a n)⟩

/-- Putting a word's bit once an access is over leaves memory, and every other word's bit. -/
theorem State.marks_markWord {s t : State} (kept : t.mem = s.mem ∧ t.full = s.full) (a : Nat) (b : Bool) :
    marks s (t.markWord a b).retire a b := by
  obtain ⟨mem, full⟩ := kept
  exact ⟨(t.markWord_mem a b).trans mem, fun w => by
    rw [State.isFull_congr (State.full_retire _), State.isFull_markWord, State.isFull_congr full]⟩

/-! ### The stores, and `FEMARK` -/

section
variable {s s1 : State} {f : Fields} {a : Nat} {b : Word}

theorem execStef_proceeds (h : s.issues 0x88 f) (place : s.reach (s.addr f.a 8) 8 8 = .ok a) (src : s.src f.b = .ok (b, s1))
    (ready : s.feReady a false = true) :
    exec (.stef f) s = .next (((s1.pokeWord a b).stored f a 8).feDone.markWord a true).retire := by
  obtain ⟨place, free⟩ := State.of_reach place
  change execStef f s = _
  rw [execStef, State.issue_issues h]
  simp [place, src, State.feReach_of_ready ready free]

theorem execStef_waits (h : s.issues 0x88 f) (place : s.checkLocal (s.addr f.a 8) 8 8 = .ok a) (src : s.src f.b = .ok (b, s1))
    (waits : s.feReady a false = false) : exec (.stef f) s = .next (s.stallMe (.feBit a false)) := by
  change execStef f s = _
  rw [execStef, State.issue_issues h]
  simp [place, src, State.feReach_of_waits f waits]

theorem execStxf_stores (h : s.issues 0x89 f) (place : s.reach (s.addr f.a 8) 8 8 = .ok a) (src : s.src f.b = .ok (b, s1)) :
    exec (.stxf f) s = .next (((s1.pokeWord a b).stored f a 8).markWord a true).retire := by
  change execStxf f s = _
  rw [execStxf, State.issue_issues h]
  simp [State.reachAfter_of_reach place (State.srcReady_of_src src), src]

theorem execFemark_marks (h : s.issues 0x8A f) (place : s.reach (s.addr f.a 8) 8 8 = .ok a) :
    exec (.femark f) s = .next (s.markWord a (f.modf.getLsbD 0)).retire := by
  change execFemark f s = _
  rw [execFemark, State.issue_issues h]
  simp only [place]
  rfl

end

/-- A full store's word, its bit, and its slot: t is the state as the word's bit is put. -/
theorem State.fullStore_frame (s t : State) (a : Nat) (x : Word) (mem : t.mem = Mem.writeN s.mem a 8 x.toNat) (full : t.full = s.full)
    (me : t.me = s.me) : (t.markWord a true).retire.mem = Mem.writeN s.mem a 8 x.toNat ∧
      (∀ w, (t.markWord a true).retire.isFull (8 * w) = if w = a / 8 then true else s.isFull (8 * w)) ∧
      (t.markWord a true).retire.me = s.me.retired (s.me.pc + 12) := by
  refine ⟨?_, fun w => ?_, ?_⟩
  · rw [State.retire_mem, State.markWord_mem, mem]
  · rw [State.isFull_congr (State.full_retire _), State.isFull_markWord, State.isFull_congr full]
  · rw [State.me_retire_eq, State.me_markWord, me]

/-- Settles O34, instruction by instruction: what proceeds, and then what stalls. -/
theorem fullEmptyAccesses : Obligations.FullEmptyAccesses := by
  refine ⟨?ldfe, ?ldff, ?stef, ?stxf, ?femark, ?loadStalls, fun f s s1 b a => execStef_waits⟩
  case ldfe =>
    intro f s t a h place ready dst
    refine ⟨?_, fun register => State.marks_markWord (t := t.feDone) (State.dst_loaded_kept (t := t) register dst) a false⟩
    rw [exec_ldfe, State.issue_issues h, State.fullLoad_proceeds _ place ready dst, State.settle_seq]
  case ldff =>
    intro f s t a h place ready dst
    refine ⟨?_, fun register => State.dst_loaded_kept (t := t) register dst⟩
    rw [exec_ldff, State.issue_issues h, State.fullLoad_proceeds _ place ready dst, State.settle_seq]
  case stef =>
    intro f s s1 b a h place src ready
    exact ⟨_, execStef_proceeds h place src ready, State.fullStore_frame s1 _ a b (by simp) (by simp) (by simp)⟩
  case stxf =>
    intro f s s1 b a h place src
    exact ⟨_, execStxf_stores h place src, State.fullStore_frame s1 _ a b (by simp) (by simp) (by simp)⟩
  case femark =>
    intro f s a h place
    exact ⟨_, execFemark_marks h place, State.marks_markWord ⟨rfl, rfl⟩ a _, by rw [State.me_retire_eq, State.me_markWord]⟩
  case loadStalls =>
    intro e he f s a h place
    have body : ∃ finish, exec (e.1 f) s = s.issue e.2 f (State.fullLoad finish f) := by
      obtain rfl | rfl : e = (Instr.ldfe, 0x86) ∨ e = (Instr.ldff, 0x87) := by simpa using he
      · exact ⟨_, exec_ldfe f s⟩
      · exact ⟨_, exec_ldff f s⟩
    obtain ⟨finish, body⟩ := body
    refine ⟨fun port waits => ?_, fun w port => ?_⟩ <;> rw [body, State.issue_issues h]
    · rw [State.fullLoad_waits finish place port waits, State.settle_stall]
    · rw [State.fullLoad_port finish place port, State.settle_stall]

end Sys2Proof.Machine
end

section

/-! PROOF. The two words of a barrier (R95, R96): what they hold after they are written, after an arrival and after an expectation, in the terms
of the claims. -/

namespace Sys2Proof.Machine
open Sys2Proof.Claims

/-! ### Two words written side by side -/

/-- A number's bytes beyond those written do not matter. -/
theorem Mem.writeN_add_mul (m : Mem) (a n x y : Nat) : Mem.writeN m a n (x + 256 ^ n * y) = Mem.writeN m a n x := by
  induction n generalizing m a x with
  | zero => rfl
  | succ n ih =>
    have shifted : x + 256 ^ (n + 1) * y = x + 256 * (256 ^ n * y) := by ring
    have byte : BitVec.ofNat 8 (x + 256 * (256 ^ n * y)) = BitVec.ofNat 8 x := BitVec.eq_of_toNat_eq (by simp [Nat.add_mul_mod_self_left])
    rw [shifted, Mem.writeN, Mem.writeN, byte, Nat.add_mul_div_left _ _ (by decide), ih]

/-- A number is written part by part. -/
theorem Mem.writeN_add (m : Mem) (a n k x : Nat) : Mem.writeN m a (n + k) x = Mem.writeN (Mem.writeN m a n x) (a + n) k (x / 256 ^ n) := by
  induction n generalizing m a x with
  | zero => simp [Mem.writeN]
  | succ n ih =>
    rw [Nat.succ_add, Mem.writeN, ih, Mem.writeN, Nat.succ_add_eq_add_succ, Nat.div_div_eq_div_mul, Nat.pow_succ']

/-- Two words side by side are one number of 16 bytes. -/
theorem Mem.writeN_words (m : Mem) (a y : Nat) {x : Nat} (h : x < 2 ^ 64) :
    Mem.writeN (Mem.writeN m a 8 x) (a + 8) 8 y = Mem.writeN m a 16 (x + 2 ^ 64 * y) := by
  have high : (x + 256 ^ 8 * y) / 256 ^ 8 = y := by omega
  rw [show (2 : Nat) ^ 64 = 256 ^ 8 by norm_num, show (16 : Nat) = 8 + 8 from rfl, Mem.writeN_add, Mem.writeN_add_mul, high]

theorem Mem.word_writeN_self (m : Mem) (a x : Nat) : Mem.word (Mem.writeN m a 8 x) a = BitVec.ofNat 64 x := by
  rw [Mem.word, Mem.readN_writeN]
  exact BitVec.eq_of_toNat_eq (by simp)
theorem Mem.word_writeN_out (m : Mem) {a b : Nat} (n x : Nat) (h : b + 8 ≤ a ∨ a + n ≤ b) : Mem.word (Mem.writeN m a n x) b = Mem.word m b := by
  rw [Mem.word, Mem.readN_congr _ m b 8 fun i _ _ => Mem.read_writeN_out m a n x i (by omega), Mem.word]

/-! ### The fields of a word -/

theorem barrierOf_ofNat (x y : Nat) :
    barrierOf (BitVec.ofNat 64 x) (BitVec.ofNat 64 y) = ⟨x % 2 ^ 48, y % 2 ^ 48, y % 2 ^ 64 / 2 ^ 48, x.testBit 48, x.testBit 59⟩ := by
  simp only [barrierOf, BitVec.toNat_ofNat, BitVec.getLsbD_ofNat, Barrier.mk.injEq]
  refine ⟨by omega, by omega, trivial, by simp, by simp⟩

theorem barWord_mod (w : Nat) (p : Bool) (r : Nat) : barWord w p r % 2 ^ 48 = r % 2 ^ 48 := by
  unfold barWord
  omega

theorem barWord_eq (w : Nat) (p : Bool) (r : Nat) : barWord w p r = 2 ^ 49 * (w / 2 ^ 49) + (2 ^ 48 * boolNat p + r % 2 ^ 48) := by
  unfold barWord
  ring

theorem barWord_low_lt (p : Bool) (r : Nat) : 2 ^ 48 * boolNat p + r % 2 ^ 48 < 2 ^ 49 := by
  cases p <;> simp [boolNat] <;> omega

theorem testBit_barWord_phase (w : Nat) (p : Bool) (r : Nat) : (barWord w p r).testBit 48 = p := by
  rw [barWord_eq, Nat.testBit_two_pow_mul_add _ (barWord_low_lt p r), if_pos (by decide), Nat.testBit_two_pow_mul_add _ (Nat.mod_lt _ (by decide))]
  cases p <;> simp [boolNat]

theorem testBit_barWord_flag (w : Nat) (p : Bool) (r : Nat) {i : Nat} (h : 49 ≤ i) : (barWord w p r).testBit i = w.testBit i := by
  rw [barWord_eq, Nat.testBit_two_pow_mul_add _ (barWord_low_lt p r), if_neg (by omega), ← Nat.shiftRight_eq_div_pow, Nat.testBit_shiftRight,
    Nat.add_sub_cancel' h]

/-- A word with the overrun flag set where o holds. -/
theorem testBit_flagged (w : Nat) (o : Prop) [Decidable o] (i : Nat) :
    (if o then w ||| flagOverrun else w).testBit i = (w.testBit i || (decide o && decide (i = 59))) := by
  split
  · rw [Nat.testBit_or, flagOverrun, Nat.testBit_two_pow]
    simp [eq_comm, *]
  · simp [*]
theorem mod_flagged (w : Nat) (o : Prop) [Decidable o] : (if o then w ||| flagOverrun else w) % 2 ^ 48 = w % 2 ^ 48 := by
  split
  · rw [Nat.or_mod_two_pow, flagOverrun]
    simp
  · rfl

end Sys2Proof.Machine
end

section

/-! PROOF. What `BEXPECT` and `BARRIVE` make of a barrier's two words, against the claims' barrier (R96, R246). -/

namespace Sys2Proof.Machine
open Sys2Proof.Claims

theorem barRemaining_eq (w : Nat) : barRemaining w = w % 2 ^ 48 := by
  simp [barRemaining, bitsOf_eq]
theorem barReload_eq (w : Nat) : bitsOf w 47 0 = w % 2 ^ 48 := barRemaining_eq w
theorem barArrivals_eq (w : Word) : bitsOf w.toNat 63 48 = w.toNat / 2 ^ 48 := by
  rw [bitsOf_eq]
  omega

/-- Word 1 of a barrier from its two fields. -/
theorem barrierWord1 {k r : Nat} (hk : k < 2 ^ 16) (hr : r < 2 ^ 48) :
    (k * 2 ^ 48 + r) % 2 ^ 48 = r ∧ (k * 2 ^ 48 + r) % 2 ^ 64 / 2 ^ 48 = k := by
  omega

/-- The overrun flag is not the phase. -/
theorem barPhase_flagged (w : Nat) (o : Prop) [Decidable o] : barPhase (if o then w ||| flagOverrun else w) = barPhase w := by
  rw [barPhase, barPhase, bitOf, testBit_flagged, bitOf]
  simp

/-! ### Arrivals (R96) -/

theorem arriveWords_nothing (w0 w1 : Nat) : arriveWords w0 w1 0 0 = (w0, w1) := by
  simp [arriveWords]

theorem arriveWords_short (w0 w1 : Nat) {n : Nat} (nonzero : n ≠ 0) (short : n < barRemaining w0) :
    arriveWords w0 w1 n 0 = (barWord w0 (barPhase w0) (barRemaining w0 - n), (bitsOf w1 63 48 + 1) % 65536 * 2 ^ 48 + bitsOf w1 47 0) := by
  simp [arriveWords, barrierFlips, nonzero, short]

theorem arriveWords_flip (w0 w1 : Nat) {n : Nat} (nonzero : n ≠ 0) (flip : ¬ n < barRemaining w0) :
    arriveWords w0 w1 n 0 =
      (barWord (if 0 < n - barRemaining w0 then w0 ||| flagOverrun else w0)
        (barPhase w0 != (barrierFlips w0 w1 n % 2 == 1)) (if 0 < bitsOf w1 47 0 then bitsOf w1 47 0 - (n - barRemaining w0) % bitsOf w1 47 0 else 0),
       (bitsOf w1 63 48 + 1) % 65536 * 2 ^ 48 + bitsOf w1 47 0) := by
  have flips : barrierFlips w0 w1 n ≠ 0 := by
    simp only [barrierFlips]
    rw [if_neg (by omega)]
    split <;> simp
  simp [arriveWords, nonzero, flips, barPhase_flagged]

theorem barrierFlips_flip (w0 w1 : Nat) {n : Nat} (nonzero : n ≠ 0) (flip : ¬ n < barRemaining w0) :
    barrierFlips w0 w1 n = if bitsOf w1 47 0 = 0 then 1 else 1 + (n - barRemaining w0) / bitsOf w1 47 0 := by
  simp only [barrierFlips]
  rw [if_neg (by omega)]
  by_cases reload : bitsOf w1 47 0 = 0
  · rw [if_neg (by omega), if_pos reload]
  · by_cases beyond : barRemaining w0 < n
    · rw [if_pos ⟨beyond, by omega⟩, if_neg reload]
    · rw [if_neg (by omega), if_neg reload, show n - barRemaining w0 = 0 by omega, Nat.zero_div]

/-- An arrival on the two words is an arrival at the barrier that they hold. -/
theorem barrierOf_arriveWords (w0 w1 : Word) (n : Nat) :
    barrierOf (BitVec.ofNat 64 (arriveWords w0.toNat w1.toNat n 0).1) (BitVec.ofNat 64 (arriveWords w0.toNat w1.toNat n 0).2) =
      (barrierOf w0 w1).arrive n := by
  have word1 : ((bitsOf w1.toNat 63 48 + 1) % 65536 * 2 ^ 48 + bitsOf w1.toNat 47 0) % 2 ^ 48 = w1.toNat % 2 ^ 48 ∧
      ((bitsOf w1.toNat 63 48 + 1) % 65536 * 2 ^ 48 + bitsOf w1.toNat 47 0) % 2 ^ 64 / 2 ^ 48 = (w1.toNat / 2 ^ 48 + 1) % 65536 := by
    rw [barReload_eq, barArrivals_eq]
    exact barrierWord1 (by omega) (by omega)
  by_cases nonzero : n = 0
  · subst n
    rw [arriveWords_nothing, Barrier.arrive, if_pos rfl, BitVec.ofNat_toNat, BitVec.ofNat_toNat, BitVec.setWidth_eq, BitVec.setWidth_eq]
  · by_cases short : n < barRemaining w0.toNat
    · rw [arriveWords_short _ _ nonzero short, barrierOf_ofNat, word1.1, word1.2, barWord_mod, testBit_barWord_phase,
        testBit_barWord_flag _ _ _ (by decide)]
      rw [barRemaining_eq] at short ⊢
      simp only [Barrier.arrive, barrierOf, nonzero, short, if_false, if_true, Barrier.mk.injEq]
      exact ⟨by omega, trivial, trivial, rfl, rfl⟩
    · rw [arriveWords_flip _ _ nonzero short, barrierOf_ofNat, word1.1, word1.2, barWord_mod, testBit_barWord_phase,
        testBit_barWord_flag _ _ _ (by decide), testBit_flagged, barrierFlips_flip _ _ nonzero short, barReload_eq]
      rw [barRemaining_eq] at short ⊢
      simp only [Barrier.arrive, barrierOf, nonzero, short, if_false, Barrier.mk.injEq]
      refine ⟨?remaining, trivial, trivial, ?phase, ?overrun⟩
      case remaining =>
        by_cases reload : w1.toNat % 2 ^ 48 = 0
        · rw [if_neg (by omega)]
          exact (if_pos reload).symm
        · rw [if_pos (by omega)]
          exact (Nat.mod_eq_of_lt (by omega)).trans (if_neg reload).symm
      case phase => rfl
      case overrun =>
        rw [decide_true, Bool.and_true]
        rfl

/-- An arrival changes no flag of word 0 but the overrun flag. -/
theorem testBit_arriveWords (w0 w1 n : Nat) {i : Nat} (h : 49 ≤ i) (other : i ≠ 59) :
    (arriveWords w0 w1 n 0).1.testBit i = w0.testBit i := by
  by_cases nonzero : n = 0
  · rw [nonzero, arriveWords_nothing]
  · by_cases short : n < barRemaining w0
    · rw [arriveWords_short _ _ nonzero short, testBit_barWord_flag _ _ _ h]
    · rw [arriveWords_flip _ _ nonzero short, testBit_barWord_flag _ _ _ h, testBit_flagged]
      simp [other]

/-! ### Expectations (R246) -/

theorem expectWords_fst (w0 w1 b : Nat) (rl : Bool) : (expectWords w0 w1 b rl).1 =
    if decide (2 ^ 48 ≤ w0 % 2 ^ 48 + b) || (rl && decide (2 ^ 48 ≤ w1 % 2 ^ 48 + b)) then
      barWord w0 (barPhase w0) (min (w0 % 2 ^ 48 + b) (2 ^ 48 - 1)) ||| flagOverrun
    else barWord w0 (barPhase w0) (min (w0 % 2 ^ 48 + b) (2 ^ 48 - 1)) := by
  simp only [expectWords, barRemaining_eq, barReload_eq]
  rfl

theorem expectWords_snd (w0 w1 b : Nat) (rl : Bool) : (expectWords w0 w1 b rl).2 =
    if rl then w1 / 2 ^ 48 * 2 ^ 48 + min (w1 % 2 ^ 48 + b) (2 ^ 48 - 1) else w1 := by
  simp only [expectWords, barReload_eq]

/-- An expectation on the two words is one at the barrier that they hold. -/
theorem barrierOf_expectWords (w0 w1 : Word) (b : Nat) (rl : Bool) :
    barrierOf (BitVec.ofNat 64 (expectWords w0.toNat w1.toNat b rl).1) (BitVec.ofNat 64 (expectWords w0.toNat w1.toNat b rl).2) =
      (barrierOf w0 w1).expect b rl := by
  rw [barrierOf_ofNat, expectWords_fst, expectWords_snd, mod_flagged, testBit_flagged, testBit_flagged, barWord_mod, testBit_barWord_phase,
    testBit_barWord_flag _ _ _ (by decide)]
  simp only [Barrier.expect, barrierOf, Barrier.mk.injEq]
  refine ⟨Nat.mod_eq_of_lt (by omega), ?reload, ?arrivals, ?phase, ?overrun⟩
  case reload => cases rl <;> simp
  case arrivals => cases rl <;> simp <;> omega
  case phase =>
    rw [decide_eq_false (p := (48 : Nat) = 59) (by decide), Bool.and_false, Bool.or_false]
    rfl
  case overrun =>
    rw [Bool.decide_coe, decide_true, Bool.and_true, ← Bool.or_assoc]
    rfl

/-- An expectation changes no flag of word 0 but the overrun flag. -/
theorem testBit_expectWords (w0 w1 b : Nat) (rl : Bool) {i : Nat} (h : 49 ≤ i) (other : i ≠ 59) :
    (expectWords w0 w1 b rl).1.testBit i = w0.testBit i := by
  rw [expectWords_fst, testBit_flagged, testBit_barWord_flag _ _ _ h]
  simp [other]

end Sys2Proof.Machine
end

section

/-! PROOF. The barrier instructions (O36; R95, R96, R106, R110, R116, R245, R246). -/

namespace Sys2Proof.Machine
open Sys2Proof.Claims

/-! ### Two words of a state -/

section
variable (s : State) (a x y : Nat)

theorem State.wordAt_pokes_low : ((s.poke a 8 x).poke (a + 8) 8 y).wordAt a = BitVec.ofNat 64 x := by
  rw [State.wordAt, State.poke_mem, State.poke_mem, Mem.word_writeN_out _ _ _ (.inl (Nat.le_refl _)), Mem.word_writeN_self]
theorem State.wordAt_pokes_high : ((s.poke a 8 x).poke (a + 8) 8 y).wordAt (a + 8) = BitVec.ofNat 64 y := by
  rw [State.wordAt, State.poke_mem, Mem.word_writeN_self]
theorem State.read_pokes_out {i : Nat} (h : i < a ∨ a + 16 ≤ i) : ((s.poke a 8 x).poke (a + 8) 8 y).mem.read i = s.mem.read i := by
  rw [State.poke_mem, State.poke_mem, Mem.read_writeN_out _ _ _ _ _ (by omega), Mem.read_writeN_out _ _ _ _ _ (by omega)]

end

theorem State.wordAt_congr {s t : State} (h : t.mem = s.mem) (a : Nat) : t.wordAt a = s.wordAt a := by
  rw [State.wordAt, h, State.wordAt]
theorem barrierAt_congr {s t : State} (h : t.mem = s.mem) (a : Nat) : barrierAt t a = barrierAt s a := by
  rw [barrierAt, State.wordAt_congr h, State.wordAt_congr h, barrierAt]

/-- A state whose memory is that of s with two new words at a barrier, of which the first keeps the flags. -/
theorem onlyBarrier_of_pokes {s t : State} {a x y : Nat} (mem : t.mem = ((s.poke a 8 x).poke (a + 8) 8 y).mem) (full : t.full = s.full)
    (flags : ∀ i, 49 ≤ i → i ≠ 59 → x.testBit i = (s.wordAt a).toNat.testBit i) : onlyBarrier s t a := by
  refine ⟨fun i out => ?_, full, fun i low high other => ?_⟩
  · rw [mem, State.read_pokes_out _ _ _ _ out]
  · rw [State.wordAt_congr mem, State.wordAt_pokes_low, BitVec.getLsbD_ofNat, flags i low other, decide_eq_true high, Bool.true_and]
    rfl

/-! ### What the instructions do -/

section
variable {s s1 : State} {f : Fields} {a : Nat} {b : Word}

theorem State.barrierOperands_ok (place : s.reach (s.addr f.a 16) 16 16 = .ok a) (src : s.src f.b = .ok (b, s1)) (fits : b.toNat < 2 ^ 48) :
    s.barrierOperands f = .ok (b.toNat, a, s1) := by
  rw [State.barrierOperands, State.reachAfter_of_reach place (State.srcReady_of_src src)]
  simp only [src]
  exact if_neg (by omega)

theorem State.barrierOperands_large (place : s.reach (s.addr f.a 16) 16 16 = .ok a) (src : s.src f.b = .ok (b, s1))
    (large : 2 ^ 48 ≤ b.toNat) : s.barrierOperands f = .error (.field 4) := by
  rw [State.barrierOperands, State.reachAfter_of_reach place (State.srcReady_of_src src)]
  simp only [src]
  exact if_pos large

theorem execBinit_stores (h : s.issues 0x90 f) (operands : s.barrierOperands f = .ok (b.toNat, a, s1)) :
    exec (.binit f) s = .next (((s1.poke a 8 b.toNat).poke (a + 8) 8 b.toNat).storeOrder 0 a 16).retire := by
  change execBinit f s = _
  rw [execBinit, State.issue_issues h]
  simp [operands]

theorem execBinit_faults (h : s.issues 0x90 f) (operands : s.barrierOperands f = .error (.field 4)) :
    exec (.binit f) s = .next (s.takeExact 0x02 4 0) := by
  change execBinit f s = _
  rw [execBinit, State.issue_issues h]
  simp only [operands]
  rfl

theorem execBexpect_stores (h : s.issues 0x91 f) (operands : s.barrierOperands f = .ok (b.toNat, a, s1)) :
    exec (.bexpect f) s = .next ((s1.poke a 8 (expectWords (s1.wordAt a).toNat (s1.wordAt (a + 8)).toNat b.toNat (f.modf.getLsbD 0)).1).poke (a + 8) 8
      (expectWords (s1.wordAt a).toNat (s1.wordAt (a + 8)).toNat b.toNat (f.modf.getLsbD 0)).2).retire := by
  change execBexpect f s = _
  rw [execBexpect, State.issue_issues h]
  simp only [operands]
  rfl

theorem execBarrive_arrives (h : s.issues 0x92 f) (operands : s.barrierOperands f = .ok (b.toNat, a, s1)) :
    exec (.barrive f) s = .next ((s1.arrive s1.myTenant s1.cur a (a + 8) b.toNat 0 s1.me.order.seen []).demote true).retire := by
  change execBarrive f s = _
  rw [execBarrive, State.issue_issues h]
  simp only [operands]
  rfl

theorem execBpoll_reads {t : State} (h : s.issues 0x93 f) (place : s.reach (s.addr f.a 16) 16 16 = .ok a) (ready : s.dstReady f.d = .ok ())
    (dst : (s.polled f a).dst f.d (s.wordAt a) = .ok t) : exec (.bpoll f) s = .next t.retire := by
  change execBpoll f s = _
  rw [execBpoll, State.issue_issues h, State.reachAfter_of_reach place ready]
  simp only [dst]
  rfl

end

/-! ### `BPOLL`'s order (R106, R116) -/

theorem State.learns_polled (s : State) (f : Fields) (a : Nat) :
    (if f.bits 2 1 = 1 then s.demote true else s).Learns (s.polled f a) := by
  unfold State.polled
  split
  · exact State.learns_syncOn ..
  · exact State.learns_loadOrder ..

theorem State.full_polled (s : State) (f : Fields) (a : Nat) : (s.polled f a).full = s.full := by
  rw [(s.learns_polled f a).onlySlot.full_eq]
  split
  · exact s.full_demote _
  · rfl
theorem State.portRoom_polled (s : State) (f : Fields) (a : Nat) : (s.polled f a).portRoom = s.portRoom := by
  rw [(s.learns_polled f a).portRoom]
  split
  · exact s.portRoom_demote _
  · rfl

/-! ### An arrival and the waits at its barrier (R110, R194) -/

/-- From s to t the running slot and every full/empty bit are kept. -/
structure State.KeepsMe (s t : State) : Prop where
  me : t.me = s.me
  full : t.full = s.full

theorem State.KeepsMe.refl (s : State) : s.KeepsMe s := ⟨rfl, rfl⟩
theorem State.KeepsMe.trans {s t u : State} (h : s.KeepsMe t) (h' : t.KeepsMe u) : s.KeepsMe u :=
  ⟨h'.me.trans h.me, h'.full.trans h.full⟩

theorem State.KeepsMe.ite {s t : State} {c : Prop} [Decidable c] (h : s.KeepsMe t) : s.KeepsMe (if c then t else s) := by
  split
  · exact h
  · exact .refl s

theorem State.setSlot_setSlot (s : State) (c n : Nat) (x y : Slot) : (s.setSlot c n x).setSlot c n y = s.setSlot c n y := by
  simp [State.setSlot]

theorem State.keepsMe_setSlot (s : State) {c n : Nat} (x : Slot) (other : ¬ (c = s.cur ∧ n = s.curSlot)) : s.KeepsMe (s.setSlot c n x) := by
  refine ⟨?_, rfl⟩
  rcases eq_or_ne c s.cur with rfl | core
  · exact (congrArg (Core.slot · s.curSlot) (s.core_setCore ..)).trans (Core.slot_setSlot_ne _ _ fun e => other ⟨rfl, e.symm⟩)
  · exact congrArg (Core.slot · s.curSlot) (s.core_setCore_ne _ core.symm)

theorem State.syncOn_cases (s : State) (c n sc : Nat) (rs : List Release) :
    s.syncOn c n sc rs = s ∨ ∃ x, s.syncOn c n sc rs = s.setSlot c n x := by
  unfold State.syncOn
  split
  · exact .inl rfl
  · exact .inr ⟨_, rfl⟩

/-- A wait that looks again changes its own slot, and that one is stalled. -/
theorem State.noteBarrier_cases (s : State) (c n : Nat) :
    s.noteBarrier c n = s ∨ ((s.slot c n).st = .stalled ∧ ∃ x, s.noteBarrier c n = s.setSlot c n x) := by
  unfold State.noteBarrier
  dsimp only
  split
  next st _ _ =>
    split
    · refine .inr ⟨st, ?_⟩
      obtain h | ⟨x, h⟩ := s.syncOn_cases c n (s.systemScope (((s.launch? (s.slot c n).launch).map (·.tenant)).getD 0)) (s.syncAt _)
      · rw [h]
        exact ⟨_, rfl⟩
      · rw [h]
        exact ⟨_, s.setSlot_setSlot ..⟩
    · exact .inl rfl
  · exact .inl rfl

theorem State.keepsMe_noteBarrier {s : State} (awake : s.me.st ≠ .stalled) (c n : Nat) : s.KeepsMe (s.noteBarrier c n) := by
  obtain h | ⟨stalled, x, h⟩ := s.noteBarrier_cases c n <;> rw [h]
  · exact .refl s
  · exact s.keepsMe_setSlot x fun ⟨hc, hn⟩ => awake (by subst hc hn; exact stalled)

theorem State.keepsMe_noteWaiters {s : State} (awake : s.me.st ≠ .stalled) (a : Nat) : s.KeepsMe (s.noteWaiters a) := by
  unfold State.noteWaiters
  split
  · refine List.foldlRecOn (motive := s.KeepsMe) _ _ (.refl s) fun t ht c _ => ?_
    refine List.foldlRecOn (motive := s.KeepsMe) _ _ ht fun u hu y _ => ?_
    exact hu.trans (.ite (State.keepsMe_noteBarrier (hu.me ▸ awake) c y.1))
  · exact .refl s

theorem State.keepsMe_setBarriers (s : State) (bs : Tab Arrivals) : s.KeepsMe { s with barriers := bs } := ⟨rfl, rfl⟩

theorem State.keepsMe_addSync (s : State) (w : Nat) (l : List Release) : s.KeepsMe (s.addSync w l) := by
  unfold State.addSync
  split
  · exact .refl s
  · exact ⟨rfl, rfl⟩

/-- Waits that look again do so beside what an operation has written. -/
theorem State.noteWaiters_frame {s u : State} {m : Mem} (awake : s.me.st ≠ .stalled) (a : Nat) (h : u.mem = m ∧ s.KeepsMe u) :
    (u.noteWaiters a).mem = m ∧ s.KeepsMe (u.noteWaiters a) :=
  ⟨(u.noteWaiters_mem a).trans h.1, h.2.trans (State.keepsMe_noteWaiters (h.2.me ▸ awake) a)⟩

/-- An arrival of an awake slot writes the barrier's words and keeps the slot and every bit; what it orders is beside them. -/
theorem State.arrive_frame {s : State} (awake : s.me.st ≠ .stalled) (t c a b n flags : Nat) (l : Seen) (reads : List Release) :
    (s.arrive t c a b n flags l reads).mem = (s.arriveWordsAt a b n flags).mem ∧ s.KeepsMe (s.arrive t c a b n flags l reads) := by
  have words : s.KeepsMe (s.arriveWordsAt a b n flags) := ⟨rfl, rfl⟩
  unfold State.arrive
  refine State.noteWaiters_frame awake a ?_
  split
  · exact ⟨rfl, words⟩
  · split
    · exact ⟨rfl, words.trans (State.keepsMe_setBarriers ..)⟩
    · exact ⟨State.addSync_mem .., (words.trans (State.keepsMe_setBarriers ..)).trans (State.keepsMe_addSync ..)⟩

/-- Settles O36, instruction by instruction, through the two words that each writes or reads. -/
theorem barrierOperations : Obligations.BarrierOperations := by
  refine ⟨?binit, ?bexpect, ?barrive, ?bpoll,
    fun f s s1 b a h place src large => execBinit_faults h (State.barrierOperands_large place src large)⟩
  case binit =>
    intro f s s1 b a h place src fits
    refine ⟨_, execBinit_stores h (State.barrierOperands_ok place src fits), ⟨fun i => ?_, ?_⟩, ?_⟩
    · rw [State.retire_mem, State.storeOrder_mem, State.poke_mem, State.poke_mem, Mem.writeN_words _ _ _ b.isLt, Mem.read_writeN]
    · rw [State.full_retire, State.full_storeOrder, State.poke_full, State.poke_full]
    · rw [State.me_retire_eq, State.me_storeOrder, State.me_poke, State.me_poke]
  case bexpect =>
    intro f s s1 b a h place src fits
    refine ⟨_, execBexpect_stores h (State.barrierOperands_ok place src fits), ?_, ?_, ?_⟩
    · rw [barrierAt_congr (State.retire_mem _), barrierAt, State.wordAt_pokes_low, State.wordAt_pokes_high, barrierOf_expectWords, barrierAt]
    · exact onlyBarrier_of_pokes rfl rfl fun i low other => testBit_expectWords _ _ _ _ low other
    · rw [State.me_retire_eq, State.me_poke, State.me_poke]
  case barrive =>
    intro f s s1 b a h place src fits awake
    obtain ⟨mem, kept⟩ := State.arrive_frame awake s1.myTenant s1.cur a (a + 8) b.toNat 0 s1.me.order.seen []
    have mem' := (State.demote_mem (s1.arrive s1.myTenant s1.cur a (a + 8) b.toNat 0 s1.me.order.seen []) true).trans mem
    refine ⟨_, execBarrive_arrives h (State.barrierOperands_ok place src fits), ?_, ?_, ?_⟩
    · rw [barrierAt_congr ((State.retire_mem _).trans mem'), State.arriveWordsAt, barrierAt, State.wordAt_pokes_low, State.wordAt_pokes_high,
        barrierOf_arriveWords, barrierAt]
    · exact onlyBarrier_of_pokes mem' ((State.full_demote ..).trans kept.full) fun i low other => testBit_arriveWords _ _ _ low other
    · rw [State.me_retire_eq, State.me_demote, kept.me]
  case bpoll =>
    intro f s t a h place dst
    refine ⟨execBpoll_reads h place (State.dstReady_of_dst (s.portRoom_polled f a) dst) dst, fun register => ?_⟩
    have slot := State.onlySlot_dst register dst
    exact ⟨slot.mem_eq.trans (s.polled_mem f a), slot.full_eq.trans (s.full_polled f a)⟩

end Sys2Proof.Machine
end

section

/-! PROOF. What stands when a firing ends: the rules for `State.KeepsSetts`, from single updates to `State.endFiring` (R38, R39, R147,
R255). -/

namespace Sys2Proof.Machine

/-! ### Setts, free slots and time -/

@[simp] theorem State.cluster_modCluster (s : State) (cl : Nat) (f : Cluster → Cluster) : (s.modCluster cl f).cluster cl = f (s.cluster cl) :=
  s.cluster_setCluster cl _

/-- From s to t every sett is kept, no slot is filled, the issuing slot stays the same one and no time passes. -/
structure State.KeepsSetts (s t : State) : Prop where
  cur : t.cur = s.cur
  curSlot : t.curSlot = s.curSlot
  now : t.now = s.now
  setts : ∀ cl, (t.cluster cl).setts = (s.cluster cl).setts
  free : ∀ c n, (s.slot c n).st = .free → (t.slot c n).st = .free

section
variable {s t u : State}

theorem State.KeepsSetts.refl (s : State) : s.KeepsSetts s := ⟨rfl, rfl, rfl, fun _ => rfl, fun _ _ h => h⟩

theorem State.KeepsSetts.trans (h : s.KeepsSetts t) (h' : t.KeepsSetts u) : s.KeepsSetts u where
  cur := h'.cur.trans h.cur
  curSlot := h'.curSlot.trans h.curSlot
  now := h'.now.trans h.now
  setts cl := (h'.setts cl).trans (h.setts cl)
  free c n e := h'.free c n (h.free c n e)

theorem State.KeepsSetts.ite {c : Prop} [Decidable c] (h : s.KeepsSetts t) (h' : s.KeepsSetts u) : s.KeepsSetts (if c then t else u) := by
  split <;> assumption

/-- A step that a test may leave out. -/
theorem State.KeepsSetts.maybe {c : Prop} [Decidable c] (h : s.KeepsSetts t) (step : t.KeepsSetts u) : s.KeepsSetts (if c then u else t) :=
  .ite (h.trans step) h

/-- A fold keeps what each of its steps keeps. -/
theorem State.KeepsSetts.foldl {α : Type} {l : List α} {f : State → α → State} (h : s.KeepsSetts t)
    (step : ∀ (u : State) a, u.KeepsSetts (f u a)) : s.KeepsSetts (l.foldl f t) :=
  List.foldlRecOn (motive := s.KeepsSetts) l f h fun u hu a _ => hu.trans (step u a)

theorem State.KeepsSetts.of_eq (cur : t.cur = s.cur) (curSlot : t.curSlot = s.curSlot) (now : t.now = s.now)
    (clusters : t.clusters = s.clusters) (cores : t.cores = s.cores) : s.KeepsSetts t where
  cur := cur
  curSlot := curSlot
  now := now
  setts cl := by rw [State.cluster, clusters, State.cluster]
  free c n h := by rwa [State.slot, State.core, cores]

end

/-! ### Single updates -/

theorem State.keepsSetts_setCore (s : State) {c : Nat} {k : Core} (free : ∀ n, (s.slot c n).st = .free → (k.slot n).st = .free) :
    s.KeepsSetts (s.setCore c k) where
  cur := rfl
  curSlot := rfl
  now := rfl
  setts _ := rfl
  free d n h := by
    unfold State.slot
    rcases eq_or_ne d c with rfl | other
    · rw [State.core_setCore]
      exact free n h
    · rwa [State.core_setCore_ne s k other]

theorem State.keepsSetts_modCore (s : State) (c : Nat) {f : Core → Core} (slots : (f (s.core c)).slots = (s.core c).slots) :
    s.KeepsSetts (s.modCore c f) :=
  s.keepsSetts_setCore fun n h => by rwa [Core.slot, slots]

theorem State.keepsSetts_setSlot (s : State) {c n : Nat} {x : Slot} (free : (s.slot c n).st = .free → x.st = .free) :
    s.KeepsSetts (s.setSlot c n x) :=
  s.keepsSetts_setCore fun m h => by
    rcases eq_or_ne m n with rfl | other
    · rw [Core.slot_setSlot]
      exact free h
    · rwa [Core.slot_setSlot_ne _ _ other]

theorem State.keepsSetts_modCluster (s : State) {cl : Nat} {f : Cluster → Cluster} (setts : (f (s.cluster cl)).setts = (s.cluster cl).setts) :
    s.KeepsSetts (s.modCluster cl f) where
  cur := rfl
  curSlot := rfl
  now := rfl
  setts d := by
    rcases eq_or_ne d cl with rfl | other
    · rw [State.cluster_modCluster, setts]
    · exact congrArg Cluster.setts (s.cluster_setCluster_ne _ other)
  free _ _ h := h

theorem State.keepsSetts_modLaunch (s : State) (l : Nat) (f : Launch → Launch) : s.KeepsSetts (s.modLaunch l f) := by
  unfold State.modLaunch
  split
  · exact .of_eq rfl rfl rfl rfl rfl
  · exact .refl s

theorem State.keepsSetts_post (s : State) (i : Instr) : s.KeepsSetts (s.post i) := by
  rw [s.post_rest i]
  exact .of_eq rfl rfl rfl rfl rfl

/-! ### Arrivals and jobs that end (R94, R96, R255) -/

theorem State.keepsSetts_poke (s : State) (a n x : Nat) : s.KeepsSetts (s.poke a n x) := .of_eq rfl rfl rfl rfl rfl

theorem State.keepsSetts_noteBarrier (s : State) (c n : Nat) : s.KeepsSetts (s.noteBarrier c n) := by
  obtain h | ⟨stalled, x, h⟩ := s.noteBarrier_cases c n <;> rw [h]
  · exact .refl s
  · refine s.keepsSetts_setSlot fun free => ?_
    rw [stalled] at free
    nomatch free

theorem State.keepsSetts_noteWaiters (s : State) (a : Nat) : s.KeepsSetts (s.noteWaiters a) :=
  .ite (.foldl (.refl s) fun t c => .foldl (.refl t) fun u y => .ite (u.keepsSetts_noteBarrier c y.1) (.refl u)) (.refl s)

theorem State.keepsSetts_setBarriers (s : State) (bs : Tab Arrivals) : s.KeepsSetts { s with barriers := bs } :=
  .of_eq rfl rfl rfl rfl rfl

theorem State.keepsSetts_addSync (s : State) (w : Nat) (l : List Release) : s.KeepsSetts (s.addSync w l) :=
  .ite (.refl s) (.of_eq rfl rfl rfl rfl rfl)

theorem State.keepsSetts_arrive (s : State) (t c a b n flags : Nat) (l : Seen) (reads : List Release) :
    s.KeepsSetts (s.arrive t c a b n flags l reads) := by
  have words : s.KeepsSetts (s.arriveWordsAt a b n flags) := (s.keepsSetts_poke ..).trans (State.keepsSetts_poke ..)
  refine .trans (.ite words (.ite (words.trans (State.keepsSetts_setBarriers ..)) ?_)) (State.keepsSetts_noteWaiters _ a)
  exact (words.trans (State.keepsSetts_setBarriers ..)).trans (State.keepsSetts_addSync ..)

theorem State.keepsSetts_meets (s : State) (l c a n : Nat) : s.KeepsSetts (s.meets l c a n) := by
  unfold State.meets
  split
  · refine .trans ?_ (State.keepsSetts_post ..)
    exact .of_eq rfl rfl rfl rfl rfl
  · exact .refl s

theorem State.keepsSetts_arrivePart (s : State) (p : ArrayPart) (flags : Nat) : s.KeepsSetts (s.arrivePart p flags) :=
  (s.keepsSetts_meets ..).trans (State.keepsSetts_arrive ..)

theorem State.keepsSetts_arriveFor (s : State) (j : Job) (n flags : Nat) : s.KeepsSetts (s.arriveFor j n flags) :=
  ((s.keepsSetts_meets ..).trans (State.keepsSetts_meets ..)).trans (State.keepsSetts_arrive ..)

theorem State.keepsSetts_modCoreOf (s : State) (l c : Nat) {f : Core → Core} (slots : ∀ k, (f k).slots = k.slots) :
    s.KeepsSetts (s.modCoreOf l c f) := by
  unfold State.modCoreOf
  split
  · exact .of_eq rfl rfl rfl rfl rfl
  · exact s.keepsSetts_modCore c (slots _)

theorem State.keepsSetts_writeCompletions (s : State) (t e c : Nat) (k : Core) : s.KeepsSetts (s.writeCompletions t e c k) :=
  .of_eq rfl rfl rfl rfl rfl

theorem State.keepsSetts_dropJob (s : State) (n : Nat) : s.KeepsSetts (s.dropJob n) := .of_eq rfl rfl rfl rfl rfl

theorem State.keepsSetts_endJob (s : State) (j : Job) (engine refused : Bool) : s.KeepsSetts (s.endJob j engine refused) := by
  unfold State.endJob
  refine .trans (.trans ?written (State.keepsSetts_dropJob _ j.id)) (State.keepsSetts_post ..)
  have arrived := s.keepsSetts_arriveFor j (j.declared - j.arrived)
    ((if engine then flagEngine else 0) ||| (if refused then flagRefused else 0))
  split
  · refine .trans ?_ (State.keepsSetts_writeCompletions ..)
    exact arrived.trans (State.keepsSetts_modCoreOf _ j.launch j.core fun _ => rfl)
  · exact arrived.trans (State.keepsSetts_modCoreOf _ j.launch j.core fun _ => rfl)

theorem State.keepsSetts_dissolveGang (s : State) (cl : Nat) : s.KeepsSetts (s.dissolveGang cl) := by
  have cleared (u : State) : u.KeepsSetts (u.modCluster cl (fun k => { k with gangIssued := [], rotIssued := [], gangMembers := [] })) :=
    u.keepsSetts_modCluster rfl
  refine .ite (.refl s) (.trans (.foldl (.foldl (.foldl (.refl s) ?released) ?arrived) ?ended) (cleared _))
  case released =>
    intro u d
    split
    · exact .ite (u.keepsSetts_modCore d rfl) (.refl u)
    · exact .refl u
  case arrived => exact fun u p => .ite (.refl u) (u.keepsSetts_arrivePart ..)
  case ended =>
    intro u p
    split
    · exact u.keepsSetts_endJob ..
    · exact .refl u

theorem State.keepsSetts_leaveGang (s : State) (c n : Nat) : s.KeepsSetts (s.leaveGang c n) := by
  have dissolved (u : State) (x : Bool) : u.KeepsSetts (if x then u.dissolveGang (clusterOf c) else u) :=
    .ite (u.keepsSetts_dissolveGang _) (.refl u)
  unfold State.leaveGang
  split
  · exact dissolved ..
  · exact .ite (s.keepsSetts_dissolveGang _) (.trans (.ite (s.keepsSetts_modCore c rfl) (.refl s)) (dissolved ..))

/-! ### Words and pending firings (R36, R46, R47) -/

theorem State.keepsSetts_giveMirror (s : State) (c key n : Nat) : s.KeepsSetts (s.giveMirror c key n) := s.keepsSetts_modCore c rfl

theorem State.keepsSetts_freedWord (s : State) (c : Nat) (w : ChanWord) : s.KeepsSetts (s.freedWord c w) := by
  have returned : s.KeepsSetts (if w.credited then
      match s.launch? w.launch with
      | some l => (s.modCore (l.srcCore c) (fun k => { k with returns := k.returns ++ [destKey c w.handler w.chan] })).post
          (.freeSlotReturn (l.srcCore c) (destKey c w.handler w.chan))
      | none => s
    else s) := by
    refine .ite ?_ (.refl s)
    split
    · exact (s.keepsSetts_modCore _ rfl).trans (State.keepsSetts_post ..)
    · exact .refl s
  have offered (u : State) (x : Bool) (i : Instr) : u.KeepsSetts (if x then u.post i else u) := .ite (u.keepsSetts_post i) (.refl u)
  exact returned.foldl fun u e => (offered u ..).trans (offered ..)

theorem State.keepsSetts_addPending (s : State) (c : Nat) (src : Source) (h l : Nat) : s.KeepsSetts (s.addPending c src h l) :=
  ((s.keepsSetts_modCore c rfl).trans (State.keepsSetts_post ..)).trans (.of_eq rfl rfl rfl rfl rfl)

theorem State.keepsSetts_addFirings (c h : Nat) (ls : List Launch) (n : Nat) (s : State) (taken : List (Stock × Nat)) :
    s.KeepsSetts (State.addFirings c h ls n s taken).1 := by
  induction n generalizing s taken with
  | zero => exact .refl s
  | succ n ih =>
    unfold State.addFirings
    dsimp only
    split
    · exact .refl s
    · exact (s.keepsSetts_addPending ..).trans (ih ..)

theorem State.keepsSetts_evalRules (s : State) (c : Nat) : s.KeepsSetts (s.evalRules c) := by
  unfold State.evalRules
  refine List.foldlRecOn (motive := fun o : State × List (Stock × Nat) => s.KeepsSetts o.1) _ _ ?kept fun o ho e _ => ?added
  case kept => exact .ite (.refl s) (s.keepsSetts_modCore c rfl)
  case added =>
    split
    · exact ho
    · exact ho.trans (State.keepsSetts_addFirings ..)

/-! ### The end of a firing (R38, R39, R147) -/

theorem State.keepsSetts_endRequests (s : State) (cl : Nat) (mine : Nat × Nat × Nat → Bool) : s.KeepsSetts (s.endRequests cl mine) :=
  .foldl (s.keepsSetts_modCluster rfl) fun u d => .ite (u.keepsSetts_modCore d rfl) (.refl u)

/-- Everything that leaving a slot does before the slot is empty. -/
theorem State.clearSlot_eq (s : State) (c n : Nat) (live : (s.slot c n).st ≠ .free) :
    ∃ t, s.KeepsSetts t ∧ s.clearSlot c n = ((t.setSlot c n Slot.empty).post (.firingStart c)).evalRules c := by
  have waiters (u : State) : u.KeepsSetts (u.modCluster (clusterOf c) (fun k => k.dropWaiters c n)) := u.keepsSetts_modCluster rfl
  unfold State.clearSlot
  dsimp only
  rw [if_neg live]
  refine ⟨_, ?_, rfl⟩
  refine .trans (.trans (.trans (.trans ?credits (State.keepsSetts_modLaunch ..)) (waiters _))
    (State.keepsSetts_endRequests ..)) (State.keepsSetts_leaveGang ..)
  have freed := State.KeepsSetts.foldl (f := fun s w => s.freedWord c w) (l := (s.core c).channels.filter (fun w => w.resv == some n))
    (s.keepsSetts_modCore c (f := fun k => { k with channels := k.channels.filter (fun w => w.resv != some n) }) rfl)
    fun u w => u.keepsSetts_freedWord c w
  split
  · refine freed.foldl fun u x => ?_
    split
    · exact u.keepsSetts_giveMirror ..
    · exact .refl u
  · exact freed

theorem State.keepsSetts_clearSlot (s : State) (c n : Nat) : s.KeepsSetts (s.clearSlot c n) := by
  by_cases free : (s.slot c n).st = .free
  · rw [State.clearSlot, if_pos free]
    exact .refl s
  · obtain ⟨t, h, e⟩ := s.clearSlot_eq c n free
    rw [e]
    exact ((h.trans (t.keepsSetts_setSlot fun _ => rfl)).trans (State.keepsSetts_post ..)).trans (State.keepsSetts_evalRules ..)

theorem State.clearSlot_free (s : State) (c n : Nat) : ((s.clearSlot c n).slot c n).st = .free := by
  by_cases free : (s.slot c n).st = .free
  · rwa [State.clearSlot, if_pos free]
  · obtain ⟨t, -, e⟩ := s.clearSlot_eq c n free
    rw [e]
    refine ((State.keepsSetts_post ..).trans (State.keepsSetts_evalRules ..)).free c n ?_
    rw [State.slot, State.setSlot, State.core_setCore, Core.slot_setSlot]
    rfl

theorem State.keepsSetts_endWrapup (s : State) (l : Nat) (wall : Bool) : s.KeepsSetts (s.endWrapup l wall) := by
  unfold State.endWrapup
  split
  · exact .refl s
  · refine .ite (.refl s) (.trans (.trans (.foldl (.refl s) fun u e => ?_) (State.keepsSetts_modLaunch ..)) (State.keepsSetts_post ..))
    exact .foldl (u.keepsSetts_modCore e.1 rfl) fun v y =>
      .ite ((v.keepsSetts_modLaunch ..).trans (State.keepsSetts_clearSlot ..)) (.refl v)

theorem State.keepsSetts_setLaunch (s : State) (l : Nat) (x : Launch) : s.KeepsSetts (s.setLaunch l x) := .of_eq rfl rfl rfl rfl rfl

theorem State.keepsSetts_endRecall (s : State) (c : Nat) : s.KeepsSetts (s.endRecall c) :=
  ((s.keepsSetts_modCore c rfl).trans (State.keepsSetts_post ..)).trans (State.keepsSetts_post ..)

theorem State.keepsSetts_afterFiring (s : State) (c : Nat) (sl : Slot) : s.KeepsSetts (s.afterFiring c sl) := by
  have journalled (u : State) : u.KeepsSetts (match sl.journal with
      | some e => u.modCore c (fun k => { k with journal := Tab.set k.journal e JournalEntry.free })
      | none => u) := by
    split
    · exact u.keepsSetts_modCore c rfl
    · exact .refl u
  unfold State.afterFiring
  refine .trans (.maybe (.maybe (.trans (.maybe ?granted (State.keepsSetts_endRecall ..)) (journalled _)) (State.keepsSetts_modLaunch ..))
    (State.keepsSetts_endWrapup ..)) (State.keepsSetts_post ..)
  refine .ite ?_ (.refl s)
  split
  · refine .ite ?_ (.refl s)
    split
    · exact (s.keepsSetts_setLaunch ..).trans (State.keepsSetts_addPending ..)
    · exact s.keepsSetts_setLaunch ..
  · exact .refl s

/-- A firing that has given its verdict ends without another: its slot is free, and every sett stands as it was (R127, R300). -/
theorem State.endFiring_verdict (s : State) (c n : Nat) (given : (s.slot c n).verdict = true) :
    s.KeepsSetts (s.endFiring c n) ∧ ((s.endFiring c n).slot c n).st = .free := by
  have ends : s.endFiring c n = (s.clearSlot c n).afterFiring c (s.slot c n) := by
    unfold State.endFiring
    dsimp only
    rw [if_neg]
    simp [given]
  rw [ends]
  exact ⟨(s.keepsSetts_clearSlot c n).trans (State.keepsSetts_afterFiring ..),
    (State.keepsSetts_afterFiring ..).free c n (s.clearSlot_free c n)⟩

end Sys2Proof.Machine
end

section

/-! PROOF. What releasing, shrinking and refusing a sett do to the setts of its cluster, and what they keep (R122, R124, R127, R128, R132). -/

namespace Sys2Proof.Machine

/-! ### What the operations keep -/

/-- From s to t every slot is kept, the issuing slot stays the same one and no time passes. -/
structure State.KeepsSlots (s t : State) : Prop where
  cur : t.cur = s.cur
  curSlot : t.curSlot = s.curSlot
  now : t.now = s.now
  slots : ∀ c n, t.slot c n = s.slot c n

section
variable {s t u : State}

theorem State.KeepsSlots.refl (s : State) : s.KeepsSlots s := ⟨rfl, rfl, rfl, fun _ _ => rfl⟩

theorem State.KeepsSlots.trans (h : s.KeepsSlots t) (h' : t.KeepsSlots u) : s.KeepsSlots u where
  cur := h'.cur.trans h.cur
  curSlot := h'.curSlot.trans h.curSlot
  now := h'.now.trans h.now
  slots c n := (h'.slots c n).trans (h.slots c n)

/-- A step that a test may leave out. -/
theorem State.KeepsSlots.maybe {c : Prop} [Decidable c] (h : s.KeepsSlots t) (step : t.KeepsSlots u) :
    s.KeepsSlots (if c then u else t) := by
  split
  · exact h.trans step
  · exact h

theorem State.KeepsSlots.me (h : s.KeepsSlots t) : t.me = s.me := by
  rw [State.me, h.cur, h.curSlot, h.slots, State.me]

end

theorem State.keepsSlots_modCluster (s : State) (cl : Nat) (f : Cluster → Cluster) : s.KeepsSlots (s.modCluster cl f) :=
  ⟨rfl, rfl, rfl, fun _ _ => rfl⟩

theorem State.keepsSlots_modSett (s : State) (cl gen : Nat) (f : Sett → Sett) : s.KeepsSlots (s.modSett cl gen f) :=
  s.keepsSlots_modCluster cl _

theorem State.keepsSlots_timerNs (s : State) (t : Nat) (i : Instr) : s.KeepsSlots (s.timerNs t i) := ⟨rfl, rfl, rfl, fun _ _ => rfl⟩

theorem State.keepsSlots_modLaunch (s : State) (l : Nat) (f : Launch → Launch) : s.KeepsSlots (s.modLaunch l f) := by
  unfold State.modLaunch
  split
  · exact ⟨rfl, rfl, rfl, fun _ _ => rfl⟩
  · exact .refl s

theorem State.keepsSlots_post (s : State) (i : Instr) : s.KeepsSlots (s.post i) := by
  rw [s.post_rest i]
  exact ⟨rfl, rfl, rfl, fun _ _ => rfl⟩

theorem State.keepsSlots_modCore (s : State) (c : Nat) {f : Core → Core} (slots : (f (s.core c)).slots = (s.core c).slots) :
    s.KeepsSlots (s.modCore c f) where
  cur := rfl
  curSlot := rfl
  now := rfl
  slots d n := by
    unfold State.slot State.modCore
    rcases eq_or_ne d c with rfl | other
    · rw [State.core_setCore, Core.slot, slots, Core.slot]
    · rw [State.core_setCore_ne s _ other]

theorem State.keepsSlots_dropRecalls (s : State) (cl : Nat) (h : Word) : s.KeepsSlots (s.dropRecalls cl h) :=
  List.foldlRecOn (motive := s.KeepsSlots) _ _ (.refl s) fun u hu c _ =>
    .maybe hu ((u.keepsSlots_modCore c rfl).trans (State.keepsSlots_post ..))

theorem State.keepsSlots_settGone (s : State) (cl gen : Nat) : s.KeepsSlots (s.settGone cl gen) := by
  unfold State.settGone
  split
  · exact .refl s
  · exact ((s.keepsSlots_modCluster ..).trans ((State.keepsSlots_modCluster ..).trans (State.keepsSlots_modCluster ..))).trans
      (State.keepsSlots_dropRecalls ..)

theorem State.keepsSlots_settShrink (s : State) (cl gen n : Nat) : s.KeepsSlots (s.settShrink cl gen n) := by
  unfold State.settShrink
  split
  · exact .refl s
  · exact ((s.keepsSlots_modCluster ..).trans (State.keepsSlots_modSett ..)).trans (State.keepsSlots_modCluster ..)

theorem State.keepsSlots_settRefuse (s : State) (cl gen : Nat) (id : Option Nat) : s.KeepsSlots (s.settRefuse cl gen id) := by
  unfold State.settRefuse
  split
  · exact .refl s
  · exact ((State.KeepsSlots.maybe (s.keepsSlots_modSett ..) (State.keepsSlots_timerNs ..)).trans (State.keepsSlots_modLaunch ..)).trans
      (State.keepsSlots_modCluster ..)

theorem State.keepsSlots_verdict (s : State) (x : Sett) (v n : Nat) : s.KeepsSlots (s.verdict x v n) := by
  have counted := s.keepsSlots_modLaunch x.launch (fun l => { l with recalls := min (l.recalls + 1) 65535 })
  unfold State.verdict
  dsimp only
  repeat' split
  · exact ((counted.trans (State.keepsSlots_modSett ..)).trans (State.keepsSlots_modCluster ..)).trans (State.keepsSlots_timerNs ..)
  · exact counted.trans (State.keepsSlots_settGone ..)
  · exact ((counted.trans (State.keepsSlots_settShrink ..)).trans (State.keepsSlots_modSett ..)).trans (State.keepsSlots_modCluster ..)
  · exact counted.trans (State.keepsSlots_settRefuse ..)

/-! ### The setts of the cluster afterwards -/

section
variable {s : State} {cl gen n : Nat} {y : Sett}

theorem State.cluster_retire (s : State) (cl : Nat) : s.retire.cluster cl = s.cluster cl := rfl
theorem State.setts_settOutcome (s : State) (cl gen : Nat) (id : Option Nat) (refused : Bool) :
    ((s.settOutcome cl gen id refused).cluster cl).setts = (s.cluster cl).setts :=
  (s.keepsSetts_modCluster rfl).setts cl
theorem State.setts_released (s : State) (cl : Nat) : ((s.released cl).cluster cl).setts = (s.cluster cl).setts :=
  (s.keepsSetts_modCluster rfl).setts cl
theorem State.setts_modLaunch (s : State) (l : Nat) (f : Launch → Launch) (cl : Nat) :
    ((s.modLaunch l f).cluster cl).setts = (s.cluster cl).setts :=
  (s.keepsSetts_modLaunch l f).setts cl
theorem State.setts_dropRecalls (s : State) (cl : Nat) (h : Word) (d : Nat) :
    ((s.dropRecalls cl h).cluster d).setts = (s.cluster d).setts :=
  (State.KeepsSetts.foldl (.refl s) fun u c => .ite ((u.keepsSetts_modCore c rfl).trans (State.keepsSetts_post ..)) (.refl u)).setts d

/-- A sett of the generation that was changed is the change of one that stood. -/
theorem State.of_mem_modSett {f : Sett → Sett} (mem : y ∈ ((s.modSett cl gen f).cluster cl).setts)
    (named : y.gen = gen) : ∃ z ∈ (s.cluster cl).setts, z.gen = gen ∧ y = f z := by
  rw [State.modSett, State.cluster_modCluster] at mem
  obtain ⟨z, hz, rfl⟩ := List.mem_map.mp mem
  by_cases this : z.gen = gen
  · exact ⟨z, hz, this, by simp [this]⟩
  · simp [this] at named

theorem State.gen_ne_of_sett?_none (absent : s.sett? cl gen = none) (mem : y ∈ (s.cluster cl).setts) : y.gen ≠ gen := by
  simpa using List.find?_eq_none.mp absent y mem

theorem State.settGone_gone (mem : y ∈ ((s.settGone cl gen).cluster cl).setts) : y.gen ≠ gen := by
  unfold State.settGone at mem
  split at mem
  next absent => exact State.gen_ne_of_sett?_none absent mem
  next =>
    rw [State.setts_dropRecalls, State.setts_settOutcome, State.setts_released, State.cluster_modCluster] at mem
    simpa using (List.mem_filter.mp mem).2

/-- A shrunken sett keeps its lowest granules, and a gang sett is as it was (R124). -/
theorem State.of_mem_settShrink (mem : y ∈ ((s.settShrink cl gen n).cluster cl).setts) (named : y.gen = gen) :
    ∃ z ∈ (s.cluster cl).setts, z.gen = gen ∧ y = if z.gang then z else { z with size := min n z.size } := by
  unfold State.settShrink at mem
  split at mem
  next absent => exact absurd named (State.gen_ne_of_sett?_none absent mem)
  next =>
    rw [State.setts_released] at mem
    obtain ⟨z, hz, named, e⟩ := State.of_mem_modSett mem named
    rw [State.cluster_modCluster] at hz
    exact ⟨z, hz, named, e⟩

theorem State.settShrink_size (mem : y ∈ ((s.settShrink cl gen n).cluster cl).setts) (named : y.gen = gen) (plain : y.gang = false) :
    y.size ≤ n := by
  obtain ⟨z, -, -, rfl⟩ := State.of_mem_settShrink mem named
  split at plain
  next gang =>
    rw [gang] at plain
    nomatch plain
  next => simp_all

/-- Has the window in which a sett's refusals count ended, or was none open (R128)? -/
def Sett.windowOver (x : Sett) (now : Nat) : Bool :=
  match x.windowEnd with
  | some e => decide (e ≤ now)
  | none => true

/-- A sett after a refusal, counted in a window of one ms that begins with it where `fresh` says so (R127, R128). -/
def Sett.refused (x : Sett) (now : Nat) (fresh : Bool) : Sett :=
  { x with
    refusals := if fresh then 1 else x.refusals + 1
    windowEnd := if fresh then some (now + 1000000) else x.windowEnd
    st := .current }

theorem State.of_mem_settRefuse {id : Option Nat} (mem : y ∈ ((s.settRefuse cl gen id).cluster cl).setts) (named : y.gen = gen) :
    ∃ x z, s.sett? cl gen = some x ∧ z ∈ (s.cluster cl).setts ∧ z.gen = gen ∧ y = z.refused s.now (x.windowOver s.now) := by
  unfold State.settRefuse at mem
  split at mem
  next absent => exact absurd named (State.gen_ne_of_sett?_none absent mem)
  next x found =>
    have timed (u : State) (c : Bool) (t : Nat) (i : Instr) : ((if c then u.timerNs t i else u).cluster cl).setts = (u.cluster cl).setts := by
      split <;> rfl
    rw [State.setts_settOutcome, State.setts_modLaunch, timed] at mem
    obtain ⟨z, hz, named, e⟩ := State.of_mem_modSett mem named
    exact ⟨x, z, found, hz, named, e⟩

theorem State.windowRefusals_congr {s t : State} (now : t.now = s.now) (x : Sett) : t.windowRefusals x = s.windowRefusals x := by
  rw [State.windowRefusals, now, State.windowRefusals]

theorem State.windowRefusals_refused (s : State) (x : Sett) :
    s.windowRefusals (x.refused s.now (x.windowOver s.now)) = s.windowRefusals x + 1 := by
  cases window : x.windowEnd with
  | none => simp [State.windowRefusals, Sett.refused, Sett.windowOver, window]
  | some e =>
    by_cases ended : e ≤ s.now
    · simp [State.windowRefusals, Sett.refused, Sett.windowOver, window, ended]
    · simp [State.windowRefusals, Sett.refused, Sett.windowOver, window, ended, Nat.lt_of_not_le ended]

end

/-! ### Verdicts (R127, R300) -/

section
variable {s : State} {x y : Sett} {v n : Nat}

theorem State.setts_countRecall (s : State) (l cl : Nat) : ((s.countRecall l).cluster cl).setts = (s.cluster cl).setts := s.setts_modLaunch ..

theorem State.verdict_finish (mem : y ∈ ((s.verdict x 0 n).cluster (clusterOf s.cur)).setts) (named : y.gen = x.gen) : y.st = .finishing := by
  have kept (u : State) (t : Nat) (i : Instr) (cl : Nat) (f : Cluster → Cluster) (h : (f (u.cluster cl)).setts = (u.cluster cl).setts) :
      (((u.modCluster cl f).timerNs t i).cluster cl).setts = (u.cluster cl).setts := (u.keepsSetts_modCluster h).setts cl
  rw [State.verdict, if_pos rfl, kept _ _ _ _ _ rfl] at mem
  obtain ⟨z, -, -, rfl⟩ := State.of_mem_modSett mem named
  rfl

theorem State.verdict_refuses (other : v ≠ 0) (whole : ¬ (v = 1 ∧ n < x.size)) :
    s.verdict x v n = (s.countRecall x.launch).settRefuse (clusterOf s.cur) x.gen (s.runningRecall s.cur) := by
  rw [State.verdict, if_neg other, if_neg whole]

theorem State.verdict_refused (other : v ≠ 0) (whole : ¬ (v = 1 ∧ n < x.size)) (mem : y ∈ ((s.verdict x v n).cluster (clusterOf s.cur)).setts)
    (named : y.gen = x.gen) : y.st = .current := by
  rw [State.verdict_refuses other whole] at mem
  obtain ⟨_, z, -, -, -, rfl⟩ := State.of_mem_settRefuse mem named
  rfl

/-- A refusal of the one sett of a generation counts once more in its window. -/
theorem State.verdict_refused_only (only : ∀ z ∈ (s.cluster (clusterOf s.cur)).setts, z.gen = x.gen → z = x) (other : v ≠ 0)
    (whole : ¬ (v = 1 ∧ n < x.size)) (mem : y ∈ ((s.verdict x v n).cluster (clusterOf s.cur)).setts) (named : y.gen = x.gen) :
    y.size = x.size ∧ s.windowRefusals y = s.windowRefusals x + 1 := by
  rw [State.verdict_refuses other whole] at mem
  obtain ⟨w, z, found, hz, same, rfl⟩ := State.of_mem_settRefuse mem named
  rw [State.setts_countRecall] at hz
  obtain rfl := only z hz same
  have hw := List.mem_of_find?_eq_some found
  rw [State.setts_countRecall] at hw
  obtain rfl := only w hw (by simpa using List.find?_some found)
  have now := (s.keepsSetts_modLaunch w.launch (fun l => { l with recalls := min (l.recalls + 1) 65535 })).now
  rw [State.countRecall, now]
  exact ⟨rfl, s.windowRefusals_refused w⟩

theorem State.verdict_summarised (less : n < x.size) (mem : y ∈ ((s.verdict x 1 n).cluster (clusterOf s.cur)).setts) (named : y.gen = x.gen) :
    n ≠ 0 ∧ y.st = .current ∧ (y.gang = false → y.size ≤ n) := by
  rw [State.verdict, if_neg (by decide), if_pos ⟨rfl, less⟩] at mem
  split at mem
  next => exact absurd named (State.settGone_gone mem)
  next positive =>
    rw [State.setts_settOutcome] at mem
    obtain ⟨z, hz, same, rfl⟩ := State.of_mem_modSett mem named
    exact ⟨positive, rfl, fun plain => State.settShrink_size (y := z) hz same plain⟩

end

end Sys2Proof.Machine
end

section

/-! PROOF. What `SACQ` does with its request (R121, R122, R297; log 66, log 125). -/

namespace Sys2Proof.Machine

theorem Fields.bit_eq (f : Fields) (i : Nat) : f.bit i = f.modf.getLsbD i := rfl

/-- What `SACQ` of the table entry e with index i does about its request r, where s1 is the state after its source. -/
def State.answerSacq (s s1 : State) (f : Fields) (l : Launch) (i : Nat) (e : Word) (r : SettReq) : Res After :=
  let cl := clusterOf s.cur
  let unasked := s1.dropRequest cl (some (s.cur, s.curSlot, s.me.fid))
  if s.requestFirst cl r = false then .ok (.gone ((s.putRequest cl r).stallMe .request))
  else match s.request cl r with
    | .run g => seqOf ((unasked.grantSett s.cur l i e g).1.dst f.d ((unasked.grantSett s.cur l i e g).2.handle cl))
    | .lands => .ok (.gone ((s.putRequest cl { r with seen := none }).stallMe .request))
    | .waits =>
      if f.modf.getLsbD 0 = true then seqOf (unasked.dst f.d 0)
      else .ok (.gone ((s.putRequest cl { r with seen := some (s.cluster cl).releases }).stallMe .request))
    | .asks lent recalls ending =>
      if f.modf.getLsbD 0 = true ∧ ¬ (ending = [] ∧ s.recallRoom recalls = true) then seqOf (unasked.dst f.d 0)
      else .ok (.gone (((s.pursue cl r lent recalls ending).1.putRequest cl (s.pursue cl r lent recalls ending).2).stallMe .request))

section
variable {f : Fields} {s s1 : State} {a : Word} {im : Image} {l : Launch}

/-- A firing with no request under way makes one, for an entry that it does not hold and may have. -/
theorem execSacq_serves (h : s.issues 0xD0 f) (src : s.src f.a = .ok (a, s1)) (image : s.image? s.cur = some im) (low : a.toNat ≤ 15)
    (launch : s.myLaunch = some l) (valid : (Tab.get 0 im.setts a.toNat).getLsbD 4 = true)
    (unheld : (s.cluster (clusterOf s.cur)).setts.any (fun y => y.launch == s.me.launch && y.index == a.toNat) = false)
    (allowed : (entryGang (Tab.get 0 im.setts a.toNat) && ctxGangDenied (s.ctx l.tenant)) = false)
    (new : (s.cluster (clusterOf s.cur)).requests.find? (fun r => r.who == some (s.cur, s.curSlot, s.me.fid)) = none) :
    exec (.sacq f) s = .next (s.settle (s.answerSacq s1 f l a.toNat (Tab.get 0 im.setts a.toNat)
      (s.newRequest (some (s.cur, s.curSlot, s.me.fid)) l (Tab.get 0 im.setts a.toNat) (f.modf.getLsbD 0)))) := by
  change execSacq f s = _
  rw [execSacq, State.issue_issues h]
  congr 2
  simp only [src, bind, Except.bind, image, if_pos low, valid, launch, unheld, allowed, new, Fields.bit_eq, Bool.not_true,
    Bool.false_eq_true, if_false]
  generalize made : s.newRequest _ _ _ _ = r
  rw [if_neg (by simp [← made, State.newRequest]), State.answerSacq]
  cases s.requestFirst (clusterOf s.cur) r
  · rfl
  · simp only [Bool.not_true, Bool.false_eq_true, if_false]
    cases s.request (clusterOf s.cur) r with
    | asks lent recalls ending => cases ending <;> simp <;> rfl
    | waits => rfl
    | lands => rfl
    | run g => rfl

theorem execSacq_large (issues : s.issues 0xD0 f) (src : s.src f.a = .ok (a, s1)) (large : 15 < a.toNat) :
    exec (.sacq f) s = .next (s.takeExact 0x02 3 0) := by
  change execSacq f s = _
  rw [execSacq, State.issue_issues issues]
  simp only [src, bind, Except.bind, if_neg (Nat.not_le_of_lt large)]
  refine congrArg (fun r => Host.Outcome.next (s.settle r)) (a₂ := .error (.field 3)) ((if_pos ?_).trans rfl)
  cases s.image? s.cur <;> simp

end

/-! ### By what the request finds -/

section
variable {f : Fields} {s s1 : State} {l : Launch} {i : Nat} {e : Word} {r : SettReq}

theorem State.answerSacq_behind (behind : s.requestFirst (clusterOf s.cur) r = false) :
    s.answerSacq s1 f l i e r = .ok (.gone ((s.putRequest (clusterOf s.cur) r).stallMe .request)) := if_pos behind

theorem State.answerSacq_run {g : Nat} (first : s.requestFirst (clusterOf s.cur) r = true) (found : s.request (clusterOf s.cur) r = .run g) :
    s.answerSacq s1 f l i e r = seqOf
      (let o := (s1.dropRequest (clusterOf s.cur) (some (s.cur, s.curSlot, s.me.fid))).grantSett s.cur l i e g
       o.1.dst f.d (o.2.handle (clusterOf s.cur))) := by
  simp only [State.answerSacq, first, found, Bool.true_eq_false, if_false]

theorem State.answerSacq_lands (first : s.requestFirst (clusterOf s.cur) r = true) (found : s.request (clusterOf s.cur) r = .lands) :
    s.answerSacq s1 f l i e r = .ok (.gone ((s.putRequest (clusterOf s.cur) { r with seen := none }).stallMe .request)) := by
  simp only [State.answerSacq, first, found, Bool.true_eq_false, if_false]

theorem State.answerSacq_asks {lent recalls ending : List Sett} (first : s.requestFirst (clusterOf s.cur) r = true)
    (found : s.request (clusterOf s.cur) r = .asks lent recalls ending)
    (may : f.modf.getLsbD 0 = false ∨ (ending = [] ∧ s.recallRoom recalls = true)) :
    s.answerSacq s1 f l i e r = .ok (.gone
      (let o := s.pursue (clusterOf s.cur) r lent recalls ending
       (o.1.putRequest (clusterOf s.cur) o.2).stallMe .request)) := by
  have : ¬ (f.modf.getLsbD 0 = true ∧ ¬ (ending = [] ∧ s.recallRoom recalls = true)) := fun ⟨trying, full⟩ =>
    may.elim (fun plain => by rw [plain] at trying; nomatch trying) full
  simp only [State.answerSacq, first, found, Bool.true_eq_false, if_false, if_neg this]

theorem State.answerSacq_waits (first : s.requestFirst (clusterOf s.cur) r = true) (found : s.request (clusterOf s.cur) r = .waits)
    (plain : f.modf.getLsbD 0 = false) :
    s.answerSacq s1 f l i e r = .ok (.gone
      ((s.putRequest (clusterOf s.cur) { r with seen := some (s.cluster (clusterOf s.cur)).releases }).stallMe .request)) := by
  simp only [State.answerSacq, first, found, plain, Bool.true_eq_false, Bool.false_eq_true, if_false]

theorem State.answerSacq_busy (first : s.requestFirst (clusterOf s.cur) r = true) (found : s.request (clusterOf s.cur) r = .waits)
    (trying : f.modf.getLsbD 0 = true) :
    s.answerSacq s1 f l i e r = seqOf ((s1.dropRequest (clusterOf s.cur) (some (s.cur, s.curSlot, s.me.fid))).dst f.d 0) := by
  simp only [State.answerSacq, first, found, trying, Bool.true_eq_false, if_false, if_true]

end

end Sys2Proof.Machine
end

section

/-! PROOF. The sett instructions (O45; R121 to R132, R294 to R301). -/

namespace Sys2Proof.Machine

/-! ### A source keeps the issuing slot (R90, R92) -/

theorem State.keepsSetts_setMe (s : State) {x : Slot} (st : x.st = s.me.st) : s.KeepsSetts (s.setMe x) :=
  s.keepsSetts_setSlot fun free => st.trans free

theorem State.keepsSetts_setHere (s : State) {k : Core} (slots : k.slots = s.here.slots) : s.KeepsSetts (s.setHere k) :=
  s.keepsSetts_setCore fun n h => by rwa [Core.slot, slots]

theorem State.keepsSetts_taskHead (s : State) (c : Nat) : s.KeepsSetts (s.taskHead c) := by
  unfold State.taskHead
  dsimp only
  split
  · exact .ite (.refl s) (s.keepsSetts_addPending ..)
  · exact .refl s

theorem State.keepsSetts_takeWord (s : State) (p : Nat) : s.KeepsSetts (s.takeWord p) := by
  unfold State.takeWord
  refine .ite ?channel (.ite (s.keepsSetts_setHere rfl) (.ite (s.keepsSetts_setHere rfl) (.ite (s.keepsSetts_setHere rfl) ?task)))
  case channel =>
    split
    · refine .trans (.trans ?_ (State.keepsSetts_freedWord ..)) (State.keepsSetts_evalRules ..)
      exact s.keepsSetts_setHere rfl
    · exact .refl s
  case task =>
    split
    · exact s.keepsSetts_setMe rfl
    · split
      · refine .trans ?_ (State.keepsSetts_taskHead ..)
        exact s.keepsSetts_modCore _ rfl
      · exact .refl s

theorem State.Learns.keepsSetts {s t : State} (h : s.Learns t) : s.KeepsSetts t := by
  cases h with
  | same => exact .refl s
  | order o => exact s.keepsSetts_setMe rfl

theorem State.keepsSetts_src {s t : State} {o : Operand} {x : Word} (h : s.src o = .ok (x, t)) : s.KeepsSetts t := by
  cases o with
  | port n =>
    rw [State.src_port, State.pop] at h
    split at h
    · nomatch h
    · dsimp only at h
      split at h
      · nomatch h
      · cases h
        exact (s.keepsSetts_takeWord _).trans (State.learns_acquired ..).keepsSetts
  | _ =>
    cases h
    exact .refl s

/-! ### Check 4 (R183) -/

/-- Fields that pass check 4 have a modifier that one of the entryings forms takes. -/
theorem modOk_of_check4 {forms : List Form} {f : Fields} (h : check4 forms f = none) : ∃ x ∈ forms, x.modOk f.modf.toNat = true := by
  unfold check4 at h
  dsimp only at h
  split at h
  · nomatch h
  split at h
  · nomatch h
  split at h
  · nomatch h
  split at h
  · nomatch h
  split at h
  next taken =>
    obtain ⟨x, mem, ok⟩ := List.any_eq_true.mp taken
    exact ⟨x, List.mem_of_mem_filter (List.mem_of_mem_filter (List.mem_of_mem_filter mem)), ok⟩
  · nomatch h

theorem State.check4_of_preCheck {s : State} {op : Nat} {f : Fields} (h : s.preCheck op f = none) : check4 (formsOf op) f = none := by
  have rest (h : State.preCheck.rest s op f s.me = none) : check4 (formsOf op) f = none := by
    unfold State.preCheck.rest at h
    split at h
    · nomatch h
    · assumption
  unfold State.preCheck at h
  dsimp only at h
  split at h
  · nomatch h
  split at h
  · split at h
    · exact rest h
    · nomatch h
  · exact rest h

/-! ### Handles (R131, R296) -/

theorem State.handleSett_foreign {s : State} {h : Word} (foreign : ∀ x, s.settOf (clusterOf s.cur) h = some x → x.launch ≠ s.me.launch) :
    s.handleSett h = .error (.trap 0x08 h 0) := by
  unfold State.handleSett
  split
  next x found => exact if_neg (foreign x found)
  next => rfl

/-! ### Releasing and asking (R298, R301) -/

section
variable {s s1 : State} {f : Fields} {h : Word} {x : Sett}

theorem execSrel_foreign (issues : s.issues 0xD1 f) (src : s.src f.a = .ok (h, s1)) (foreign : s1.handleSett h = .error (.trap 0x08 h 0)) :
    exec (.srel f) s = .next (s.takeExact 0x08 h 0) := by
  change execSrel f s = _
  rw [execSrel, State.issue_issues issues]
  simp only [src, bind, Except.bind, foreign]
  rfl

theorem execSqry_foreign (issues : s.issues 0xD5 f) (src : s.src f.a = .ok (h, s1)) (foreign : s1.handleSett h = .error (.trap 0x08 h 0)) :
    exec (.sqry f) s = .next (s.takeExact 0x08 h 0) := by
  change execSqry f s = _
  rw [execSqry, State.issue_issues issues]
  simp only [src, bind, Except.bind, foreign]
  rfl

theorem execSrel_releases (issues : s.issues 0xD1 f) (src : s.src f.a = .ok (h, s1)) (named : s1.handleSett h = .ok x) (whole : x.st ≠ .stripping)
    (quiet : x.st = .displaced ∨ s1.settWriters (clusterOf s1.cur) x 0 = false) :
    exec (.srel f) s = .next (s1.settGone (clusterOf s1.cur) x.gen).retire := by
  change execSrel f s = _
  rw [execSrel, State.issue_issues issues]
  have : ¬ (x.st ≠ .displaced ∧ s1.settWriters (clusterOf s1.cur) x 0 = true) := by
    obtain quiet | quiet := quiet <;> simp [quiet]
  simp only [src, bind, Except.bind, named, if_neg whole, if_neg this]
  rfl

theorem execSrel_stalls (issues : s.issues 0xD1 f) (src : s.src f.a = .ok (h, s1)) (named : s1.handleSett h = .ok x)
    (busy : x.st = .stripping ∨ (x.st ≠ .displaced ∧ s1.settWriters (clusterOf s1.cur) x 0 = true)) :
    exec (.srel f) s = .next (s.stallMe (.release x.gen 0)) := by
  change execSrel f s = _
  rw [execSrel, State.issue_issues issues]
  simp only [src, bind, Except.bind, named]
  by_cases stripping : x.st = .stripping
  · rw [if_pos stripping]
    rfl
  · rw [if_neg stripping, if_pos (busy.resolve_left stripping)]
    rfl

theorem execSqry_answers {t : State} (issues : s.issues 0xD5 f) (src : s.src f.a = .ok (h, s1)) (named : s1.handleSett h = .ok x)
    (dst : s1.dst f.d (if f.modf.getLsbD 0 = false then s1.settStatus x h
      else if x.isDisplaced then (match s1.myLaunch with
        | some l => s1.areaAddr l (settSlotOff (clusterOf s1.cur - l.base) x.index)
        | none => 0)
      else if x.gang then 0 else word (5 * 2 ^ 60 + 8192 * x.first)) = .ok t) :
    exec (.sqry f) s = .next t.retire := by
  change execSqry f s = _
  rw [execSqry, State.issue_issues issues]
  simp only [src, bind, Except.bind, named, Fields.bit_eq]
  exact congrArg (fun r => Host.Outcome.next (s.settle (seqOf r))) dst

end

/-! ### Shrinking and naming a routine (R298, R299) -/

section
variable {s s1 s2 : State} {f : Fields} {h b : Word} {x : Sett}

theorem execSshrink_foreign (issues : s.issues 0xD2 f) (src : s.src f.a = .ok (h, s1)) (src' : s1.src f.b = .ok (b, s2))
    (foreign : s2.handleSett h = .error (.trap 0x08 h 0)) : exec (.sshrink f) s = .next (s.takeExact 0x08 h 0) := by
  change execSshrink f s = _
  rw [execSshrink, State.issue_issues issues]
  simp only [src, src', bind, Except.bind, foreign]
  rfl

theorem execSurr_foreign (issues : s.issues 0xD3 f) (src : s.src f.a = .ok (h, s1)) (src' : s1.src f.b = .ok (b, s2))
    (foreign : s2.handleSett h = .error (.trap 0x08 h 0)) : exec (.surr f) s = .next (s.takeExact 0x08 h 0) := by
  change execSurr f s = _
  rw [execSurr, State.issue_issues issues]
  simp only [src, src', bind, Except.bind, foreign]
  rfl

theorem execSshrink_faults (issues : s.issues 0xD2 f) (src : s.src f.a = .ok (h, s1)) (src' : s1.src f.b = .ok (b, s2))
    (named : s2.handleSett h = .ok x) (outside : b = 0 ∨ x.size < b.toNat) : exec (.sshrink f) s = .next (s.takeExact 0x08 h 0) := by
  change execSshrink f s = _
  rw [execSshrink, State.issue_issues issues]
  have : x.isDisplaced = true ∨ b.toNat = 0 ∨ b.toNat > x.size := .inr (outside.imp_left fun e => by rw [e]; rfl)
  simp only [src, src', bind, Except.bind, named, if_pos this]
  rfl

/-- What a shrink that passes its checks does: it waits for writers, or shrinks, and a Finishing sett is Current again. -/
theorem execSshrink_named (issues : s.issues 0xD2 f) (src : s.src f.a = .ok (h, s1)) (src' : s1.src f.b = .ok (b, s2))
    (named : s2.handleSett h = .ok x) (held : x.isDisplaced = false) (positive : 0 < b.toNat) (fits : b.toNat ≤ x.size) :
    exec (.sshrink f) s = .next (
      if s2.settWriters (clusterOf s2.cur) x b.toNat then s.stallMe (.release x.gen b.toNat)
      else if x.st = .finishing then (((s2.settShrink (clusterOf s2.cur) x.gen b.toNat).modSett (clusterOf s2.cur) x.gen
        (fun y => { y with st := .current, finishEnd := none })).settOutcome (clusterOf s2.cur) x.gen (some 0) false).retire
      else (s2.settShrink (clusterOf s2.cur) x.gen b.toNat).retire) := by
  change execSshrink f s = _
  rw [execSshrink, State.issue_issues issues]
  have : ¬ (x.isDisplaced = true ∨ b.toNat = 0 ∨ b.toNat > x.size) := by
    simp only [held, Bool.false_eq_true, false_or]
    omega
  simp only [src, src', bind, Except.bind, named, if_neg this]
  by_cases busy : s2.settWriters (clusterOf s2.cur) x b.toNat = true
  · rw [if_pos busy, if_pos busy]
    rfl
  · rw [if_neg busy, if_neg busy]
    split <;> rfl

theorem execSurr_names (issues : s.issues 0xD3 f) (src : s.src f.a = .ok (h, s1)) (src' : s1.src f.b = .ok (b, s2))
    (named : s2.handleSett h = .ok x) (low : b.toNat ≤ 31) (surrender : (s2.here.handler b.toNat).kindBits = 4) (negotiated : x.cls = .negotiated)
    (holder : x.holder = s2.cur) (held : x.isDisplaced = false) :
    exec (.surr f) s = .next (s2.modSett (clusterOf s2.cur) x.gen (fun y => { y with routine := some b.toNat })).retire := by
  change execSurr f s = _
  rw [execSurr, State.issue_issues issues]
  have routine : ¬ (b.toNat > 31 ∨ (s2.here.handler b.toNat).kindBits ≠ 4) := by
    rw [surrender]
    omega
  have mine : ¬ (x.cls ≠ .negotiated ∨ x.holder ≠ s2.cur ∨ x.isDisplaced = true) := by simp [negotiated, holder, held]
  simp only [src, src', bind, Except.bind, named, if_neg routine, if_neg mine]
  rfl

end

/-! ### Verdicts (R127, R300) -/

/-- The modifiers of `SVERD`: finish, summarise and refuse (R300). -/
theorem sverd_modf {s : State} {f : Fields} (issues : s.issues 0xD4 f) : f.modf = 0 ∨ f.modf = 1 ∨ f.modf = 2 := by
  obtain ⟨x, form, ok⟩ := modOk_of_check4 (State.check4_of_preCheck issues.1)
  have forms : formsOf 0xD4 = [⟨Forms.N, Forms.N, Forms.N, fun x => x == 0 || x == 2⟩, ⟨Forms.N, Forms.GI, Forms.N, fun x => x == 1⟩] := rfl
  have value : f.modf.toNat = 0 ∨ f.modf.toNat = 1 ∨ f.modf.toNat = 2 := by
    rw [forms, List.mem_cons, List.mem_singleton] at form
    obtain rfl | rfl := form
    · have : f.modf.toNat = 0 ∨ f.modf.toNat = 2 := by simpa using ok
      omega
    · exact .inr (.inl (by simpa using ok))
  exact value.imp BitVec.eq_of_toNat_eq (.imp BitVec.eq_of_toNat_eq BitVec.eq_of_toNat_eq)

/-- The firing has given its verdict, and goes on to end. -/
def State.judged (s : State) : State := s.retire.modMe (fun y => { y with verdict := true })

theorem State.judged_verdict (s : State) : s.judged.me.verdict = true := by rw [State.judged, State.modMe, State.me_setMe]

/-- What `SVERD` reads: the size of a summary, and the state after it; of another verdict nothing. -/
def State.verdictSrc (s : State) (f : Fields) : Res (Word × State) := if f.bits 1 0 = 1 then s.src f.a else .ok (0, s)

section
variable {s s1 : State} {f : Fields} {n : Word} {x : Sett}

theorem State.verdictSrc_summary (summary : f.bits 1 0 = 1) (src : s.src f.a = .ok (n, s1)) : s.verdictSrc f = .ok (n, s1) := by
  rw [State.verdictSrc, if_pos summary, src]
theorem State.verdictSrc_other (other : f.bits 1 0 ≠ 1) : s.verdictSrc f = .ok (0, s) := if_neg other

theorem execSverd_again (issues : s.issues 0xD4 f) (other : f.bits 1 0 ≠ 1) (given : s.me.verdict = true) :
    exec (.sverd f) s = .next (s.takeExact 0x08 s.me.surrSett 0) := by
  change execSverd f s = _
  rw [execSverd, State.issue_issues issues]
  simp only [bind, Except.bind, pure, Except.pure, if_neg other, given]
  rfl

end

section
variable {s s1 : State} {f : Fields} {n : Word} {x : Sett} (issues : s.issues 0xD4 f) (operand : s.verdictSrc f = .ok (n, s1))
  (fits : n.toNat ≤ 64) (first : s1.me.verdict = false) (found : s1.settOf (clusterOf s1.cur) s1.me.surrSett = some x)
  (mine : x.launch = s1.me.launch) (asked : x.st = .surrendering) (plain : ¬ (f.bits 1 0 = 1 ∧ x.gang = true))
include issues operand fits first found mine asked plain

theorem execSverd_gives :
    exec (.sverd f) s = .next ((s1.judged.verdict x (f.bits 1 0) n.toNat).endFiring (s1.judged.verdict x (f.bits 1 0) n.toNat).cur
      (s1.judged.verdict x (f.bits 1 0) n.toNat).curSlot) := by
  change execSverd f s = _
  rw [execSverd, State.issue_issues issues]
  have named : (s1.settOf (clusterOf s1.cur) s1.me.surrSett).filter (fun x => x.launch == s1.me.launch) = some x := by
    simp [found, mine]
  have single : ¬ (f.bits 1 0 = 1 ∧ (some x).any (·.gang) = true) := plain
  unfold State.verdictSrc at operand
  split at operand
  next summary =>
    simp only [operand, bind, Except.bind, if_pos summary, if_neg (Nat.not_lt_of_le fits), first, named, if_neg single, if_pos asked]
    rfl
  next other =>
    cases operand
    simp only [bind, Except.bind, pure, Except.pure, if_neg other, if_neg (Nat.not_lt_of_le fits), first, named, if_neg single, if_pos asked]
    rfl

/-- A verdict on a Surrendering sett frees the slot, and the end of the firing leaves the setts as the verdict made them. -/
theorem execSverd_ends : ∃ t, exec (.sverd f) s = .next t ∧ (t.slot s1.cur s1.curSlot).st = .free ∧ t.now = s1.now ∧
    (t.cluster (clusterOf s1.cur)).setts = ((s1.judged.verdict x (f.bits 1 0) n.toNat).cluster (clusterOf s1.judged.cur)).setts := by
  have run := execSverd_gives issues operand fits first found mine asked plain
  have kept := s1.judged.keepsSlots_verdict x (f.bits 1 0) n.toNat
  rw [kept.cur, kept.curSlot] at run
  obtain ⟨ends, free⟩ := State.endFiring_verdict _ s1.cur s1.curSlot ((congrArg Slot.verdict (kept.slots ..)).trans s1.judged_verdict)
  exact ⟨_, run, free, ends.now.trans kept.now, ends.setts _⟩

end

theorem Fields.bits_of_modf {f : Fields} {m : BitVec 16} (h : f.modf = m) : f.bits 1 0 = bitsOf m.toNat 1 0 := by rw [Fields.bits, h]

/-- A summary of a sett that is no gang's (R127). -/
theorem execSverd_summary {s s1 : State} {f : Fields} {n : Word} {x : Sett} (issues : s.issues 0xD4 f) (modf : f.modf = 1)
    (src : s.src f.a = .ok (n, s1)) (fits : n.toNat ≤ 64) (first : s1.me.verdict = false)
    (found : s1.settOf (clusterOf s1.cur) s1.me.surrSett = some x) (mine : x.launch = s1.me.launch) (asked : x.st = .surrendering)
    (plain : x.gang = false) :
    ∃ t, exec (.sverd f) s = .next t ∧ (t.slot s.cur s.curSlot).st = .free ∧ t.now = s1.now ∧
      (t.cluster (clusterOf s1.cur)).setts = ((s1.judged.verdict x 1 n.toNat).cluster (clusterOf s1.judged.cur)).setts := by
  have summary : f.bits 1 0 = 1 := Fields.bits_of_modf modf
  have kept := State.keepsSetts_src src
  rw [← kept.cur, ← kept.curSlot, ← summary]
  exact execSverd_ends issues (State.verdictSrc_summary summary src) fits first found mine asked fun h => ne_true_of_eq_false plain h.2

/-- Settles O45, instruction by instruction: what each does with its sett, and that a firing's end leaves the setts as its verdict made them. -/
theorem settInstructions : Obligations.SettInstructions := by
  refine ⟨?sacq, ?large, ?srel, ?foreignOne, ?foreignTwo, ?sshrink, ?finishing, ?writers, ?busy, ?outside, ?surr, ?sverd, ?summary,
    ?whole, ?again, ?sqry⟩
  case sacq =>
    intro f s s1 a im l issues src image low launch e cl who r valid unheld allowed new
    have run : exec (.sacq f) s = .next (s.settle (s.answerSacq s1 f l a.toNat e r)) :=
      execSacq_serves issues src image low launch valid unheld allowed new
    rw [run]
    refine ⟨fun behind => ?_, fun first => ⟨fun g t found => ?_, fun found => ?_, fun lent recalls ending found may => ?_,
      fun found plain => ?_, fun t found trying dst => ?_⟩⟩
    · rw [State.answerSacq_behind behind, State.settle_gone]
    · intro o dst
      refine ⟨?_, rfl, rfl, rfl, rfl, rfl, fun plain => if_neg (ne_true_of_eq_false plain)⟩
      rw [State.answerSacq_run first found, dst, seqOf, State.settle_seq]
    · rw [State.answerSacq_lands first found, State.settle_gone]
      rfl
    · rw [State.answerSacq_asks first found may, State.settle_gone]
    · rw [State.answerSacq_waits first found plain, State.settle_gone]
    · rw [State.answerSacq_busy first found trying, dst, seqOf, State.settle_seq]
  case large => exact fun f s s1 a issues src large => execSacq_large issues src large
  case srel =>
    exact fun f s s1 h x issues src named whole quiet => ⟨execSrel_releases issues src named whole quiet, fun y mem => State.settGone_gone mem⟩
  case foreignOne =>
    intro f s s1 h e known issues src foreign
    simp only [List.mem_cons, List.not_mem_nil, or_false] at known
    obtain rfl | rfl := known
    · exact execSrel_foreign issues src (State.handleSett_foreign foreign)
    · exact execSqry_foreign issues src (State.handleSett_foreign foreign)
  case foreignTwo =>
    intro f s s1 s2 h b e known issues src src' foreign
    simp only [List.mem_cons, List.not_mem_nil, or_false] at known
    obtain rfl | rfl := known
    · exact execSshrink_foreign issues src src' (State.handleSett_foreign foreign)
    · exact execSurr_foreign issues src src' (State.handleSett_foreign foreign)
  case sshrink =>
    intro f s s1 s2 h n x issues src src' named held positive fits going quiet
    rw [execSshrink_named issues src src' named held positive fits, quiet, if_neg Bool.false_ne_true, if_neg going]
    exact ⟨rfl, fun y mem same plain => State.settShrink_size mem same plain⟩
  case finishing =>
    intro f s s1 s2 h n x issues src src' named held positive fits finishing quiet
    rw [execSshrink_named issues src src' named held positive fits, quiet, if_neg Bool.false_ne_true, if_pos finishing]
    refine ⟨_, rfl, ?_, fun y mem same => ?_⟩
    · have kept := (s2.keepsSlots_settShrink (clusterOf s2.cur) x.gen n.toNat).trans (State.keepsSlots_modSett _ (clusterOf s2.cur) x.gen
        (fun y => { y with st := .current, finishEnd := none }))
      rw [State.me_retire_eq]
      exact congrArg (fun y : Slot => y.retired (y.pc + 12)) kept.me
    · rw [State.cluster_retire, State.setts_settOutcome] at mem
      obtain ⟨z, hz, same, rfl⟩ := State.of_mem_modSett mem same
      exact ⟨rfl, rfl, fun plain => State.settShrink_size (y := z) hz same plain⟩
  case writers =>
    intro f s s1 s2 h n x issues src src' named held positive fits busy
    rw [execSshrink_named issues src src' named held positive fits, if_pos busy]
  case busy => exact fun f s s1 h x issues src named busy => execSrel_stalls issues src named busy
  case outside => exact fun f s s1 s2 h n x issues src src' named outside => execSshrink_faults issues src src' named outside
  case surr =>
    exact fun f s s1 s2 h b x issues src src' named low surrender negotiated holder held =>
      execSurr_names issues src src' named low surrender negotiated holder held
  case sverd =>
    intro f s x issues modf first found mine asked
    have other : f.bits 1 0 ≠ 1 := by
      obtain h | h := modf <;> rw [Fields.bits_of_modf h] <;> decide
    obtain ⟨t, run, free, -, setts⟩ := execSverd_ends issues (State.verdictSrc_other other) (Nat.zero_le _) first found mine asked
      fun h => other h.1
    refine ⟨t, run, free, fun y mem same => ?_⟩
    rw [setts] at mem
    obtain finish | refuse := modf
    · rw [(Fields.bits_of_modf finish : f.bits 1 0 = 0)] at mem
      rw [if_pos finish]
      exact State.verdict_finish mem same
    · rw [if_neg (by rw [refuse]; decide)]
      exact State.verdict_refused (by rw [Fields.bits_of_modf refuse]; decide) (fun h => other h.1) mem same
  case summary =>
    intro f s s1 n x issues modf src fits first found mine asked plain less
    obtain ⟨t, run, free, -, setts⟩ := execSverd_summary issues modf src fits first found mine asked plain
    refine ⟨t, run, free, fun y mem same => ?_⟩
    rw [setts] at mem
    obtain ⟨positive, st, size⟩ := State.verdict_summarised less mem same
    exact ⟨fun none => positive (congrArg BitVec.toNat none), st, size⟩
  case whole =>
    intro f s s1 n x issues modf src fits first found only mine asked plain whole
    obtain ⟨t, run, free, now, setts⟩ := execSverd_summary issues modf src fits first found mine asked plain
    refine ⟨t, run, free, fun y mem same => ?_⟩
    rw [setts] at mem
    have refused : ¬ (1 = 1 ∧ n.toNat < x.size) := fun h => Nat.not_lt_of_le whole h.2
    obtain ⟨size, refusals⟩ := State.verdict_refused_only (s := s1.judged) only (by decide) refused mem same
    exact ⟨State.verdict_refused (by decide) refused mem same, size, (State.windowRefusals_congr now y).trans refusals⟩
  case again =>
    intro f s issues modf given
    refine execSverd_again issues ?_ given
    obtain h | h := (sverd_modf issues).imp_right (Or.resolve_left · modf) <;> rw [Fields.bits_of_modf h] <;> decide
  case sqry => exact fun f s s1 t h x issues src named dst => execSqry_answers issues src named dst

end Sys2Proof.Machine
end

section

/-! PROOF. Instructions that complete and change the issuing slot alone, and the operands that check 4 of R183 lets through. -/

namespace Sys2Proof.Machine
open Sys2Proof.Claims

/-! ### Completing with another slot -/

/-- An instruction whose body hands on a new slot with the pc as it was changes that slot alone. -/
theorem steps_of_setMe {i : Instr} {s : State} {x : Slot} (run : exec i s = .next (s.setMe x).retire) (pc : x.pc = s.me.pc) : steps i s x :=
  ⟨_, run, (s.onlySlot_setMe x).trans (State.onlySlot_retireTo ..), by rw [State.me_retire_eq, State.me_setMe, pc]⟩

/-! ### The forms that check 4 lets through (R183, R187) -/

/-- Fields that pass check 4 fit one of the entry's forms in every position. -/
theorem form_of_check4 {forms : List Form} {f : Fields} (h : check4 forms f = none) :
    ∃ x ∈ forms, admitsAny x.d f.d = true ∧ admitsAny x.a f.a = true ∧ admitsAny x.b f.b = true ∧ x.modOk f.modf.toNat = true := by
  unfold check4 at h
  dsimp only at h
  split at h
  · nomatch h
  split at h
  · nomatch h
  split at h
  · nomatch h
  split at h
  · nomatch h
  split at h
  next taken =>
    obtain ⟨x, mem, ok⟩ := List.any_eq_true.mp taken
    obtain ⟨mem, b⟩ := List.mem_filter.mp mem
    obtain ⟨mem, a⟩ := List.mem_filter.mp mem
    obtain ⟨mem, d⟩ := List.mem_filter.mp mem
    exact ⟨x, mem, d, a, b, ok⟩
  · nomatch h

theorem State.issues.form {s : State} {op : Nat} {f : Fields} (h : s.issues op f) :
    ∃ x ∈ formsOf op, admitsAny x.d f.d = true ∧ admitsAny x.a f.a = true ∧ admitsAny x.b f.b = true ∧ x.modOk f.modf.toNat = true :=
  form_of_check4 (State.check4_of_preCheck h.1)

/-- An operand of the letters G and I: a g register, a port or an immediate (R187). -/
def Operand.isScalar : Operand → Bool
  | .g _ | .port _ | .imm _ => true
  | _ => false

theorem Operand.isScalar_of_G {o : Operand} (h : admitsAny Forms.G o = true) : Operand.isScalar o = true := by
  cases o with
  | g | port => rfl
  | _ => nomatch h
theorem Operand.isScalar_of_GI {o : Operand} (h : admitsAny Forms.GI o = true) : Operand.isScalar o = true := by
  cases o with
  | g | port | imm => rfl
  | _ => nomatch h

end Sys2Proof.Machine
end

section

/-! PROOF. The moves between files (O19; R166, R207 to R209). -/

namespace Sys2Proof.Machine
open Sys2Proof.Claims

section
variable {s s1 s2 t : State} {f : Fields} {a b : Word}

/-! ### `LEA` (R207) -/

theorem execLea_gives (issues : s.issues 0x37 f) (dst : s.dst f.d (s.addr f.a (f.width / 8)) = .ok t) : exec (.lea f) s = .next t.retire := by
  change execLea f s = _
  rw [execLea, State.issue_issues issues]
  simp only [dst, seqOf, State.settle_seq]

/-! ### `MOVS` (R166, R208) -/

/-- What a write of SEED leaves there: 0 becomes 1 (R166). -/
def seedOf (a : Word) : BitVec 32 := if a.setWidth 32 = (0 : BitVec 32) then 1 else a.setWidth 32

theorem execMovs_reads {n : BitVec 17} (issues : s.issues 0x38 f) (src : f.a = .sys n) (dst : s.dstFree f.d (s.sysRead n.toNat) = .ok t) :
    exec (.movs f) s = .next t.retire := by
  change execMovs f s = _
  rw [execMovs, State.issue_issues issues]
  simp only [src, dst, seqOf, State.settle_seq]

/-- A `MOVS` whose D is a system register has a scalar source (R208). -/
theorem movs_source {n : BitVec 17} (issues : s.issues 0x38 f) (d : f.d = .sys n) : Operand.isScalar f.a = true := by
  obtain ⟨x, form, hd, ha, -⟩ := issues.form
  have forms : formsOf 0x38 = [⟨Forms.G, Forms.S, Forms.N, Modf.zero⟩, ⟨Forms.S, Forms.GI, Forms.N, Modf.zero⟩] := rfl
  rw [forms, List.mem_cons, List.mem_singleton] at form
  rw [d] at hd
  obtain rfl | rfl := form
  · nomatch hd
  · exact Operand.isScalar_of_GI ha

theorem execMovs_seeds {n : BitVec 17} (issues : s.issues 0x38 f) (d : f.d = .sys n) (src : s.src f.a = .ok (a, s1)) :
    exec (.movs f) s = .next (seeded s1 (seedOf a)).retire := by
  change execMovs f s = _
  rw [execMovs, State.issue_issues issues]
  have scalar := movs_source issues d
  split
  next named => simp [named, Operand.isScalar] at scalar
  next => simp only [src, State.settle_seq, seeded, seedOf]

theorem seed_seeded_retire (s : State) (l : BitVec 32) : (seeded s l).retire.here.seed = l := by
  rw [State.retire, State.retireTo_here, seeded, State.here_setHere]

theorem me_seeded (s : State) (l : BitVec 32) : (seeded s l).me = s.me := State.me_setHere ..

/-! ### `MOVW` (R209) -/

theorem execMovw_of_w {n : BitVec 3} (issues : s.issues 0x39 f) (src : f.a = .w n) (dst : s.dst f.d (s.me.readW n) = .ok t) :
    exec (.movw f) s = .next t.retire := by
  change execMovw f s = _
  rw [execMovw, State.issue_issues issues]
  simp only [src, State.srcW, dst, seqOf, State.settle_seq]

theorem word_boolNat (b : Bool) : word (boolNat b) = if b then 1 else 0 := by cases b <;> rfl

theorem execMovw_of_p {n : BitVec 3} (issues : s.issues 0x39 f) (src : f.a = .p n) (dst : s.dst f.d (if s.me.readP n then 1 else 0) = .ok t) :
    exec (.movw f) s = .next t.retire := by
  change execMovw f s = _
  rw [execMovw, State.issue_issues issues]
  simp only [src, State.srcP, word_boolNat, dst, seqOf, State.settle_seq]

theorem memberWord_eq (m : Members) (j : Nat) : memberWord m j = m.extractLsb' (64 * j) 64 := by
  rw [memberWord, BitVec.setWidth_ushiftRight_eq_extractLsb]

theorem execMovw_of_m {n : BitVec 2} (issues : s.issues 0x39 f) (src : f.a = .m n) (index : s.src f.b = .ok (b, s1)) (inside : immOutside f.b 0 3 = false)
    (dst : s1.dst f.d ((s1.me.readM n).extractLsb' (64 * (b.toNat % 4)) 64) = .ok t) : exec (.movw f) s = .next t.retire := by
  change execMovw f s = _
  rw [execMovw, State.issue_issues issues]
  simp only [src, index, inside, State.srcM, memberWord_eq, dst, seqOf, State.settle_seq, Bool.false_eq_true, if_false]

/-- A `MOVW` to a p, w or m register has a scalar source (R209). -/
theorem movw_source (issues : s.issues 0x39 f) (d : admitsAny Forms.G f.d = false) : Operand.isScalar f.a = true := by
  obtain ⟨x, form, hd, ha, -⟩ := issues.form
  have forms : formsOf 0x39 = [⟨Forms.W, Forms.G, Forms.N, Modf.zero⟩, ⟨Forms.G, Forms.W, Forms.N, Modf.zero⟩,
    ⟨Forms.P, Forms.G, Forms.N, Modf.zero⟩, ⟨Forms.G, Forms.P, Forms.N, Modf.zero⟩, ⟨Forms.M, Forms.G, Forms.GI, Modf.zero⟩,
    ⟨Forms.G, Forms.M, Forms.GI, Modf.zero⟩] := rfl
  rw [forms] at form
  simp only [List.mem_cons, List.not_mem_nil, or_false] at form
  obtain rfl | rfl | rfl | rfl | rfl | rfl := form
  · exact Operand.isScalar_of_G ha
  · simp [d] at hd
  · exact Operand.isScalar_of_G ha
  · simp [d] at hd
  · exact Operand.isScalar_of_G ha
  · simp [d] at hd

/-- Where a `MOVW` from a scalar source puts the word: a mask, a predicate, or one word of a membership. -/
def State.movwPut (s : State) (f : Fields) (a b : Word) : Res After :=
  match f.d with
  | .w _ => .ok (.seq (s.dstW f.d a))
  | .p _ => .ok (.seq (s.dstP f.d (a != 0)))
  | _ => if immOutside f.b 0 3 then .error (.field 4) else .ok (.seq (s.dstM f.d (setMemberWord (s.srcM f.d) (b.toNat % 4) a)))

theorem execMovw_to (issues : s.issues 0x39 f) (d : admitsAny Forms.G f.d = false) (src : s.src f.a = .ok (a, s1)) (src' : s1.src f.b = .ok (b, s2)) :
    exec (.movw f) s = .next (s.settle (s2.movwPut f a b)) := by
  change execMovw f s = _
  rw [execMovw, State.issue_issues issues]
  have scalar := movw_source issues d
  split
  next named => simp [named, Operand.isScalar] at scalar
  next named => simp [named, Operand.isScalar] at scalar
  next named => simp [named, Operand.isScalar] at scalar
  next => simp only [src, src'] <;> rfl

theorem execMovw_to_w {n : BitVec 3} (issues : s.issues 0x39 f) (d : f.d = .w n) (src : s.src f.a = .ok (a, s1)) (noB : f.b = .none) :
    exec (.movw f) s = .next (s1.setMe (s1.me.writeW n a)).retire := by
  rw [execMovw_to issues (by rw [d]; rfl) src (noB ▸ s1.src_none)]
  simp only [State.movwPut, d, State.dstW_w, State.settle_seq]

theorem execMovw_to_p {n : BitVec 3} (issues : s.issues 0x39 f) (d : f.d = .p n) (src : s.src f.a = .ok (a, s1)) (noB : f.b = .none) :
    exec (.movw f) s = .next (s1.setMe (s1.me.writeP n (a != 0))).retire := by
  rw [execMovw_to issues (by rw [d]; rfl) src (noB ▸ s1.src_none)]
  simp only [State.movwPut, d, State.dstP_p, State.settle_seq]

theorem execMovw_to_m {n : BitVec 2} (issues : s.issues 0x39 f) (d : f.d = .m n) (src : s.src f.a = .ok (a, s1)) (src' : s1.src f.b = .ok (b, s2))
    (inside : immOutside f.b 0 3 = false) :
    exec (.movw f) s = .next (s2.setMe (s2.me.writeM n (setMemberWord (s2.me.readM n) (b.toNat % 4) a))).retire := by
  rw [execMovw_to issues (by rw [d]; rfl) src src']
  simp only [State.movwPut, d, inside, State.srcM, State.dstM_m, State.settle_seq, Bool.false_eq_true, if_false]

end

/-- Setting word j of a membership decides its 64 bits and no other. -/
theorem getLsbD_setMemberWord (m : Members) {j i : Nat} (x : Word) (hi : i < 256) :
    (setMemberWord m j x).getLsbD i = if i / 64 = j then x.getLsbD (i % 64) else m.getLsbD i := by
  simp only [setMemberWord, BitVec.getLsbD_or, BitVec.getLsbD_and, BitVec.getLsbD_not, BitVec.getLsbD_shiftLeft, BitVec.getLsbD_setWidth,
    BitVec.getLsbD_allOnes, hi, decide_true, Bool.true_and]
  obtain low | rfl | high : i < 64 * j ∨ i / 64 = j ∨ 64 * j + 64 ≤ i := by omega
  · have : i / 64 ≠ j := by omega
    simp [low, this]
  · have : ¬ i < 64 * (i / 64) := by omega
    have : i - 64 * (i / 64) = i % 64 := by omega
    have : i % 64 < 256 := by omega
    have : i % 64 < 64 := by omega
    simp [*]
  · have : ¬ i < 64 * j := by omega
    have : i / 64 ≠ j := by omega
    have : ¬ i - 64 * j < 64 := by omega
    have : x.getLsbD (i - 64 * j) = false := BitVec.getLsbD_of_ge _ _ (by omega)
    simp [*]

/-- An immediate of R209's range: it is no field fault, and names the word that it reads as. -/
theorem wordIndex {x : BitVec 17} (h : x.toNat ≤ 3) : immOutside (.imm x) 0 3 = false ∧ (x.signExtend 64).toNat % 4 = x.toNat := by
  have toInt : x.toInt = x.toNat := BitVec.toInt_eq_toNat_of_lt (by omega)
  have msb : x.msb = false := BitVec.msb_eq_false_iff_two_mul_lt.mpr (by omega)
  refine ⟨?_, ?_⟩
  · simp only [immOutside, toInt, Bool.or_eq_false_iff, decide_eq_false_iff_not]
    omega
  · rw [BitVec.signExtend_eq_setWidth_of_msb_false msb, BitVec.toNat_setWidth]
    omega

/-- Settles O19: the last nine clauses say what each instruction does for every operand; the others are these with a register as operand. -/
theorem movesBetweenFiles : Obligations.MovesBetweenFiles := by
  refine ⟨?lea, ?read, ?seed, ?fromMask, ?toMask, ?fromMembers, ?toMembers, fun f s t issues dst => execLea_gives issues dst, ?movs,
    fun f s s1 n a issues d src => ⟨_, execMovs_seeds issues d src, rfl⟩, fun f s t n issues src dst => execMovw_of_w issues src dst,
    fun f s t n issues src dst => execMovw_of_p issues src dst, fun f s s1 d a issues named src noB => execMovw_to_w issues named src noB,
    fun f s s1 d a issues named src noB => execMovw_to_p issues named src noB,
    fun f s s1 t n b issues src index inside dst => execMovw_of_m issues src index inside dst,
    fun f s s1 s2 d a b issues named src src' inside =>
      ⟨_, execMovw_to_m issues named src src' inside, fun i hi => getLsbD_setMemberWord _ a hi⟩⟩
  case lea =>
    intro f s d b o issues named mem
    exact steps_of_setMe (execLea_gives issues (by rw [named, mem]; rfl)) (Slot.writeG_pc ..)
  case movs =>
    intro f s t n v issues src value dst
    exact execMovs_reads issues src (by rw [value]; exact dst)
  case read =>
    intro f s d n issues named src
    cases value : s.sysRead n.toNat with
    | some v =>
      have run := execMovs_reads (t := s.setMe (s.me.writeG d v)) issues src (by rw [value, named]; rfl)
      refine ⟨_, v, run, ?_, rfl, fun _ h => Option.some.inj h⟩
      rw [State.me_retire_eq, State.me_setMe, Slot.writeG_pc]
    | none =>
      have run := execMovs_reads (t := s.drew.setMe (s.me.writeG d s.free)) issues src (by rw [value, named]; rfl)
      refine ⟨_, s.free, run, ?_, rfl, fun _ h => nomatch h⟩
      rw [State.me_retire_eq, State.me_setMe, Slot.writeG_pc]
  case seed =>
    intro f s a issues named src
    refine ⟨_, execMovs_seeds issues named (by rw [src]; rfl), ?_, rfl, seed_seeded_retire ..⟩
    rw [State.me_retire_eq, me_seeded]
  case fromMask =>
    intro f s d a issues named
    exact ⟨fun src => steps_of_setMe (execMovw_of_w issues src (by rw [named]; rfl)) (Slot.writeG_pc ..),
      fun src => steps_of_setMe (execMovw_of_p issues src (by rw [named]; rfl)) (Slot.writeG_pc ..)⟩
  case toMask =>
    intro f s d a issues src noB
    exact ⟨fun named => steps_of_setMe (execMovw_to_w issues named (by rw [src]; rfl) noB) (Slot.writeW_pc ..),
      fun named => steps_of_setMe (execMovw_to_p issues named (by rw [src]; rfl) noB) (Slot.writeP_pc ..)⟩
  case fromMembers =>
    intro f s d a x issues named src imm small
    obtain ⟨inside, index⟩ := wordIndex small
    refine ⟨_, steps_of_setMe (execMovw_of_m issues src (by rw [imm]; rfl) (by rw [imm]; exact inside) (by rw [named]; rfl))
      (Slot.writeG_pc ..), fun i hi => ?_⟩
    simp [sext, index, hi]
  case toMembers =>
    intro f s d a x issues named src imm small
    obtain ⟨inside, index⟩ := wordIndex small
    refine ⟨_, steps_of_setMe (execMovw_to_m issues named (by rw [src]; rfl) (by rw [imm]; rfl) (by rw [imm]; exact inside))
      (Slot.writeM_pc ..), fun i hi => ?_⟩
    rw [getLsbD_setMemberWord _ _ hi, sext, index]

end Sys2Proof.Machine
end

section

/-! PROOF. Rounded float results in both shapes (O21, O22; R164, R166, R211, R212). -/

namespace Sys2Proof.Machine
open Sys2Proof.Num Sys2Proof.Claims

/-! ### Lanes as bit vectors (R159) -/

theorem elem_eq_lane (w : Nat) (x : Line) (i : Nat) : elem w x.toNat i = (lane w x i).toNat := by
  rw [elem, lane, BitVec.extractLsb'_toNat]

theorem lanesOf_eq_map (w : Nat) (x : Line) : lanesOf w x = (List.range (512 / w)).map (fun i => (lane w x i).toNat) :=
  List.map_congr_left fun i _ => elem_eq_lane w x i

/-- A function over the lanes of d, a and b, by the index of the lane. -/
theorem map_zip_lanesOf {α : Type} (g : Nat → Nat → Nat → α) (w : Nat) (d a : Line) {b : List Nat} (len : b.length = 512 / w) :
    (List.zip (lanesOf w d) (List.zip (lanesOf w a) b)).map (fun x => g x.1 x.2.1 x.2.2) =
      (List.range (512 / w)).map (fun i => g (lane w d i).toNat (lane w a i).toNat (b.getD i 0)) := by
  rw [lanesOf_eq_map, lanesOf_eq_map]
  refine List.ext_getElem (by simp [len]) fun i _ h => ?_
  have inside : i < b.length := by simpa [len] using h
  simp [inside]

/-! ### Rounding (R164, R166) -/

theorem State.rounded_one (s : State) (fmt mode : Nat) (sat : Bool) (v : XVal) :
    s.rounded fmt mode sat [v] = ([(roundStep fmt mode sat s.here.seed v).1], seeded s (roundStep fmt mode sat s.here.seed v).2) := rfl

/-! ### The shapes of R211 -/

section
variable {g : LaneFun} {f : Fields} {s s1 s2 : State}

theorem floatBody_scalar {a b : Word} (scalar : ∀ n, f.d ≠ .v n) (srcA : s.src f.a = .ok (a, s1)) (srcB : s1.src f.b = .ok (b, s2)) :
    floatBody g f s =
      (let r := roundStep f.fmt f.rnd f.sat s2.here.seed
        (g ((s2.oldG f.d).toNat % 2 ^ fmtWidth f.fmt) (a.toNat % 2 ^ fmtWidth f.fmt) (b.toNat % 2 ^ fmtWidth f.fmt))
      seqOf ((seeded s2 r.2).dst f.d (word r.1))) := by
  unfold floatBody
  split
  next n named => exact absurd named (scalar n)
  next => simp only [srcA, srcB, State.rounded_one, List.getD_cons_zero]

theorem floatBody_vector {d a : BitVec 5} {b : List Nat} (dst : f.d = .v d) (srcA : f.a = .v a) (srcB : s.laneB f.b (fmtWidth f.fmt) = .ok (b, s1))
    (len : b.length = 512 / fmtWidth f.fmt) :
    floatBody g f s =
      (let r := roundAll f.fmt f.rnd f.sat s1.here.seed ((List.range (512 / fmtWidth f.fmt)).map fun i =>
        g (lane (fmtWidth f.fmt) (s1.me.readV d) i).toNat (lane (fmtWidth f.fmt) (s1.me.readV a) i).toNat (b.getD i 0))
      .ok (.seq ((seeded s1 r.2).setMe ((seeded s1 r.2).me.writeV d (ofLanes (fmtWidth f.fmt) r.1))))) := by
  rw [← map_zip_lanesOf g _ _ _ len]
  simp only [floatBody, dst, srcA, srcB]
  rfl

end

/-! ### The entries (R211, R212) -/

/-- Each rounded entry issues as its opcode, with its exact value as the function of its lanes. -/
theorem exec_roundedEntry {e : FloatEntry} (mem : e ∈ roundedEntries) (f : Fields) (s : State) :
    exec (e.make f) s = s.issue e.op f (floatBody (e.exact f) f) := by
  simp only [roundedEntries, List.mem_cons, List.not_mem_nil, or_false] at mem
  obtain rfl | rfl | rfl | rfl | rfl | rfl | rfl | rfl | rfl | rfl | rfl | rfl | rfl := mem <;> rfl

/-- Settles O21: the entry's body in the scalar shape, whose one value is rounded after at most one advance of SEED. -/
theorem scalarFloatResults : Obligations.ScalarFloatResults := by
  intro e mem f s s1 s2 t a b issues scalar srcA srcB dst
  rw [exec_roundedEntry mem, State.issue_issues issues, floatBody_scalar scalar srcA srcB]
  simp only [roundStep, dst, seqOf, State.settle_seq]

/-- Settles O22: the entry's body in the vector shape, whose values are rounded in the order of the lanes. -/
theorem vectorFloatResults : Obligations.VectorFloatResults := by
  intro e mem f s s1 d a b issues dst srcA srcB len
  rw [exec_roundedEntry mem, State.issue_issues issues, floatBody_vector dst srcA srcB len]
  rfl

end Sys2Proof.Machine
end

section

/-! PROOF. Decoding gives back what encoding made (O58; R4, R171 to R176, R180): an operand's field, the fields of a word, and the bytes of
an instruction, from below. The worked words of the manual (O59) follow from it. -/

namespace Sys2Proof

/-! ### Operand fields (R173) -/

/-- Where the decoder answers another operand than `bad`, it found the reserved bits of the class zero and the numbers in range; `encodable`
says that they are not. -/
theorem decodeOperand_bad {raw : BitVec 20} (h : (Operand.bad raw).encodable = true) : decodeOperand raw = .bad raw := by
  have width := raw.isLt
  simp only [Operand.encodable, bitsOf, bitOf, Nat.shiftRight_eq_div_pow, Nat.testBit_eq_decide_div_mod_eq, Bool.ite_eq_true_distrib,
    Bool.or_eq_true, Bool.and_eq_true, Bool.false_eq_true, decide_eq_true_eq, bne_iff_ne, beq_iff_eq, ite_prop_iff_and, imp_false, not_not] at h
  simp only [decodeOperand, ← BitVec.toNat_inj, BitVec.extractLsb'_toNat, Nat.shiftRight_eq_div_pow, BitVec.ofNat_eq_ofNat, BitVec.toNat_ofNat]
  split_ifs
  any_goals rfl
  all_goals omega

/-- A field's parts are read where they were put. A register's or port's number has few values; an immediate, a memory operand, a system
register and a row are read by the places of their parts. -/
theorem decodeOperand_encodeOperand {o : Operand} (h : o.encodable = true) : decodeOperand (encodeOperand o) = o := by
  cases o with
  | g n | v n | p n | w n | m n | port n =>
    clear h
    revert n
    decide
  | none => rfl
  | imm | mem | sys =>
    simp (disch := omega) only [decodeOperand, encodeOperand, BitVec.extractLsb'_extractLsb'_of_le, BitVec.extractLsb'_append_eq_of_le,
      BitVec.extractLsb'_append_eq_of_add_le]
    simp
  | row n =>
    have inside : n.toNat ≤ 1279 := of_decide_eq_true h
    simp (disch := omega) only [decodeOperand, encodeOperand, BitVec.extractLsb'_extractLsb'_of_le, BitVec.extractLsb'_append_eq_of_le,
      BitVec.extractLsb'_append_eq_of_add_le]
    simp [inside]
  | bad raw => exact decodeOperand_bad h

/-! ### The fields of a word (R171) -/

theorem getLsbD_append_of_le {v w : Nat} (x : BitVec v) (y : BitVec w) {i : Nat} (h : w ≤ i) : (x ++ y).getLsbD i = x.getLsbD (i - w) := by
  rw [BitVec.getLsbD_append, if_neg (Nat.not_lt.mpr h)]

theorem getLsbD_append_of_lt {v w : Nat} (x : BitVec v) (y : BitVec w) {i : Nat} (h : i < w) : (x ++ y).getLsbD i = y.getLsbD i := by
  rw [BitVec.getLsbD_append, if_pos h]

theorem getLsbD_bit1 (b : Bool) : (bit1 b).getLsbD 0 = b := by cases b <;> rfl

theorem opcode_encodeFields (op : BitVec 8) (f : Fields) : (encodeFields op f).extractLsb' 88 8 = op := by
  simp (disch := omega) only [encodeFields, BitVec.extractLsb'_append_eq_of_le]
  exact BitVec.extractLsb'_eq_self

theorem decodeFields_encodeFields (op : BitVec 8) {f : Fields} (h : f.encodable = true) : decodeFields (encodeFields op f) = f := by
  simp only [Fields.encodable, Bool.and_eq_true] at h
  obtain ⟨⟨d, a⟩, b⟩ := h
  simp (disch := omega) only [decodeFields, encodeFields, BitVec.extractLsb'_append_eq_of_le, BitVec.extractLsb'_append_eq_of_add_le,
    getLsbD_append_of_le, getLsbD_append_of_lt]
  simp only [Nat.reduceSub, BitVec.extractLsb'_eq_self, getLsbD_bit1, decodeOperand_encodeOperand d, decodeOperand_encodeOperand a,
    decodeOperand_encodeOperand b]

/-! ### Bytes (R4) -/

theorem length_bytesOfNat (k x : Nat) : (bytesOfNat k x).length = k := by
  induction k generalizing x with
  | zero => rfl
  | succ k ih => rw [bytesOfNat, List.length_cons, ih]

theorem natOfBytes_bytesOfNat (k x : Nat) : natOfBytes (bytesOfNat k x) = x % 256 ^ k := by
  induction k generalizing x with
  | zero => rw [pow_zero, Nat.mod_one]; rfl
  | succ k ih =>
    have byte : (BitVec.ofNat 8 x).toNat = x % 256 := BitVec.toNat_ofNat x 8
    rw [bytesOfNat, natOfBytes, ih, byte, Nat.pow_succ', Nat.mod_mul]

/-- The twelve bytes of a word decode to the word's instruction, and the bytes after them are left. -/
theorem decodeBytes_bytesOfNat (x : BitVec 96) (l : List Byte) : decodeBytes (bytesOfNat 12 x.toNat ++ l) = .ok (decodeWord x, l) := by
  have len := length_bytesOfNat 12 x.toNat
  have word : BitVec.ofNat 96 (natOfBytes (bytesOfNat 12 x.toNat)) = x := by
    rw [natOfBytes_bytesOfNat, Nat.mod_eq_of_lt (by simpa using x.isLt), BitVec.ofNat_toNat, BitVec.setWidth_eq]
  rw [decodeBytes, if_neg (by simp [len]), List.take_left' len, List.drop_left' len, word]

/-! ### Instructions (R180) -/

theorem Instr.instrOf_word {i : Instr} {op : BitVec 8} {f : Fields} (h : i.encodable = true) (word : i.word? = some (op, f)) :
    instrOf op f = i := by
  cases i with
  | illegalInstruction x => exact Laws.Encoding.illegalInstruction x h op f word
  | _ => cases word <;> rfl

theorem Instr.encodable_fields {i : Instr} {op : BitVec 8} {f : Fields} (h : i.encodable = true) (word : i.word? = some (op, f)) :
    f.encodable = true := by
  unfold Instr.encodable at h
  split at h
  · cases word
    exact (Bool.and_eq_true_iff.mp h).2
  · rwa [word] at h

theorem decodeWord_of_encode {i : Instr} {x : BitVec 96} (h : i.encodable = true) (code : encode i = some x) : decodeWord x = i := by
  unfold encode at code
  split at code
  next op f word =>
    cases code
    rw [decodeWord, opcode_encodeFields, decodeFields_encodeFields op (i.encodable_fields h word), i.instrOf_word h word]
  next => nomatch code

/-- Settles O58: the bytes give the word back, and the word its opcode, its fields and so its instruction. -/
theorem decodeOfEncode : Obligations.DecodeOfEncode := by
  intro i x l h code
  rw [decodeBytes_bytesOfNat, decodeWord_of_encode h code]

/-- Settles O59: each word is the encoding of its instruction, and so decodes to it. -/
theorem decodedWords : Obligations.DecodedWords := by
  intro e mem
  simp only [List.mem_cons, List.not_mem_nil, or_false] at mem
  obtain rfl | rfl | rfl | rfl | rfl | rfl | rfl | rfl := mem <;> exact decodeWord_of_encode rfl rfl

end Sys2Proof
end

section

/-! PROOF. What every instruction's issue has in common: the checks, the guard and the port that is full (O4; R174, R177, R183), and the illegal
opcodes (O5; R182, R183). -/

namespace Sys2Proof.Machine

/-- An instruction that a word encodes issues as the opcode and the fields of its word: its meaning is the body that runs once the checks,
the guard and the test of a full port have passed. -/
theorem exec_of_word {i : Instr} {op : BitVec 8} {f : Fields} (word : i.word? = some (op, f)) :
    ∃ body : State → Res After, ∀ s, exec i s = s.issue op.toNat f body := by
  cases i with
  | illegalInstruction x =>
    cases x with
    | reserved => cases word; exact ⟨_, fun _ => rfl⟩
    | pastEnd => nomatch word
  | _ => cases word <;> exact ⟨_, fun _ => rfl⟩

/-- An instruction that its guard annuls is counted, and the next one follows (R177). -/
theorem State.slotwise_annulled (s : State) : s.Slotwise (s.setHere (s.here.bump 0x0D 1)).retire (s.me.retired (s.me.pc + 12)) :=
  ⟨(s.onlySlot_setHere _ (Core.bump_eq ..) fun _ _ => rfl).trans (State.onlySlot_retireTo ..), by
    rw [State.me_retire_eq, State.me_setHere]; rfl⟩

/-- Settles O4: `exec_of_word` reduces each instruction to `State.issue`, whose cases are the clauses. -/
theorem checksAtIssue : Obligations.ChecksAtIssue := by
  intro i op f s word
  obtain ⟨body, run⟩ := exec_of_word word
  rw [run]
  exact ⟨fun c v a failed => s.issue_fault _ f body failed,
    fun passed annulled => ⟨_, s.issue_annul _ f body passed annulled, s.slotwise_annulled⟩,
    fun w passed holds full => s.issue_blocked _ f body passed holds full⟩

/-- Check 1 of R183 comes before every other. -/
theorem State.preCheck_illegal {s : State} {op : Nat} {f : Fields}
    (illegal : formsOf op = [] ∨ (privilegedOp op f = true ∧ s.privileged = false)) : s.preCheck op f = some (1, word op, 0) :=
  if_pos illegal

/-- Settles O5: a reserved or a privileged opcode fails check 1; a fetch past the end of the code is a fault by its own meaning. -/
theorem illegalOpcodesFault : Obligations.IllegalOpcodesFault := by
  refine ⟨?reserved, ?privileged, fun s => rfl⟩
  case reserved =>
    intro op f s reserved
    obtain ⟨fault, -, -⟩ := checksAtIssue (.illegalInstruction (.reserved op f)) op f s rfl
    exact fault _ _ _ (State.preCheck_illegal (.inl reserved))
  case privileged =>
    intro i op f s word privileged plain
    obtain ⟨fault, -, -⟩ := checksAtIssue i op f s word
    exact fault _ _ _ (State.preCheck_illegal (.inr ⟨privileged, plain⟩))

end Sys2Proof.Machine
end

section

/-! PROOF. The transfers of control (O12; R172, R190, R191). -/

namespace Sys2Proof.Machine
open Sys2Proof.Claims

/-! ### What a transfer comes to (R172) -/

/-- A register's value as a target is the offset that it is. -/
theorem jumpTo_eq_branchTo (s : State) (pc : Word) : jumpTo s pc = branchTo s pc.toNat := by
  have aligned : ((pc.toNat : Int) % 12 = 0) = (pc.toNat % 12 = 0) := by rw [eq_iff_iff]; omega
  simp only [jumpTo, branchTo, aligned, BitVec.ofInt_natCast, BitVec.ofNat_toNat, BitVec.setWidth_eq]

/-- An instruction whose body branches, from a state in which nothing but its slot has changed. -/
theorem transfers_of_branchTo {i : Instr} {s s' : State} {x : Slot} {target : Int} (run : exec i s = .next (s.settle (branchTo s' target)))
    (slot : s.Slotwise s' x) : transfers i s x target := by
  obtain ⟨only, me⟩ := slot
  unfold transfers
  rw [run, branchTo]
  split
  next =>
    refine ⟨_, rfl, only.trans ((s'.onlySlot_setHere _ (Core.bump_eq ..) fun _ _ => rfl).trans (State.onlySlot_retireTo ..)), ?_⟩
    rw [State.settle_goto, State.me_retireTo_eq, State.me_setHere, Core.bump_slot, ← State.me_eq, me]
  next => rfl

theorem State.slotwise_refl (s : State) : s.Slotwise s s.me := ⟨.refl s, rfl⟩
theorem State.slotwise_setMe (s : State) (x : Slot) : s.Slotwise (s.setMe x) x := ⟨s.onlySlot_setMe x, s.me_setMe x⟩

/-! ### The instructions (R190, R191) -/

section
variable {s : State} {f : Fields} {d n : BitVec 5} {x : BitVec 17}

theorem execBra_branches (issues : s.issues 0x01 f) (a : f.a = .imm x) :
    exec (.bra f) s = .next (s.settle (branchTo s (relative s x.toInt))) := by
  change execBra f s = _
  rw [execBra, State.issue_issues issues]
  simp only [a]
  rfl

theorem execJmp_branches (issues : s.issues 0x02 f) (a : f.a = .g n) :
    exec (.jmp f) s = .next (s.settle (branchTo s (s.me.readG n).toNat)) := by
  change execJmp f s = _
  rw [execJmp, State.issue_issues issues, jumpTo_eq_branchTo, a]
  rfl

/-- The target of a `CALL`: relative by an immediate, else a register's value. -/
def callTarget (s : State) : Operand → Int
  | .imm x => relative s x.toInt
  | o => (s.oldG o).toNat

theorem execCall_branches (issues : s.issues 0x03 f) (link : f.d = .g d) :
    exec (.call f) s = .next (s.settle (branchTo (s.setMe (s.me.writeG d (s.me.pc + 12))) (callTarget s f.a))) := by
  change execCall f s = _
  rw [execCall, State.issue_issues issues, link, State.dst_g]
  cases f.a <;> simp only [jumpTo_eq_branchTo] <;> rfl

theorem execRet_branches (issues : s.issues 0x04 f) (a : f.a = .g n ∨ (f.a = .none ∧ n = 31)) :
    exec (.ret f) s = .next (s.settle (branchTo
      (s.setMe (if s.me.light = true ∧ s.me.readG n = s.me.lightRet then { s.me with light := false } else s.me)) (s.me.readG n).toNat)) := by
  change execRet f s = _
  rw [execRet, State.issue_issues issues, jumpTo_eq_branchTo]
  obtain a | ⟨a, rfl⟩ := a <;> rw [a] <;> rfl

theorem execLoop_ends (issues : s.issues 0x05 f) (count : f.d = .g d) (last : s.me.readG d - 1 = 0) :
    exec (.loop f) s = .next (s.setMe (s.me.writeG d 0)).retire := by
  change execLoop f s = _
  rw [execLoop, State.issue_issues issues]
  simp only [count, State.oldG, last, State.dst_g, if_true, State.settle_seq]

theorem execLoop_branches (issues : s.issues 0x05 f) (count : f.d = .g d) (a : f.a = .imm x) (more : s.me.readG d - 1 ≠ 0) :
    exec (.loop f) s = .next (s.settle (branchTo (s.setMe (s.me.writeG d (s.me.readG d - 1))) (relative s x.toInt))) := by
  change execLoop f s = _
  rw [execLoop, State.issue_issues issues]
  simp only [count, a, State.oldG, more, State.dst_g, if_false, State.relative]
  rfl

theorem execJtab_faults (issues : s.issues 0x08 f) (b : f.b = .imm x) (negative : x.toInt < 0) :
    exec (.jtab f) s = .next (s.takeExact 0x02 4 0) := by
  change execJtab f s = _
  rw [execJtab, State.issue_issues issues]
  simp only [b, negative, if_true, State.settle_trap]

theorem execJtab_branches (issues : s.issues 0x08 f) (a : f.a = .g n) (b : f.b = .imm x) (bound : ¬ x.toInt < 0) :
    exec (.jtab f) s = .next (s.settle (branchTo s (relative s (1 + (min (s.me.readG n).toNat x.toNat : Nat))))) := by
  change execJtab f s = _
  rw [execJtab, State.issue_issues issues]
  simp only [a, b, bound, if_false, State.oldG, State.relative, relative, Nat.cast_add, Nat.cast_one]

end

/-- Settles O12, instruction by instruction: where each branches, and the slot that it leaves. -/
theorem controlTransfers : Obligations.ControlTransfers := by
  refine ⟨?bra, ?jmp, ?callRelative, ?callRegister, ?ret, ?loop, ?jtab⟩
  case bra => exact fun f s x issues a => transfers_of_branchTo (execBra_branches issues a) s.slotwise_refl
  case jmp => exact fun f s n issues a => transfers_of_branchTo (execJmp_branches issues a) s.slotwise_refl
  case callRelative =>
    intro f s d x issues link a
    have run := execCall_branches issues link
    rw [a] at run
    exact transfers_of_branchTo run (s.slotwise_setMe _)
  case callRegister =>
    intro f s d n issues link a
    have run := execCall_branches issues link
    rw [a] at run
    exact transfers_of_branchTo run (s.slotwise_setMe _)
  case ret => exact fun f s n issues a => transfers_of_branchTo (execRet_branches issues a) (s.slotwise_setMe _)
  case loop =>
    intro f s d x issues count a
    split
    next last => exact steps_of_setMe (execLoop_ends issues count last) (Slot.writeG_pc ..)
    next more => exact transfers_of_branchTo (execLoop_branches issues count a more) (s.slotwise_setMe _)
  case jtab =>
    intro f s n x issues a b
    split
    next negative => exact execJtab_faults issues b negative
    next bound => exact transfers_of_branchTo (execJtab_branches issues a b bound) s.slotwise_refl

end Sys2Proof.Machine
end

section

/-! PROOF. Bit fields and lanes as numbers: a field replaced in a number, lanes packed into a register and read back (R159), the bits of a
lane mask (R205, R215), and the lanes that a vector B gives (R187). -/

namespace Sys2Proof.Machine
open Sys2Proof.Num Sys2Proof.Claims

/-! ### A field replaced -/

/-- x with its l bits from p replaced by those of y. -/
def replaceField (x p l y : Nat) : Nat := x - x / 2 ^ p % 2 ^ l * 2 ^ p + y % 2 ^ l * 2 ^ p

/-- The bits above the field, the new field, and the bits below it. -/
theorem replaceField_eq (x p l y : Nat) : replaceField x p l y = 2 ^ p * (2 ^ l * (x / 2 ^ (p + l)) + y % 2 ^ l) + x % 2 ^ p := by
  have outer := Nat.div_add_mod x (2 ^ p)
  have inner := Nat.div_add_mod (x / 2 ^ p) (2 ^ l)
  rw [Nat.div_div_eq_div_mul, ← Nat.pow_add] at inner
  rw [replaceField, Nat.mul_comm _ (2 ^ p), Nat.mul_comm _ (2 ^ p)]
  generalize x / 2 ^ (p + l) = high at *
  generalize x / 2 ^ p % 2 ^ l = mid at *
  rw [← inner, Nat.mul_add] at outer
  rw [Nat.mul_add]
  omega

theorem testBit_replaceField (x p l y i : Nat) :
    (replaceField x p l y).testBit i = if p ≤ i ∧ i < p + l then y.testBit (i - p) else x.testBit i := by
  rw [replaceField_eq, Nat.testBit_two_pow_mul_add _ (Nat.mod_lt _ (Nat.two_pow_pos p))]
  split
  next below => rw [if_neg (by omega), Nat.testBit_mod_two_pow, decide_eq_true below, Bool.true_and]
  next above =>
    rw [Nat.testBit_two_pow_mul_add _ (Nat.mod_lt _ (Nat.two_pow_pos l)), Nat.testBit_mod_two_pow, Nat.testBit_div_two_pow]
    split
    next inside => rw [if_pos (by omega), decide_eq_true inside, Bool.true_and]
    next outside => rw [if_neg (by omega), show i - p - l + (p + l) = i by omega]

/-! ### Elements and lanes (R159) -/

theorem testBit_elem (w x i j : Nat) : (elem w x i).testBit j = (decide (j < w) && x.testBit (w * i + j)) := by
  rw [elem, Nat.testBit_mod_two_pow, Nat.testBit_shiftRight]

theorem setElem_eq_replaceField (w x i e : Nat) : setElem w x i e = replaceField x (w * i) w e := by
  rw [setElem, elem, replaceField, Nat.shiftRight_eq_div_pow]

theorem elem_setElem (w x i e j : Nat) : elem w (setElem w x i e) j = if j = i then e % 2 ^ w else elem w x j := by
  refine Nat.eq_of_testBit_eq fun k => ?_
  rw [testBit_elem, setElem_eq_replaceField, testBit_replaceField, apply_ite (Nat.testBit · k), Nat.testBit_mod_two_pow, testBit_elem]
  by_cases inside : k < w
  · obtain before | rfl | after := Nat.lt_trichotomy j i
    · have := Nat.mul_le_mul_left w (Nat.succ_le_of_lt before)
      rw [Nat.mul_succ] at this
      rw [if_neg (by omega), if_neg (by omega)]
    · rw [if_pos (by omega), if_pos rfl, Nat.add_sub_cancel_left]
    · have := Nat.mul_le_mul_left w (Nat.succ_le_of_lt after)
      rw [Nat.mul_succ] at this
      rw [if_neg (by omega), if_neg (by omega)]
  · simp [inside]

theorem elem_pack (w : Nat) (l : List Nat) (i : Nat) : elem w (pack w l) i = l.getD i 0 % 2 ^ w := by
  induction l generalizing i with
  | nil => simp [pack, elem]
  | cons e es ih =>
    cases i with
    | zero => simp [pack, elem]
    | succ i =>
      have rest : elem w (pack w (e :: es)) (i + 1) = elem w (pack w es) i := by
        rw [elem, elem, pack, Nat.mul_succ, Nat.add_comm, Nat.add_comm (w * i), Nat.shiftRight_add, Nat.shiftRight_eq_div_pow _ w,
          Nat.mul_add_div (Nat.two_pow_pos w), Nat.div_eq_of_lt (Nat.mod_lt _ (Nat.two_pow_pos w)), Nat.add_zero]
      rw [rest, ih, List.getD_cons_succ]

theorem pack_lt (w : Nat) (l : List Nat) : pack w l < 2 ^ (w * l.length) := by
  induction l with
  | nil => simp [pack]
  | cons e es ih =>
    have low : e % 2 ^ w < 2 ^ w := Nat.mod_lt _ (Nat.two_pow_pos w)
    have := Nat.mul_le_mul_left (2 ^ w) (Nat.succ_le_of_lt ih)
    rw [pack, List.length_cons, Nat.mul_succ, Nat.add_comm (w * _), Nat.pow_add]
    rw [Nat.mul_succ] at this
    omega

/-- A lane of a register lies within its 512 bits. -/
theorem lane_inside {w i : Nat} (h : i < 512 / w) : w * i + w ≤ 512 := by
  have := Nat.mul_le_mul_left w (Nat.succ_le_of_lt h)
  rw [Nat.mul_succ] at this
  exact this.trans (Nat.mul_div_le 512 w)

theorem lane_ofNat {w i : Nat} (h : i < 512 / w) (x : Nat) : lane w (BitVec.ofNat 512 x) i = BitVec.ofNat w (elem w x i) := by
  have := lane_inside h
  refine BitVec.eq_of_getLsbD_eq fun j hj => ?_
  rw [lane, BitVec.getLsbD_extractLsb', BitVec.getLsbD_ofNat, BitVec.getLsbD_ofNat, testBit_elem, decide_eq_true hj,
    decide_eq_true (show w * i + j < 512 by omega), Bool.true_and]

theorem ofNat_mod (w x : Nat) : BitVec.ofNat w (x % 2 ^ w) = BitVec.ofNat w x := by
  exact BitVec.eq_of_toNat_eq (by simp)

theorem lane_ofLanes {w i : Nat} (h : i < 512 / w) (l : List Nat) : lane w (ofLanes w l) i = BitVec.ofNat w (l.getD i 0) := by
  rw [ofLanes, lane_ofNat h, elem_pack, ofNat_mod]

theorem lane_ofLanes_map {w i : Nat} (h : i < 512 / w) (g : Nat → Nat) :
    lane w (ofLanes w ((List.range (512 / w)).map g)) i = BitVec.ofNat w (g i) := by
  rw [lane_ofLanes h, List.getD_eq_getElem _ _ (by simpa using h), List.getElem_map, List.getElem_range]

theorem ofNat_elem_lane (w : Nat) (x : Line) (i : Nat) : BitVec.ofNat w (elem w x.toNat i) = lane w x i := by
  rw [elem_eq_lane, BitVec.ofNat_toNat, BitVec.setWidth_eq]

theorem zip3_eq_map_zip (g : Nat → Nat → Nat → Nat) (xs ys zs : List Nat) :
    zip3 g xs ys zs = (List.zip xs (List.zip ys zs)).map (fun x => g x.1 x.2.1 x.2.2) := by
  induction xs generalizing ys zs with
  | nil => simp [zip3]
  | cons x xs ih =>
    cases ys with
    | nil => simp [zip3]
    | cons y ys =>
      cases zs with
      | nil => simp [zip3]
      | cons z zs => simp [zip3, ih]

/-! ### Masks (R205, R215) -/

theorem testBit_maskOf (l : List Bool) (i : Nat) : (maskOf l).testBit i = l.getD i false := by
  induction l generalizing i with
  | nil => simp [maskOf]
  | cons b l ih =>
    cases i with
    | zero => cases b <;> simp [maskOf, boolNat, Nat.testBit_zero]
    | succ i =>
      have rest : (boolNat b + 2 * maskOf l) / 2 = maskOf l := by cases b <;> simp [boolNat]; omega
      rw [maskOf, Nat.testBit_succ, rest, ih, List.getD_cons_succ]

theorem getLsbD_word (x : Nat) {i : Nat} (h : i < 64) : (word x).getLsbD i = x.testBit i := by
  rw [word, BitVec.getLsbD_ofNat, decide_eq_true h, Bool.true_and]

/-! ### The lanes of B (R187) -/

theorem length_lanesOf (w : Nat) (x : Line) : (lanesOf w x).length = 512 / w := by simp [lanesOf, elems]

theorem lt_of_mem_lanesOf {w : Nat} {x : Line} {y : Nat} (h : y ∈ lanesOf w x) : y < 2 ^ w := by
  rw [lanesOf_eq_map] at h
  obtain ⟨i, -, rfl⟩ := List.mem_map.mp h
  exact BitVec.isLt _

theorem laneB_lanes {s s1 : State} {o : Operand} {w : Nat} {b : List Nat} (h : s.laneB o w = .ok (b, s1)) :
    b.length = 512 / w ∧ ∀ x ∈ b, x < 2 ^ w := by
  unfold State.laneB at h
  split at h
  · cases h
    exact ⟨length_lanesOf .., fun x => lt_of_mem_lanesOf⟩
  · split at h
    · cases h
      refine ⟨List.length_replicate, fun x mem => ?_⟩
      rw [List.eq_of_mem_replicate mem]
      exact Nat.mod_lt _ (Nat.two_pow_pos w)
    · nomatch h

theorem laneB_getD_lt {s s1 : State} {o : Operand} {w : Nat} {b : List Nat} (h : s.laneB o w = .ok (b, s1)) (i : Nat) : b.getD i 0 < 2 ^ w := by
  obtain ⟨-, small⟩ := laneB_lanes h
  rw [List.getD_eq_getElem?_getD]
  cases found : b[i]? with
  | none => exact Nat.two_pow_pos w
  | some x => exact small x (List.mem_of_getElem? found)

end Sys2Proof.Machine
end

section

/-! PROOF. The integer operations on numbers are those on bit vectors (R188, R197 to R201): reading and wrapping, and then one lemma for
each operation. -/

namespace Sys2Proof.Machine
open Sys2Proof.Num Sys2Proof.Claims

/-! ### Reading, wrapping and extending (R188) -/

theorem signed_eq_toInt (w x : Nat) : Num.signed w x = (BitVec.ofNat w x).toInt := by
  cases w with
  | zero => simp [Num.signed, Nat.mod_one, BitVec.toInt_of_zero_length]
  | succ w =>
    have split : 2 ^ (w + 1) = 2 * 2 ^ w := Nat.pow_succ'
    have splitInt : (2 : Int) ^ (w + 1) = 2 * 2 ^ w := pow_succ' ..
    rw [Num.signed, BitVec.toInt_eq_toNat_cond, BitVec.toNat_ofNat, Nat.add_sub_cancel]
    push_cast
    split_ifs <;> omega

theorem intOf_eq_value (w : Nat) (u : Bool) (x : Nat) : intOf w u x = value u (BitVec.ofNat w x) := by
  cases u with
  | true => simp [intOf, value]
  | false => simp only [intOf, value, Bool.false_eq_true, if_false, signed_eq_toInt]

theorem ofNat_wrap (w : Nat) (z : Int) : BitVec.ofNat w (wrap w z) = BitVec.ofInt w z := by
  refine BitVec.eq_of_toNat_eq ?_
  have positive : (0 : Int) < 2 ^ w := by positivity
  have small := Int.emod_lt_of_pos z positive
  have nonneg := Int.emod_nonneg z positive.ne'
  rw [BitVec.toNat_ofNat, BitVec.toNat_ofInt, wrap, Nat.mod_eq_of_lt ((Int.toNat_lt nonneg).mpr (by exact_mod_cast small))]
  push_cast
  rfl

theorem ofInt_value {w : Nat} (u : Bool) (x : BitVec w) : BitVec.ofInt w (value u x) = x := by
  cases u <;> simp [value]

theorem value_eq_zero_iff {w : Nat} (u : Bool) (x : BitVec w) : value u x = 0 ↔ x = 0 := by
  cases u with
  | true => simp [value, ← BitVec.toNat_inj]
  | false => simp [value, ← BitVec.toInt_inj]

theorem ofInt_sub {w : Nat} (y z : Int) : BitVec.ofInt w (y - z) = BitVec.ofInt w y - BitVec.ofInt w z := by
  rw [Int.sub_eq_add_neg, BitVec.ofInt_add, BitVec.ofInt_neg, ← BitVec.sub_eq_add_neg]

theorem ext64_eq_widen (w : Nat) (u : Bool) (x : Nat) : ext64 w u x = widen u (BitVec.ofNat w x) := by
  cases u with
  | true => exact BitVec.eq_of_toNat_eq (by simp [ext64, widen, word])
  | false => simp [ext64, widen, signed_eq_toInt, BitVec.signExtend]

theorem ofNat_eq_of_toNat {w x : Nat} {y : BitVec w} (h : x = y.toNat) : BitVec.ofNat w x = y := by
  rw [h, BitVec.ofNat_toNat, BitVec.setWidth_eq]

theorem toNat_word {b : Nat} (h : b < 2 ^ 64) : (word b).toNat = b := by
  rw [word, BitVec.toNat_ofNat, Nat.mod_eq_of_lt h]

/-! ### Arithmetic (R197, R198) -/

section
variable (w : Nat) (u : Bool) (d a b : Nat)

theorem intOp_add : BitVec.ofNat w (IntOp.add w u a b) = BitVec.ofNat w a + BitVec.ofNat w b := by
  simp only [IntOp.add, IntOp.low, ofNat_wrap, intOf_eq_value, BitVec.ofInt_add, ofInt_value]

theorem intOp_sub : BitVec.ofNat w (IntOp.sub w u a b) = BitVec.ofNat w a - BitVec.ofNat w b := by
  simp only [IntOp.sub, IntOp.low, ofNat_wrap, intOf_eq_value, ofInt_sub, ofInt_value]

theorem intOp_mul : BitVec.ofNat w (IntOp.mul w u a b) = BitVec.ofNat w a * BitVec.ofNat w b := by
  simp only [IntOp.mul, IntOp.low, ofNat_wrap, intOf_eq_value, BitVec.ofInt_mul, ofInt_value]

theorem intOp_mulh :
    BitVec.ofNat w (IntOp.mulh w u a b) = BitVec.ofInt w (value u (BitVec.ofNat w a) * value u (BitVec.ofNat w b) / 2 ^ w) := by
  simp only [IntOp.mulh, IntOp.low, ofNat_wrap, intOf_eq_value]

theorem intOp_mad : BitVec.ofNat w (IntOp.mad w u d a b) = BitVec.ofNat w d + BitVec.ofNat w a * BitVec.ofNat w b := by
  simp only [IntOp.mad, IntOp.low, ofNat_wrap, intOf_eq_value, BitVec.ofInt_add, BitVec.ofInt_mul, ofInt_value]

theorem ofInt_tdiv {w : Nat} (u : Bool) (x y : BitVec w) :
    BitVec.ofInt w ((value u x).tdiv (value u y)) = if u then x.udiv y else x.sdiv y := by
  cases u with
  | true => simp only [value, if_true, BitVec.udiv_eq, BitVec.udiv_def, ← Int.ofNat_tdiv, BitVec.ofInt_natCast]
  | false => exact BitVec.eq_of_toInt_eq (by simp [value, BitVec.toInt_sdiv])

theorem ofInt_tmod {w : Nat} (u : Bool) (x y : BitVec w) :
    BitVec.ofInt w ((value u x).tmod (value u y)) = if u then x.umod y else x.srem y := by
  cases u with
  | true => simp only [value, if_true, BitVec.umod_eq, BitVec.umod_def, ← Int.ofNat_tmod, BitVec.ofInt_natCast]
  | false => simp only [value, Bool.false_eq_true, if_false, ← BitVec.toInt_srem, BitVec.ofInt_toInt]

theorem intOp_div : BitVec.ofNat w (IntOp.div w u a b) =
    if BitVec.ofNat w b = 0 then BitVec.allOnes w
    else if u then (BitVec.ofNat w a).udiv (BitVec.ofNat w b) else (BitVec.ofNat w a).sdiv (BitVec.ofNat w b) := by
  simp only [IntOp.div, intOf_eq_value, value_eq_zero_iff]
  split
  next => exact ofNat_eq_of_toNat (by simp)
  next => rw [IntOp.low, ofNat_wrap, ofInt_tdiv]

theorem intOp_rem : BitVec.ofNat w (IntOp.rem w u a b) =
    if BitVec.ofNat w b = 0 then BitVec.ofNat w a
    else if u then (BitVec.ofNat w a).umod (BitVec.ofNat w b) else (BitVec.ofNat w a).srem (BitVec.ofNat w b) := by
  simp only [IntOp.rem, intOf_eq_value, value_eq_zero_iff]
  split
  next => exact ofNat_mod ..
  next => rw [IntOp.low, ofNat_wrap, ofInt_tmod]

theorem intOp_abs : BitVec.ofNat w (IntOp.abs w u a b) = if (BitVec.ofNat w a).msb then -BitVec.ofNat w a else BitVec.ofNat w a := by
  rw [IntOp.abs, IntOp.low, ofNat_wrap, signed_eq_toInt]
  generalize BitVec.ofNat w a = x
  split
  next negative => rw [Int.ofNat_natAbs_of_nonpos (BitVec.toInt_neg_of_msb_true negative).le, BitVec.ofInt_neg, BitVec.ofInt_toInt]
  next positive =>
    rw [Int.natAbs_of_nonneg (BitVec.toInt_nonneg_of_msb_false (Bool.eq_false_of_not_eq_true positive)), BitVec.ofInt_toInt]

theorem intOp_min : BitVec.ofNat w (IntOp.min w u a b) =
    if value u (BitVec.ofNat w a) ≤ value u (BitVec.ofNat w b) then BitVec.ofNat w a else BitVec.ofNat w b := by
  simp only [IntOp.min, intOf_eq_value, apply_ite (BitVec.ofNat w), ofNat_mod]

theorem intOp_max : BitVec.ofNat w (IntOp.max w u a b) =
    if value u (BitVec.ofNat w a) ≤ value u (BitVec.ofNat w b) then BitVec.ofNat w b else BitVec.ofNat w a := by
  simp only [IntOp.max, intOf_eq_value, apply_ite (BitVec.ofNat w), ofNat_mod]

theorem ofNat_clampTo (z : Int) : BitVec.ofNat w (IntOp.clampTo w u z) = saturate u w z := ofNat_wrap ..

theorem intOp_adds :
    BitVec.ofNat w (IntOp.adds w u a b) = saturate u w (value u (BitVec.ofNat w a) + value u (BitVec.ofNat w b)) := by
  rw [IntOp.adds, ofNat_clampTo, intOf_eq_value, intOf_eq_value]

theorem intOp_subs :
    BitVec.ofNat w (IntOp.subs w u a b) = saturate u w (value u (BitVec.ofNat w a) - value u (BitVec.ofNat w b)) := by
  rw [IntOp.subs, ofNat_clampTo, intOf_eq_value, intOf_eq_value]

theorem intOp_avg :
    BitVec.ofNat w (IntOp.avg w u a b) = BitVec.ofInt w ((value u (BitVec.ofNat w a) + value u (BitVec.ofNat w b) + 1) / 2) := by
  simp only [IntOp.avg, IntOp.low, ofNat_wrap, intOf_eq_value]

theorem intOp_sad : BitVec.ofNat w (IntOp.sad w u d a b) =
    BitVec.ofNat w d + BitVec.ofNat w (value u (BitVec.ofNat w a) - value u (BitVec.ofNat w b)).natAbs := by
  simp only [IntOp.sad, IntOp.low, ofNat_wrap, intOf_eq_value, BitVec.ofInt_add, ofInt_value, BitVec.ofInt_natCast]

theorem intOp_clamp : BitVec.ofNat w (IntOp.clamp w u d a b) =
    (let low := if value u (BitVec.ofNat w d) ≤ value u (BitVec.ofNat w a) then BitVec.ofNat w a else BitVec.ofNat w d
     if value u low ≤ value u (BitVec.ofNat w b) then low else BitVec.ofNat w b) := by
  simp only [IntOp.clamp, intOp_min, intOp_max]

/-! ### Logic and shifts (R197, R199) -/

theorem intOp_and : BitVec.ofNat w (IntOp.and w u a b) = BitVec.ofNat w a &&& BitVec.ofNat w b := by
  rw [IntOp.and, ofNat_mod]
  exact BitVec.eq_of_getLsbD_eq fun i hi => by simp [hi]

theorem intOp_or : BitVec.ofNat w (IntOp.or w u a b) = BitVec.ofNat w a ||| BitVec.ofNat w b := by
  rw [IntOp.or, ofNat_mod]
  exact BitVec.eq_of_getLsbD_eq fun i hi => by simp [hi]

theorem intOp_xor : BitVec.ofNat w (IntOp.xor w u a b) = BitVec.ofNat w a ^^^ BitVec.ofNat w b := by
  rw [IntOp.xor, ofNat_mod]
  exact BitVec.eq_of_getLsbD_eq fun i hi => by simp [hi]

theorem intOp_andn : BitVec.ofNat w (IntOp.andn w u a b) = BitVec.ofNat w a &&& ~~~BitVec.ofNat w b :=
  BitVec.eq_of_getLsbD_eq fun i hi => by
    simp only [IntOp.andn, BitVec.getLsbD_and, BitVec.getLsbD_not, BitVec.getLsbD_ofNat, Nat.testBit_and, Nat.testBit_xor,
      Nat.testBit_mod_two_pow, Nat.testBit_two_pow_sub_one, hi, decide_true, Bool.true_and, Bool.true_xor]

theorem intOp_shl {b : Nat} (h : b < 2 ^ 64) : BitVec.ofNat w (IntOp.shl w u a b) = if (word b).toNat < w then BitVec.ofNat w a <<< (word b).toNat else 0 := by
  rw [toNat_word h]
  unfold IntOp.shl
  split
  next out => rw [if_neg (by omega)]; rfl
  next inside =>
    rw [if_pos (by omega), ofNat_mod]
    exact BitVec.eq_of_toNat_eq (by simp [Nat.shiftLeft_eq])

theorem intOp_shr {b : Nat} (h : b < 2 ^ 64) : BitVec.ofNat w (IntOp.shr w u a b) = if (word b).toNat < w then BitVec.ofNat w a >>> (word b).toNat else 0 := by
  rw [toNat_word h]
  unfold IntOp.shr
  split
  next out => rw [if_neg (by omega)]; rfl
  next inside =>
    rw [if_pos (by omega)]
    exact ofNat_eq_of_toNat (by simp [Nat.shiftRight_eq_div_pow])

theorem intOp_sar {b : Nat} (h : b < 2 ^ 64) : BitVec.ofNat w (IntOp.sar w u a b) = (BitVec.ofNat w a).sshiftRight (min (word b).toNat w) := by
  rw [toNat_word h, IntOp.sar, IntOp.low, ofNat_wrap, signed_eq_toInt, BitVec.sshiftRight, Int.shiftRight_eq_div_pow]
  rfl

theorem intOp_rol {b : Nat} (h : b < 2 ^ 64) : BitVec.ofNat w (IntOp.rol w u a b) = (BitVec.ofNat w a).rotateLeft (word b).toNat := by
  rw [toNat_word h]
  refine BitVec.eq_of_getLsbD_eq fun i hi => ?_
  have turn : b % w < w := Nat.mod_lt _ (by omega)
  have low : a % 2 ^ w / 2 ^ (w - b % w) < 2 ^ (b % w) := by
    rw [Nat.div_lt_iff_lt_mul (Nat.two_pow_pos _), ← Nat.pow_add, show b % w + (w - b % w) = w by omega]
    exact Nat.mod_lt _ (Nat.two_pow_pos w)
  simp only [IntOp.rol, BitVec.getLsbD_ofNat, BitVec.getLsbD_rotateLeft, Nat.mul_comm _ (2 ^ (b % w)), Nat.testBit_mod_two_pow,
    Nat.testBit_two_pow_mul_add _ low, Nat.testBit_div_two_pow]
  by_cases inside : i < b % w
  · have : w - b % w + i < w := by omega
    simp [inside, hi, this, Nat.add_comm i]
  · have : i - b % w < w := by omega
    simp [inside, hi, this]

/-! ### Counts and reversal (R199) -/

theorem intOp_clz : BitVec.ofNat w (IntOp.clz w u a b) =
    BitVec.ofNat w (if BitVec.ofNat w a = 0 then w else w - 1 - Nat.log2 (BitVec.ofNat w a).toNat) := by
  have zero : BitVec.ofNat w a = 0 ↔ a % 2 ^ w = 0 := by simp [← BitVec.toNat_inj]
  simp only [IntOp.clz, zero, BitVec.toNat_ofNat]

theorem intOp_popc : BitVec.ofNat w (IntOp.popc w u a b) = BitVec.ofNat w ((List.range w).countP (BitVec.ofNat w a).getLsbD) := by
  rw [IntOp.popc, ← List.countP_eq_length_filter]
  refine congrArg _ (List.countP_congr fun i mem => ?_)
  rw [BitVec.getLsbD_ofNat, decide_eq_true (List.mem_range.mp mem), Bool.true_and]

theorem intOp_brev : BitVec.ofNat w (IntOp.brev w u a b) = (BitVec.ofNat w a).reverse := by
  refine BitVec.eq_of_getLsbD_eq fun i hi => ?_
  have : w - 1 - i < w := by omega
  rw [IntOp.brev, BitVec.getLsbD_reverse, BitVec.getMsbD_eq_getLsbD, BitVec.getLsbD_ofNat, BitVec.getLsbD_ofNat, testBit_maskOf]
  simp [hi, this]

/-! ### Fields (R200) -/

theorem fieldAt_word {b : Nat} (h : b < 2 ^ 64) : fieldAt (word b) = IntOp.fieldPos b := by
  rw [fieldAt, toNat_word h, IntOp.fieldPos]

theorem fieldLen_word {b : Nat} (h : b < 2 ^ 64) : Claims.fieldLen w (word b) = IntOp.fieldLen w b := by
  rw [Claims.fieldLen, fieldAt_word h, toNat_word h]
  rfl

theorem intOp_ext {b : Nat} (h : b < 2 ^ 64) : BitVec.ofNat w (IntOp.ext w u a b) =
    if w ≤ fieldAt (word b) then 0 else
      let x := (BitVec.ofNat w a >>> fieldAt (word b)).setWidth (Claims.fieldLen w (word b))
      if u then x.setWidth w else x.signExtend w := by
  rw [fieldAt_word h, fieldLen_word w h, IntOp.ext]
  split
  next => rfl
  next =>
    have field : BitVec.ofNat (IntOp.fieldLen w b) (a % 2 ^ w / 2 ^ IntOp.fieldPos b) =
        (BitVec.ofNat w a >>> IntOp.fieldPos b).setWidth (IntOp.fieldLen w b) :=
      BitVec.eq_of_toNat_eq (by simp [Nat.shiftRight_eq_div_pow])
    rw [IntOp.low, ofNat_wrap, intOf_eq_value, field]
    cases u with
    | true => simp only [value, if_true, BitVec.ofInt_natCast, BitVec.ofNat_toNat]
    | false => rfl

theorem getLsbD_fieldMask (c : Word) {i : Nat} (hi : i < w) :
    (fieldMask w c).getLsbD i = decide (fieldAt c ≤ i ∧ i < fieldAt c + Claims.fieldLen w c) := by
  simp only [fieldMask, BitVec.getLsbD_shiftLeft, BitVec.getLsbD_setWidth, BitVec.getLsbD_allOnes, hi, decide_true, Bool.true_and]
  by_cases below : i < fieldAt c
  · simp [below, show ¬ fieldAt c ≤ i by omega]
  · have : i - fieldAt c < w := by omega
    have : (i - fieldAt c < Claims.fieldLen w c) = (i < fieldAt c + Claims.fieldLen w c) := by rw [eq_iff_iff]; omega
    simp [*, show fieldAt c ≤ i by omega]

/-- A field that lies below bit w is that of the low w bits. -/
theorem field_mod (x : Nat) {p l : Nat} (h : p + l ≤ w) : x % 2 ^ w / 2 ^ p % 2 ^ l = x / 2 ^ p % 2 ^ l := by
  refine Nat.eq_of_testBit_eq fun i => ?_
  simp only [Nat.testBit_mod_two_pow, Nat.testBit_div_two_pow]
  by_cases inside : i < l
  · simp [inside, show i + p < w by omega]
  · simp [inside]

theorem intOp_ins {b : Nat} (h : b < 2 ^ 64) : BitVec.ofNat w (IntOp.ins w u d a b) =
    if w ≤ fieldAt (word b) then BitVec.ofNat w d
    else (BitVec.ofNat w d &&& ~~~fieldMask w (word b)) ||| ((BitVec.ofNat w a <<< fieldAt (word b)) &&& fieldMask w (word b)) := by
  rw [IntOp.ins, ← fieldAt_word h, ← fieldLen_word w h]
  split
  next => exact ofNat_mod ..
  next inside =>
    have len : fieldAt (word b) + Claims.fieldLen w (word b) ≤ w := by
      rw [Claims.fieldLen]
      omega
    rw [← field_mod w d len]
    refine BitVec.eq_of_getLsbD_eq fun i hi => ?_
    change (BitVec.ofNat w (replaceField (d % 2 ^ w) _ _ a)).getLsbD i = _
    simp only [BitVec.getLsbD_ofNat, BitVec.getLsbD_or, BitVec.getLsbD_and, BitVec.getLsbD_not, BitVec.getLsbD_shiftLeft,
      getLsbD_fieldMask w _ hi, testBit_replaceField, Nat.testBit_mod_two_pow, hi, decide_true, Bool.true_and]
    split
    next field => simp [field.1, field.2, show i - fieldAt (word b) < w by omega]
    next other => simp [other]

end

/-! ### Hashes (R201) -/

theorem hash64_eq_hash (x seed : Word) : hash64 x seed = Claims.hash x seed := rfl

/-- The kernel compares `noD g` with g without evaluating g only where g is a variable. -/
theorem noD_eq (g : Nat → Bool → Nat → Nat → Nat) (w : Nat) (u : Bool) (d a b : Nat) : noD g w u d a b = g w u a b := rfl

theorem intOp_hash {w : Nat} (u : Bool) (d a b : Nat) (h : w = 64) :
    BitVec.ofNat w (noD IntOp.hash w u d a b) = (Claims.hash ((BitVec.ofNat w a).setWidth 64) (word b)).setWidth w := by
  subst h
  rw [noD_eq]
  simp only [IntOp.hash, hash64_eq_hash, word, BitVec.setWidth_eq, BitVec.ofNat_toNat]

theorem intOp_mix {w : Nat} (u : Bool) (d a b : Nat) (h : w = 64) : BitVec.ofNat w (IntOp.mix w u d a b) =
    (Claims.hash ((BitVec.ofNat w d).setWidth 64 ^^^ (BitVec.ofNat w a).setWidth 64) (word b)).setWidth w := by
  subst h
  simp only [IntOp.mix, hash64_eq_hash, word, BitVec.setWidth_eq, BitVec.ofNat_toNat]

end Sys2Proof.Machine
end

section

/-! PROOF. The integer entries in both shapes (O1, O2; R187, R188, R197 to R201). -/

namespace Sys2Proof.Machine
open Sys2Proof.Num Sys2Proof.Claims

/-! ### Widths (R188) -/

theorem width_cases (f : Fields) : f.width = 64 ∨ f.width = 32 ∨ f.width = 16 ∨ f.width = 8 := by
  have code : Modf.width f.modf.toNat < 4 := by
    rw [Modf.width, bitsOf_eq]
    omega
  rw [Fields.width]
  generalize Modf.width f.modf.toNat = c at code
  interval_cases c <;> simp [widthBits]

theorem width_le (f : Fields) : f.width ≤ 64 := by
  have := width_cases f
  omega

/-- A lane of B fits a word. -/
theorem laneB_getD_lt_word {s s1 : State} {f : Fields} {b : List Nat} (h : s.laneB f.b f.width = .ok (b, s1)) (i : Nat) : b.getD i 0 < 2 ^ 64 :=
  (laneB_getD_lt h i).trans_le (Nat.pow_le_pow_right (by omega) (width_le f))

/-! ### The two shapes (R187) -/

/-- An entry issues as its opcode by a function of numbers, which gives the entry's result on every lane. -/
structure Computes (e : IntEntry) (g : Nat → Bool → Nat → Nat → Nat → Nat) : Prop where
  run : ∀ f s, exec (e.make f) s = s.issue e.op f (intBody g f)
  result : ∀ {f : Fields} {s : State}, s.issues e.op f → ∀ (u : Bool) (d a b : Nat), b < 2 ^ 64 →
    BitVec.ofNat f.width (g f.width u d a b) =
      e.result f.width u (BitVec.ofNat f.width d) (BitVec.ofNat f.width a) (BitVec.ofNat f.width b) (word b)

section
variable {g : Nat → Bool → Nat → Nat → Nat → Nat} {f : Fields} {s s1 s2 : State}

theorem intBody_scalar {a b : Word} (scalar : ∀ n, f.d ≠ .v n) (srcA : s.src f.a = .ok (a, s1)) (srcB : s1.src f.b = .ok (b, s2)) :
    intBody g f s = seqOf (s2.dst f.d (ext64 f.width f.unsigned (g f.width f.unsigned (s.oldG f.d).toNat a.toNat b.toNat))) := by
  unfold intBody
  cases named : f.d with
  | v n => exact absurd named (scalar n)
  | _ => simp only [scalarInt, srcA, srcB, named]; rfl

theorem intBody_vector {d : BitVec 5} {b : List Nat} (dst : f.d = .v d) (srcB : s.laneB f.b f.width = .ok (b, s1)) :
    intBody g f s = .ok (.seq (s1.setMe (s1.me.writeV d (ofLanes f.width ((List.range (512 / f.width)).map fun i =>
      g f.width f.unsigned (lane f.width (s.me.readV d) i).toNat (lane f.width (s.srcV f.a) i).toNat (b.getD i 0)))))) := by
  rw [← map_zip_lanesOf (g f.width f.unsigned) _ _ _ (laneB_lanes srcB).1, ← zip3_eq_map_zip]
  simp only [intBody, vectorInt, dst, srcB]
  rfl

end

theorem scalarStep_of_computes {e : IntEntry} {g : Nat → Bool → Nat → Nat → Nat → Nat} (h : Computes e g) : scalarStep e := by
  intro f s s1 s2 t a b issues scalar srcA srcB dst
  have result := h.result issues f.unsigned (s.oldG f.d).toNat a.toNat b.toNat b.isLt
  simp only [BitVec.ofNat_toNat, word, BitVec.setWidth_eq] at result
  rw [h.run, State.issue_issues issues, intBody_scalar scalar srcA srcB, ext64_eq_widen, result, dst, seqOf, State.settle_seq]

theorem vectorStep_of_computes {e : IntEntry} {g : Nat → Bool → Nat → Nat → Nat → Nat} (h : Computes e g) : vectorStep e := by
  intro f s s1 n b issues dst srcB
  refine ⟨_, by rw [h.run, State.issue_issues issues, intBody_vector dst srcB, State.settle_seq], fun i hi => ?_⟩
  rw [lane_ofLanes_map hi, h.result issues _ _ _ _ (laneB_getD_lt_word srcB i)]
  simp only [BitVec.ofNat_toNat, BitVec.setWidth_eq]

/-! ### The entries (R197 to R201) -/

theorem modOk_of_mem_binary {md : Nat → Bool} {x : Form} (h : x ∈ Forms.binary md) : x.modOk = md := by
  simp only [Forms.binary, List.mem_cons, List.not_mem_nil, or_false] at h
  obtain rfl | rfl := h <;> rfl

theorem modOk_of_mem_binaryRmw {md : Nat → Bool} {x : Form} (h : x ∈ Forms.binaryRmw md) : x.modOk = md := by
  simp only [Forms.binaryRmw, List.mem_cons, List.not_mem_nil, or_false] at h
  obtain rfl | rfl := h <;> rfl

/-- `HASH` and `MIX` take words only (R201). -/
theorem hash_width {s : State} {f : Fields} {op : Nat} (h : s.issues op f) (hash : op = 0x2D ∨ op = 0x2E) : f.width = 64 := by
  have code : Modf.width f.modf.toNat = 0 := by
    obtain ⟨x, form, -, -, -, modf⟩ := h.form
    have word : x.modOk = fun y => Modf.int true Forms.noOp y && Modf.width y == 0 := by
      obtain rfl | rfl := hash
      · have forms : formsOf 0x2D = Forms.binary (fun y => Modf.int true Forms.noOp y && Modf.width y == 0) := rfl
        exact modOk_of_mem_binary (forms ▸ form)
      · have forms : formsOf 0x2E = Forms.binaryRmw (fun y => Modf.int true Forms.noOp y && Modf.width y == 0) := rfl
        exact modOk_of_mem_binaryRmw (forms ▸ form)
    rw [word, Bool.and_eq_true_iff, beq_iff_eq] at modf
    exact modf.2
  rw [Fields.width, code]
  rfl

theorem arithmetic_computes {e : IntEntry} (mem : e ∈ arithmetic) : ∃ g, Computes e g := by
  simp only [arithmetic, List.mem_cons, List.not_mem_nil, or_false] at mem
  obtain rfl | rfl | rfl | rfl | rfl | rfl | rfl | rfl | rfl | rfl | rfl | rfl | rfl | rfl | rfl := mem
  · exact ⟨_, fun _ _ => rfl, fun _ u _ a b _ => intOp_add _ u a b⟩
  · exact ⟨_, fun _ _ => rfl, fun _ u _ a b _ => intOp_sub _ u a b⟩
  · exact ⟨_, fun _ _ => rfl, fun _ u _ a b _ => intOp_mul _ u a b⟩
  · exact ⟨_, fun _ _ => rfl, fun _ u _ a b _ => intOp_mulh _ u a b⟩
  · exact ⟨_, fun _ _ => rfl, fun _ u d a b _ => intOp_mad _ u d a b⟩
  · exact ⟨_, fun _ _ => rfl, fun _ u _ a b _ => intOp_div _ u a b⟩
  · exact ⟨_, fun _ _ => rfl, fun _ u _ a b _ => intOp_rem _ u a b⟩
  · exact ⟨_, fun _ _ => rfl, fun _ u _ a b _ => intOp_abs _ u a b⟩
  · exact ⟨_, fun _ _ => rfl, fun _ u _ a b _ => intOp_min _ u a b⟩
  · exact ⟨_, fun _ _ => rfl, fun _ u _ a b _ => intOp_max _ u a b⟩
  · exact ⟨_, fun _ _ => rfl, fun _ u _ a b _ => intOp_adds _ u a b⟩
  · exact ⟨_, fun _ _ => rfl, fun _ u _ a b _ => intOp_subs _ u a b⟩
  · exact ⟨_, fun _ _ => rfl, fun _ u _ a b _ => intOp_avg _ u a b⟩
  · exact ⟨_, fun _ _ => rfl, fun _ u d a b _ => intOp_sad _ u d a b⟩
  · exact ⟨_, fun _ _ => rfl, fun _ u d a b _ => intOp_clamp _ u d a b⟩

theorem logic_computes {e : IntEntry} (mem : e ∈ logic) : ∃ g, Computes e g := by
  simp only [logic, List.mem_cons, List.not_mem_nil, or_false] at mem
  obtain rfl | rfl | rfl | rfl | rfl | rfl | rfl | rfl | rfl | rfl | rfl | rfl | rfl | rfl | rfl := mem
  · exact ⟨_, fun _ _ => rfl, fun _ u _ a b _ => intOp_and _ u a b⟩
  · exact ⟨_, fun _ _ => rfl, fun _ u _ a b _ => intOp_or _ u a b⟩
  · exact ⟨_, fun _ _ => rfl, fun _ u _ a b _ => intOp_xor _ u a b⟩
  · exact ⟨_, fun _ _ => rfl, fun _ u _ a b _ => intOp_andn _ u a b⟩
  · exact ⟨_, fun _ _ => rfl, fun _ u _ a _ h => intOp_shl _ u a h⟩
  · exact ⟨_, fun _ _ => rfl, fun _ u _ a _ h => intOp_shr _ u a h⟩
  · exact ⟨_, fun _ _ => rfl, fun _ u _ a _ h => intOp_sar _ u a h⟩
  · exact ⟨_, fun _ _ => rfl, fun _ u _ a _ h => intOp_rol _ u a h⟩
  · exact ⟨_, fun _ _ => rfl, fun _ u _ a b _ => intOp_clz _ u a b⟩
  · exact ⟨_, fun _ _ => rfl, fun _ u _ a b _ => intOp_popc _ u a b⟩
  · exact ⟨_, fun _ _ => rfl, fun _ u _ a b _ => intOp_brev _ u a b⟩
  · exact ⟨_, fun _ _ => rfl, fun _ u _ a _ h => intOp_ext _ u a h⟩
  · exact ⟨_, fun _ _ => rfl, fun _ u d a _ h => intOp_ins _ u d a h⟩
  · exact ⟨_, fun _ _ => rfl, fun issues u d a b _ => intOp_hash u d a b (hash_width issues (.inl rfl))⟩
  · exact ⟨_, fun _ _ => rfl, fun issues u d a b _ => intOp_mix u d a b (hash_width issues (.inr rfl))⟩

theorem integer_computes {e : IntEntry} (mem : e ∈ arithmetic ++ logic) : ∃ g, Computes e g :=
  (List.mem_append.mp mem).elim arithmetic_computes logic_computes

/-- Settles O1: each entry computes its result on numbers, which the scalar shape extends. -/
theorem scalarIntegerResults : Obligations.ScalarIntegerResults := by
  intro e mem
  obtain ⟨g, computes⟩ := integer_computes mem
  exact scalarStep_of_computes computes

/-- Settles O2: each entry computes its result on numbers, which the vector shape packs lane by lane. -/
theorem vectorIntegerResults : Obligations.VectorIntegerResults := by
  intro e mem
  obtain ⟨g, computes⟩ := integer_computes mem
  exact vectorStep_of_computes computes

end Sys2Proof.Machine
end

section

/-! PROOF. Instructions without effect beside the pc, and `FENCE` (O11; R190, R192, R247); moves, selections, compares, predicate logic and
lane moves (O15 to O18, O20; R202 to R206, R210). -/

namespace Sys2Proof.Machine
open Sys2Proof.Num Sys2Proof.Claims

/-! ### Completing, and failing check 4 -/

/-- An instruction that completes and leaves its state as it is. -/
theorem steps_of_retire {i : Instr} {s : State} (run : exec i s = .next s.retire) : steps i s s.me :=
  ⟨_, run, s.onlySlot_retireTo _, s.me_retire_eq⟩

/-- An instruction whose body hands on a new slot with the pc as it was. -/
theorem steps_of_body {i : Instr} {op : Nat} {f : Fields} {s : State} {body : State → Res After} {x : Slot} (issues : s.issues op f)
    (run : exec i s = s.issue op f body) (gives : body s = .ok (.seq (s.setMe x))) (pc : x.pc = s.me.pc) : steps i s x :=
  steps_of_setMe (by rw [run, State.issue_issues issues, gives, State.settle_seq]) pc

/-- Fields that fit none of an entry's forms are an exact fault of cause 0x02 (R183). -/
theorem State.issue_illFormed {s : State} {op : Nat} {f : Fields} (body : State → Res After) (known : formsOf op ≠ [])
    (plain : privilegedOp op f = false) (base : featureOf op f = none)
    (bad : ∀ x ∈ formsOf op, admitsAny x.d f.d = true → admitsAny x.a f.a = true → admitsAny x.b f.b = true → x.modOk f.modf.toNat = false) :
    ∃ v, s.issue op f body = .next (s.takeExact 0x02 v 0) := by
  cases check : check4 (formsOf op) f with
  | none =>
    obtain ⟨x, mem, d, a, b, ok⟩ := form_of_check4 check
    rw [bad x mem d a b] at ok
    nomatch ok
  | some n =>
    have failed : s.preCheck op f = some (2, word (if n = 5 ∧ s.runOutside op f.b = true then 4 else n), 0) := by
      unfold State.preCheck
      dsimp only
      rw [if_neg (by simp [known, plain]), base]
      simp only [State.preCheck.rest, check]
    exact ⟨_, s.issue_fault op f body failed⟩

theorem eq_of_admits_P {o : Operand} (h : admitsAny Forms.P o = true) : ∃ n, o = .p n := by
  cases o with
  | p n => exact ⟨n, rfl⟩
  | _ => nomatch h
theorem eq_of_admits_W {o : Operand} (h : admitsAny Forms.W o = true) : ∃ n, o = .w n := by
  cases o with
  | w n => exact ⟨n, rfl⟩
  | _ => nomatch h

/-! ### `NOP`, `YIELD` and `FENCE` -/

theorem scope_eq (m : BitVec 16) : (Modf.scope m.toNat == 4) = (m.extractLsb' 3 3 == 4) := by
  rw [Bool.eq_iff_iff, beq_iff_eq, beq_iff_eq, ← BitVec.toNat_inj, BitVec.extractLsb'_toNat]
  rfl

/-- Settles O11: the bodies of `NOP` and `YIELD` hand on the state as it is, and `FENCE` orders as its modifier says. -/
theorem nopYieldFence : Obligations.NopYieldFence := by
  refine ⟨fun f s issues => steps_of_retire ?_, fun f s issues => steps_of_retire ?_, fun f s issues => ?_⟩
  · change execNop f s = _
    rw [execNop, State.issue_issues issues, State.settle_seq]
  · change execYield f s = _
    rw [execYield, State.issue_issues issues, State.settle_seq]
  · change execFence f s = _
    rw [execFence, State.issue_issues issues, State.settle_seq, scope_eq]
    rfl

/-! ### `MOV` (R202) -/

section
variable {s s1 s2 t : State} {f : Fields} {a b : Word}

theorem execMov_scalar (issues : s.issues 0x30 f) (d : (∃ n, f.d = .g n) ∨ ∃ n, f.d = .port n) (src : s.src f.a = .ok (a, s1))
    (dst : s1.dst f.d a = .ok t) : exec (.mov f) s = .next t.retire := by
  change execMov f s = _
  rw [execMov, State.issue_issues issues]
  obtain ⟨n, named⟩ | ⟨n, named⟩ := d <;>
  · rw [named] at dst
    simp only [named, src, dst, seqOf, State.settle_seq]

/-- Settles O15: for each register file the body writes what it reads there; a scalar destination takes the source's word. -/
theorem movCopies : Obligations.MovCopies := by
  refine ⟨fun f s s1 t a issues d src dst => execMov_scalar issues d src dst, ?v, ?p, ?w, ?m⟩
  case v =>
    exact fun f s d a issues named src => steps_of_body issues (show execMov f s = _ from rfl)
      (by simp only [named, src, State.dstV_v, State.srcV]) (Slot.writeV_pc ..)
  case p =>
    exact fun f s d a issues named src => steps_of_body issues (show execMov f s = _ from rfl)
      (by simp only [named, src, State.dstP_p, State.srcP]) (Slot.writeP_pc ..)
  case w =>
    exact fun f s d a issues named src => steps_of_body issues (show execMov f s = _ from rfl)
      (by simp only [named, src, State.dstW_w, State.srcW]) (Slot.writeW_pc ..)
  case m =>
    exact fun f s d a issues named src => steps_of_body issues (show execMov f s = _ from rfl)
      (by simp only [named, src, State.dstM_m, State.srcM]) (Slot.writeM_pc ..)

/-! ### `MOVH` and `SEL` (R203, R204) -/

theorem Fields.bits_low (f : Fields) (n : Nat) : f.bits n 0 = f.modf.toNat % 2 ^ (n + 1) := by
  rw [Fields.bits, bitsOf_eq, pow_zero, Nat.div_one, Nat.sub_zero]

theorem getLsbD_depositChunk (d : Word) {c : Nat} (hc : c < 4) (x : BitVec 17) {i : Nat} (hi : i < 64) :
    (depositChunk d c x).getLsbD i = if 17 * c ≤ i ∧ i < 17 * c + 17 then x.getLsbD (i - 17 * c) else d.getLsbD i := by
  have width : 17 * c + (if c = 3 then 13 else 17) - 1 + 1 - 17 * c = if c = 3 then 13 else 17 := by split <;> omega
  have field : depositChunk d c x = word (replaceField d.toNat (17 * c) (if c = 3 then 13 else 17) x.toNat) := by
    rw [depositChunk, bitsOf_eq, width, replaceField]
  have span : (17 * c ≤ i ∧ i < 17 * c + if c = 3 then 13 else 17) = (17 * c ≤ i ∧ i < 17 * c + 17) := by
    rw [eq_iff_iff]
    split <;> omega
  rw [field, getLsbD_word _ hi, testBit_replaceField]
  simp only [span]
  rfl

theorem execMovh_deposits {n : BitVec 5} {x : BitVec 17} (issues : s.issues 0x31 f) (d : f.d = .g n) (src : f.a = .imm x) :
    exec (.movh f) s = .next (s.setMe (s.me.writeG n (depositChunk (s.me.readG n) (f.bits 1 0) x))).retire := by
  change execMovh f s = _
  rw [execMovh, State.issue_issues issues]
  simp only [d, src, State.oldG, State.dst_g, seqOf, State.settle_seq]

/-- The predicate or mask that a `SEL` names in its modifier. -/
theorem sel_register (f : Fields) : BitVec.ofNat 3 (f.bits 2 0) = f.modf.extractLsb' 0 3 := by
  rw [Fields.bits_low]
  exact BitVec.eq_of_toNat_eq (by simp)

theorem execSel_scalar (issues : s.issues 0x32 f) (d : (∃ n, f.d = .g n) ∨ ∃ n, f.d = .port n) (srcA : s.src f.a = .ok (a, s1))
    (srcB : s1.src f.b = .ok (b, s2)) (dst : s2.dst f.d (if s2.me.readP (f.modf.extractLsb' 0 3) then a else b) = .ok t) :
    exec (.sel f) s = .next t.retire := by
  change execSel f s = _
  rw [execSel, State.issue_issues issues]
  obtain ⟨n, named⟩ | ⟨n, named⟩ := d <;>
  · rw [named] at dst
    simp only [named, srcA, srcB, sel_register, dst, seqOf, State.settle_seq]

theorem selLanes_eq_map (m : Word) (k : Nat) (xs ys : List Nat) : selLanes m.toNat k xs ys =
    (List.zip xs ys).mapIdx (fun i x => if m.getLsbD (k + i) then x.1 else x.2) := by
  induction xs generalizing k ys with
  | nil => simp [selLanes]
  | cons x xs ih =>
    cases ys with
    | nil => simp [selLanes]
    | cons y ys => simp [selLanes, ih, List.mapIdx_cons, BitVec.getLsbD, Nat.add_right_comm, Nat.add_assoc]

theorem getD_lanesOf {w i : Nat} (h : i < 512 / w) (x : Line) : (lanesOf w x).getD i 0 = (lane w x i).toNat := by
  rw [lanesOf_eq_map, List.getD_eq_getElem _ _ (by simpa using h), List.getElem_map, List.getElem_range]

theorem lane_selLanes {w i : Nat} (h : i < 512 / w) (m : Word) (x : Line) {b : List Nat} (len : b.length = 512 / w) :
    lane w (ofLanes w (selLanes m.toNat 0 (lanesOf w x) b)) i = if m.getLsbD i then lane w x i else BitVec.ofNat w (b.getD i 0) := by
  have inA : i < (lanesOf w x).length := by rwa [length_lanesOf]
  have inB : i < b.length := by rwa [len]
  rw [lane_ofLanes h, selLanes_eq_map, List.getD_eq_getElem _ _ (by simp [inA, inB]), List.getElem_mapIdx, List.getElem_zip, Nat.zero_add,
    apply_ite (BitVec.ofNat w), ← List.getD_eq_getElem _ 0 inA, getD_lanesOf h, ← List.getD_eq_getElem _ 0 inB, BitVec.ofNat_toNat,
    BitVec.setWidth_eq]

theorem execSel_vector {d x : BitVec 5} {l : List Nat} (issues : s.issues 0x32 f) (dst : f.d = .v d) (srcA : f.a = .v x)
    (srcB : s.laneB f.b f.width = .ok (l, s1)) : exec (.sel f) s = .next (s1.setMe (s1.me.writeV d (ofLanes f.width
      (selLanes (s1.me.readW (f.modf.extractLsb' 0 3)).toNat 0 (lanesOf f.width (s1.me.readV x)) l)))).retire := by
  change execSel f s = _
  rw [execSel, State.issue_issues issues]
  simp only [dst, srcA, srcB, sel_register, State.srcV, State.dstV_v, State.settle_seq]

/-- Settles O16: `MOVH` replaces a bit field, and `SEL` chooses a word, a predicate, or each lane. -/
theorem chunksAndSelections : Obligations.ChunksAndSelections := by
  refine ⟨?movh, fun f s s1 s2 t a b issues d srcA srcB dst => execSel_scalar issues d srcA srcB dst, ?predicates, ?vectors⟩
  case movh =>
    intro f s d x issues named src
    refine ⟨_, steps_of_setMe (execMovh_deposits issues named src) (Slot.writeG_pc ..), fun i hi => ?_⟩
    have chunk : f.bits 1 0 = f.modf.toNat % 4 := Fields.bits_low f 1
    rw [chunk, getLsbD_depositChunk _ (Nat.mod_lt _ (by omega)) x hi]
  case predicates =>
    exact fun f s d a b issues named srcA srcB => steps_of_body issues (show execSel f s = _ from rfl)
      (by simp only [named, srcA, srcB, sel_register, State.srcP, State.dstP_p]) (Slot.writeP_pc ..)
  case vectors =>
    intro f s s1 d a b issues named srcA srcB
    exact ⟨_, execSel_vector issues named srcA srcB, fun i hi => lane_selLanes hi _ _ (laneB_lanes srcB).1⟩

/-! ### `CMP` and `CMPV` (R205) -/

theorem value_inj {w : Nat} (u : Bool) {x y : BitVec w} : value u x = value u y ↔ x = y := by
  cases u with
  | true => simp [value, ← BitVec.toNat_inj]
  | false => simp [value, BitVec.toInt_inj]

theorem intCond_eq_condition (c w : Nat) (u : Bool) (a b : Nat) :
    intCond c w u a b = condition c u (BitVec.ofNat w a) (BitVec.ofNat w b) := by
  have common : ((a % 2 ^ w &&& b % 2 ^ w) != 0) = (BitVec.ofNat w a &&& BitVec.ofNat w b != 0) := by
    rw [Bool.eq_iff_iff, bne_iff_ne, bne_iff_ne, ne_eq, ne_eq, ← BitVec.toNat_inj]
    simp
  have equal : (value u (BitVec.ofNat w a) == value u (BitVec.ofNat w b)) = (BitVec.ofNat w a == BitVec.ofNat w b) := by
    rw [Bool.eq_iff_iff, beq_iff_eq, beq_iff_eq, value_inj]
  unfold intCond condition
  simp only [intOf_eq_value]
  split
  next => exact equal
  next => exact congrArg not equal
  next => rfl
  next => rfl
  next => rfl
  next => rfl
  next => exact common

theorem testBit_maskOf_map (n : Nat) (g : Nat → Bool) (i : Nat) : (maskOf ((List.range n).map g)).testBit i = (decide (i < n) && g i) := by
  rw [testBit_maskOf]
  by_cases h : i < n
  · simp [h]
  · simp [h]

theorem zipWith_lanesOf {α : Type} (g : Nat → Nat → α) (w : Nat) (x : Line) {b : List Nat} (len : b.length = 512 / w) :
    List.zipWith g (lanesOf w x) b = (List.range (512 / w)).map (fun i => g (lane w x i).toNat (b.getD i 0)) := by
  rw [lanesOf_eq_map]
  refine List.ext_getElem (by simp [len]) fun i _ h => ?_
  have inside : i < b.length := by simpa [len] using h
  simp [inside]

theorem execCmp_sets {n : BitVec 3} (issues : s.issues 0x33 f) (d : f.d = .p n) (srcA : s.src f.a = .ok (a, s1))
    (srcB : s1.src f.b = .ok (b, s2)) : exec (.cmp f) s = .next (s2.setMe (s2.me.writeP n
      (condition (f.modf.toNat % 8) f.unsigned (a.setWidth f.width) (b.setWidth f.width)))).retire := by
  change execCmp f s = _
  rw [execCmp, State.issue_issues issues]
  simp only [d, srcA, srcB, State.dstP_p, State.settle_seq, intCond_eq_condition, BitVec.ofNat_toNat, Fields.bits_low, Nat.reduceAdd,
    Nat.reducePow]

theorem execCmpv_sets {n : BitVec 3} {x : BitVec 5} {l : List Nat} (issues : s.issues 0x3E f) (d : f.d = .w n) (srcA : f.a = .v x)
    (srcB : s.laneB f.b f.width = .ok (l, s1)) : exec (.cmpv f) s = .next (s1.setMe (s1.me.writeW n (word (maskOf
      ((List.range (512 / f.width)).map fun i => condition (f.modf.toNat % 8) f.unsigned (lane f.width (s1.me.readV x) i)
        (BitVec.ofNat f.width (l.getD i 0))))))).retire := by
  change execCmpv f s = _
  rw [execCmpv, State.issue_issues issues]
  simp only [d, srcA, srcB, State.srcV, State.dstW_w, State.settle_seq, zipWith_lanesOf _ _ _ (laneB_lanes srcB).1, intCond_eq_condition,
    BitVec.ofNat_toNat, BitVec.setWidth_eq, Fields.bits_low, Nat.reduceAdd, Nat.reducePow]

/-- A modifier whose [3:0] is no condition is none that `CMP` and `CMPV` take. -/
theorem compare_faults (op : Nat) {d a b : List OpCls} (body : State → Res After)
    (forms : formsOf op = [⟨d, a, b, Modf.int true (Modf.below 7)⟩]) (plain : privilegedOp op f = false) (base : featureOf op f = none)
    (none : 7 ≤ f.modf.toNat % 16) : ∃ v, s.issue op f body = .next (s.takeExact 0x02 v 0) := by
  refine State.issue_illFormed _ (by simp [forms]) plain base fun x form _ _ _ => ?_
  have code : bitsOf f.modf.toNat 3 0 = f.modf.toNat % 16 := Fields.bits_low f 3
  rw [forms, List.mem_singleton] at form
  simp [form, Modf.int, Modf.below, code, none]

/-- Settles O17: a modifier that is no condition fails check 4; else the comparison is that of the bit vectors. -/
theorem comparesSetPredicates : Obligations.ComparesSetPredicates := by
  refine ⟨?fault, fun f s s1 s2 d a b issues named srcA srcB => execCmp_sets issues named srcA srcB, fun f s s1 d a b issues named srcA srcB =>
    ⟨_, execCmpv_sets issues named srcA srcB, fun i hi => by rw [getLsbD_word _ hi, testBit_maskOf_map]⟩⟩
  intro e mem f s none
  simp only [List.mem_cons, List.not_mem_nil, or_false] at mem
  obtain rfl | rfl := mem
  · change ∃ v, execCmp f s = _
    exact compare_faults 0x33 _ rfl rfl rfl none
  · change ∃ v, execCmpv f s = _
    exact compare_faults 0x3E _ rfl rfl rfl none

end

/-! ### `PAND`, `POR` and `PXOR` (R206) -/

section
variable {make : Fields → Instr} {op : Nat} {g : Bool → Bool → Bool} {h : Word → Word → Word} {f : Fields} {s : State}
  (run : exec (make f) s = s.issue op f (predBody g h f))
include run

theorem predBody_predicates (issues : s.issues op f) {d a b : BitVec 3} (dst : f.d = .p d) (srcA : f.a = .p a) (srcB : f.b = .p b) :
    steps (make f) s (s.me.writeP d (g (s.me.readP a) (s.me.readP b ^^ f.modf.getLsbD 0))) := by
  have complement : (if f.bit 0 = true then !s.me.readP b else s.me.readP b) = (s.me.readP b ^^ f.modf.getLsbD 0) := by
    rw [Fields.bit_eq]
    cases f.modf.getLsbD 0 <;> simp
  exact steps_of_body issues run (by simp only [predBody, dst, srcA, srcB, State.srcP, State.dstP_p, complement]) (Slot.writeP_pc ..)

theorem predBody_masks (issues : s.issues op f) {d a b : BitVec 3} (dst : f.d = .w d) (srcA : f.a = .w a) (srcB : f.b = .w b) :
    steps (make f) s (s.me.writeW d (h (s.me.readW a) (if f.modf.getLsbD 0 then ~~~s.me.readW b else s.me.readW b))) :=
  steps_of_body issues run (by simp only [predBody, dst, srcA, srcB, State.srcW, State.dstW_w, Fields.bit_eq]) (Slot.writeW_pc ..)

theorem predBody_faults (forms : formsOf op = [⟨Forms.P, Forms.P, Forms.P, Modf.below 2⟩, ⟨Forms.W, Forms.W, Forms.W, Modf.below 2⟩])
    (plain : privilegedOp op f = false) (base : featureOf op f = none)
    (bad : 2 ≤ f.modf.toNat ∨ ((∀ d a b, f.d = .p d → f.a = .p a → f.b ≠ .p b) ∧ (∀ d a b, f.d = .w d → f.a = .w a → f.b ≠ .w b))) :
    ∃ v, exec (make f) s = .next (s.takeExact 0x02 v 0) := by
  rw [run]
  refine State.issue_illFormed _ (by simp [forms]) plain base fun x form d a b => ?_
  obtain large | ⟨noP, noW⟩ := bad
  · have : x.modOk = Modf.below 2 := by
      rw [forms, List.mem_cons, List.mem_singleton] at form
      obtain rfl | rfl := form <;> rfl
    exact this ▸ decide_eq_false (by omega)
  · rw [forms, List.mem_cons, List.mem_singleton] at form
    obtain rfl | rfl := form
    · obtain ⟨d, hd⟩ := eq_of_admits_P d
      obtain ⟨a, ha⟩ := eq_of_admits_P a
      obtain ⟨b, hb⟩ := eq_of_admits_P b
      exact absurd hb (noP d a b hd ha)
    · obtain ⟨d, hd⟩ := eq_of_admits_W d
      obtain ⟨a, ha⟩ := eq_of_admits_W a
      obtain ⟨b, hb⟩ := eq_of_admits_W b
      exact absurd hb (noW d a b hd ha)

end

/-- Settles O18: the three entries share one body and one pair of forms. -/
theorem predicateLogic : Obligations.PredicateLogic := by
  intro e mem f s
  simp only [List.mem_cons, List.not_mem_nil, or_false] at mem
  obtain rfl | rfl | rfl := mem <;>
  exact ⟨fun issues => ⟨fun d a b => predBody_predicates rfl issues, fun d a b => predBody_masks rfl issues⟩,
    predBody_faults rfl rfl rfl rfl⟩

/-! ### Lane moves (R210) -/

section
variable {s s1 s2 t : State} {f : Fields} {a b : Word} {d x : BitVec 5}

theorem execIota_writes (issues : s.issues 0x3A f) (dst : f.d = .v d) (srcA : s.src f.a = .ok (a, s1)) (srcB : s1.src f.b = .ok (b, s2)) :
    exec (.iota f) s = .next (s2.setMe (s2.me.writeV d (ofLanes f.width ((List.range (512 / f.width)).map fun i =>
      a.toNat + i * (if f.b = .none then 1 else b.toNat))))).retire := by
  change execIota f s = _
  rw [execIota, State.issue_issues issues]
  simp only [dst, srcA, srcB, State.dstV_v, State.settle_seq]

theorem ofNat_iota {w : Nat} (hw : w ≤ 64) (a c : Word) (i : Nat) : BitVec.ofNat w (a.toNat + i * c.toNat) = (a + word i * c).setWidth w := by
  rw [← BitVec.setWidth_ofNat_of_le hw, BitVec.ofNat_add, BitVec.ofNat_mul, BitVec.ofNat_toNat, BitVec.ofNat_toNat, BitVec.setWidth_eq,
    BitVec.setWidth_eq, word]

theorem lane_ofLanes_replicate {w i : Nat} (h : i < 512 / w) (y : Nat) :
    lane w (ofLanes w (List.replicate (512 / w) y)) i = BitVec.ofNat w y := by
  rw [lane_ofLanes h, List.getD_replicate _ h]

theorem execBcast_scalar (issues : s.issues 0x3B f) (dst : f.d = .v d) (scalar : ∀ n, f.a ≠ .v n) (src : s.src f.a = .ok (a, s1)) :
    exec (.bcast f) s = .next (s1.setMe (s1.me.writeV d (ofLanes f.width (List.replicate (512 / f.width) a.toNat)))).retire := by
  change execBcast f s = _
  rw [execBcast, State.issue_issues issues]
  dsimp only
  split
  next n named => exact absurd named (scalar n)
  next => simp only [dst, src, State.dstV_v, State.settle_seq]

theorem execBcast_lane (issues : s.issues 0x3B f) (dst : f.d = .v d) (srcA : f.a = .v x) (srcB : s.src f.b = .ok (b, s1)) :
    exec (.bcast f) s = .next (s1.setMe (s1.me.writeV d (ofLanes f.width (List.replicate (512 / f.width)
      (elem f.width (s1.me.readV x).toNat (b.toNat % (512 / f.width))))))).retire := by
  change execBcast f s = _
  rw [execBcast, State.issue_issues issues]
  simp only [dst, srcA, srcB, State.srcV, State.dstV_v, State.settle_seq]

theorem execExtl_gives (issues : s.issues 0x3C f) (srcA : f.a = .v x) (srcB : s.src f.b = .ok (b, s1))
    (dst : s1.dst f.d (widen f.unsigned (lane f.width (s1.me.readV x) (b.toNat % (512 / f.width)))) = .ok t) :
    exec (.extl f) s = .next t.retire := by
  change execExtl f s = _
  rw [execExtl, State.issue_issues issues]
  simp only [srcA, srcB, State.srcV, ext64_eq_widen, ofNat_elem_lane, dst, seqOf, State.settle_seq]

theorem execInsl_writes (issues : s.issues 0x3D f) (dst : f.d = .v d) (srcA : s.src f.a = .ok (a, s1)) (srcB : s1.src f.b = .ok (b, s2)) :
    exec (.insl f) s = .next (s2.setMe (s2.me.writeV d (BitVec.ofNat 512
      (setElem f.width (s2.me.readV d).toNat (b.toNat % (512 / f.width)) a.toNat)))).retire := by
  change execInsl f s = _
  rw [execInsl, State.issue_issues issues]
  simp only [dst, srcA, srcB, State.srcV, State.dstV_v, State.settle_seq]

end

/-- Settles O20, instruction by instruction: the register that each writes, and then its lanes. -/
theorem laneMoves : Obligations.LaneMoves := by
  refine ⟨?iota, ?bcast, ?bcastLane, fun f s s1 t a b issues srcA srcB dst => execExtl_gives issues srcA srcB dst, ?insl⟩
  case iota =>
    intro f s s1 s2 d a b issues dst srcA srcB
    refine ⟨_, execIota_writes issues dst srcA srcB, fun i hi => ?_⟩
    have step : (if f.b = .none then 1 else b.toNat) = (if f.b = .none then 1 else b : Word).toNat := by split <;> rfl
    rw [lane_ofLanes_map hi, step, ofNat_iota (width_le f)]
  case bcast =>
    intro f s s1 d a issues dst scalar src
    refine ⟨_, execBcast_scalar issues dst scalar src, fun i hi => ?_⟩
    rw [lane_ofLanes_replicate hi, BitVec.ofNat_toNat]
  case bcastLane =>
    intro f s s1 d a b issues dst srcA srcB
    refine ⟨_, execBcast_lane issues dst srcA srcB, fun i hi => ?_⟩
    rw [lane_ofLanes_replicate hi, ofNat_elem_lane]
  case insl =>
    intro f s s1 s2 d a b issues dst srcA srcB
    refine ⟨_, execInsl_writes issues dst srcA srcB, fun i hi => ?_⟩
    rw [lane_ofNat hi, elem_setElem, apply_ite (BitVec.ofNat f.width), ofNat_mod, BitVec.ofNat_toNat, ofNat_elem_lane]

end Sys2Proof.Machine
end

section

/-! PROOF. The float entries that round nothing (O23; R213, R215, R216, R219), and the conversions in both shapes (O24, O25; R214, R217,
R218, R220, R232). -/

namespace Sys2Proof.Machine
open Sys2Proof.Num Sys2Proof.Claims

/-! ### Results that take no rounding -/

theorem fmtWidth_pos (c : Nat) : 0 < fmtWidth c := by
  unfold fmtWidth
  split_ifs <;> omega

/-- Setting the sign of an encoding is setting the top bit of its bit vector (R213). -/
theorem withSign_eq_signed (f : Fields) (a : Nat) (g : Bool → Bool) : withSign f.fmt g a = Claims.signed f a g := by
  have width := fmtWidth_pos f.fmt
  unfold withSign Claims.signed
  split
  next => rfl
  next =>
    have low : flush f.fmt a % 2 ^ fmtWidth f.fmt % 2 ^ (fmtWidth f.fmt - 1) = flush f.fmt a % 2 ^ (fmtWidth f.fmt - 1) :=
      Nat.mod_mod_of_dvd _ (Nat.pow_dvd_pow 2 (Nat.sub_le ..))
    have top : (BitVec.ofNat (fmtWidth f.fmt) (flush f.fmt a)).msb = (flush f.fmt a).testBit (fmtWidth f.fmt - 1) := by
      rw [BitVec.msb_eq_getLsbD_last, BitVec.getLsbD_ofNat, decide_eq_true (by omega), Bool.true_and]
    simp only [BitVec.toNat_ofNat, low, top, boolNat, Bool.toNat, Bool.cond_eq_ite]

section
variable {g : Nat → Nat → Nat → Nat} {f : Fields} {s s1 s2 : State}

theorem rawBody_scalar {a b : Word} (scalar : ∀ n, f.d ≠ .v n) (srcA : s.src f.a = .ok (a, s1)) (srcB : s1.src f.b = .ok (b, s2)) :
    rawBody g f s = seqOf (s2.dst f.d (word
      (g ((s2.oldG f.d).toNat % 2 ^ fmtWidth f.fmt) (a.toNat % 2 ^ fmtWidth f.fmt) (b.toNat % 2 ^ fmtWidth f.fmt)))) := by
  unfold rawBody
  split
  next n named => exact absurd named (scalar n)
  next => simp only [srcA, srcB]

theorem rawBody_vector {d a : BitVec 5} {b : List Nat} (dst : f.d = .v d) (srcA : f.a = .v a) (srcB : s.laneB f.b (fmtWidth f.fmt) = .ok (b, s1))
    (len : b.length = 512 / fmtWidth f.fmt) :
    rawBody g f s = .ok (.seq (s1.setMe (s1.me.writeV d (ofLanes (fmtWidth f.fmt) ((List.range (512 / fmtWidth f.fmt)).map fun i =>
      g (lane (fmtWidth f.fmt) (s1.me.readV d) i).toNat (lane (fmtWidth f.fmt) (s1.me.readV a) i).toNat (b.getD i 0)))))) := by
  rw [← map_zip_lanesOf g _ _ _ len, ← zip3_eq_map_zip]
  simp only [rawBody, dst, srcA, srcB]
  rfl

end

/-- Each entry issues as its opcode, with its result as the function of its lanes. -/
theorem exec_rawEntry {e : RawEntry} (mem : e ∈ rawEntries) (f : Fields) (s : State) :
    exec (e.make f) s = s.issue e.op f (rawBody (fun _ a b => e.result f a b) f) := by
  simp only [rawEntries, List.mem_cons, List.not_mem_nil, or_false] at mem
  obtain rfl | rfl | rfl | rfl | rfl | rfl := mem
  · rfl
  · rfl
  · simp only [← withSign_eq_signed]
    rfl
  · simp only [← withSign_eq_signed]
    rfl
  · rfl
  · rfl

/-! ### `FCMP` (R215) -/

section
variable {s s1 s2 t : State} {f : Fields} {a b : Word}

theorem execFcmp_scalar {d : BitVec 3} (issues : s.issues 0x4A f) (dst : f.d = .p d) (srcA : s.src f.a = .ok (a, s1))
    (srcB : s1.src f.b = .ok (b, s2)) : exec (.fcmp f) s = .next (s2.setMe (s2.me.writeP d (floatCond (f.modf.toNat % 8) (f.modf.getLsbD 3)
      f.fmt (a.toNat % 2 ^ fmtWidth f.fmt) (b.toNat % 2 ^ fmtWidth f.fmt)))).retire := by
  change execFcmp f s = _
  rw [execFcmp, State.issue_issues issues]
  simp only [dst, srcA, srcB, State.dstP_p, State.settle_seq, Fields.bits_low, Fields.bit_eq, Nat.reduceAdd, Nat.reducePow]

theorem execFcmp_vector {d : BitVec 3} {x : BitVec 5} {l : List Nat} (issues : s.issues 0x4A f) (dst : f.d = .w d) (srcA : f.a = .v x)
    (srcB : s.laneB f.b (fmtWidth f.fmt) = .ok (l, s1)) (len : l.length = 512 / fmtWidth f.fmt) :
    exec (.fcmp f) s = .next (s1.setMe (s1.me.writeW d (word (maskOf ((List.range (512 / fmtWidth f.fmt)).map fun i =>
      floatCond (f.modf.toNat % 8) (f.modf.getLsbD 3) f.fmt (lane (fmtWidth f.fmt) (s1.me.readV x) i).toNat (l.getD i 0)))))).retire := by
  change execFcmp f s = _
  rw [execFcmp, State.issue_issues issues]
  simp only [dst, srcA, srcB, State.srcV, zipWith_lanesOf _ _ _ len, State.dstW_w, State.settle_seq, Fields.bits_low, Fields.bit_eq,
    Nat.reduceAdd, Nat.reducePow]

/-- Settles O23: the entry's body in each shape, and `FCMP` in each. -/
theorem unroundedFloatResults : Obligations.UnroundedFloatResults := by
  refine ⟨fun e mem => ⟨?scalar, ?vector⟩, fun f s s1 s2 d a b issues dst srcA srcB => execFcmp_scalar issues dst srcA srcB, ?masks⟩
  case scalar =>
    intro f s s1 s2 t a b issues scalar srcA srcB dst
    rw [exec_rawEntry mem, State.issue_issues issues, rawBody_scalar scalar srcA srcB, dst, seqOf, State.settle_seq]
  case vector =>
    intro f s s1 d a b issues dst srcA srcB len
    refine ⟨_, by rw [exec_rawEntry mem, State.issue_issues issues, rawBody_vector dst srcA srcB len, State.settle_seq], fun i hi => ?_⟩
    rw [lane_ofLanes_map hi]
  case masks =>
    intro f s s1 d a b issues dst srcA srcB len
    refine ⟨_, execFcmp_vector issues dst srcA srcB len, fun i hi => ?_⟩
    rw [getLsbD_word _ hi, testBit_maskOf_map]

/-! ### Scalar conversions (R214, R217, R218, R220, R232) -/

theorem State.rounded_eq (s : State) (fmt mode : Nat) (sat : Bool) (vs : List XVal) :
    s.rounded fmt mode sat vs = ((roundAll fmt mode sat s.here.seed vs).1, seeded s (roundAll fmt mode sat s.here.seed vs).2) := rfl

theorem execFscale_scalar (issues : s.issues 0x53 f) (scalar : ∀ n, f.d ≠ .v n) (srcA : s.src f.a = .ok (a, s1))
    (srcB : s1.src f.b = .ok (b, s2))
    (dst : (let r := roundOne f f.fmt s2 ((decodeFloat f.fmt (a.toNat % 2 ^ fmtWidth f.fmt)).scale b.toInt)
      (seeded s2 r.2).dst f.d (word r.1)) = .ok t) : exec (.fscale f) s = .next t.retire := by
  change execFscale f s = _
  rw [execFscale, State.issue_issues issues]
  simp only [roundOne] at dst
  dsimp only
  split
  next n _ named _ => exact absurd named (scalar n)
  next n named _ => exact absurd named (scalar n)
  next => simp only [srcA, srcB, State.rounded_one, fdec, List.getD_cons_zero, dst, seqOf, State.settle_seq]

theorem execFcvt_scalar (issues : s.issues 0x54 f) (scalar : ∀ n, f.d ≠ .v n) (src : s.src f.a = .ok (a, s1))
    (dst : (let r := roundOne f f.fmt s1 (decode (f.modf.toNat % 32) (a.toNat % 2 ^ fmtWidth (f.modf.toNat % 32)))
      (seeded s1 r.2).dst f.d (word r.1)) = .ok t) : exec (.fcvt f) s = .next t.retire := by
  change execFcvt f s = _
  rw [execFcvt, State.issue_issues issues]
  simp only [roundOne] at dst
  dsimp only
  split
  next n named => exact absurd named (scalar n)
  next => simp only [src, Fields.bits_low, Nat.reduceAdd, Nat.reducePow, State.rounded_one, List.getD_cons_zero, dst, seqOf, State.settle_seq]

theorem intOf_toNat {w : Nat} (u : Bool) (x : BitVec w) : intOf w u x.toNat = value u x := by
  rw [intOf_eq_value, BitVec.ofNat_toNat, BitVec.setWidth_eq]

theorem execItof_scalar (issues : s.issues 0x56 f) (scalar : ∀ n, f.d ≠ .v n) (src : s.src f.a = .ok (a, s1))
    (dst : (let r := roundOne f f.fmt s1 (ofInt (value (f.modf.getLsbD 4) a)); (seeded s1 r.2).dst f.d (word r.1)) = .ok t) :
    exec (.itof f) s = .next t.retire := by
  change execItof f s = _
  rw [execItof, State.issue_issues issues]
  simp only [roundOne] at dst
  dsimp only
  split
  next n named => exact absurd named (scalar n)
  next => simp only [src, Fields.bit_eq, intOf_toNat, State.rounded_one, List.getD_cons_zero, dst, seqOf, State.settle_seq]

theorem execFtoi_scalar (issues : s.issues 0x55 f) (scalar : ∀ n, f.d ≠ .v n) (src : s.src f.a = .ok (a, s1))
    (dst : (let r := s1.roundedInts 64 (f.modf.getLsbD 4) f.rnd f.sat [decodeFloat f.fmt (a.toNat % 2 ^ fmtWidth f.fmt)]
      r.2.dst f.d (word (r.1.getD 0 0))) = .ok t) : exec (.ftoi f) s = .next t.retire := by
  change execFtoi f s = _
  rw [execFtoi, State.issue_issues issues]
  dsimp only at dst ⊢
  split
  next n named => exact absurd named (scalar n)
  next => simp only [src, Fields.bit_eq, fdec, dst, seqOf, State.settle_seq]

theorem execFdot_gives {x y : BitVec 5} (issues : s.issues 0x58 f) (srcA : f.a = .v x) (srcB : f.b = .v y)
    (dst : (let r := roundOne f 0 s (xsum (f.rnd == 2) (f32 (s.oldG f.d).toNat :: (List.range (512 / fmtWidth f.fmt)).map (fun i =>
        (decodeFloat f.fmt (lane (fmtWidth f.fmt) (s.me.readV x) i).toNat).mul (decodeFloat f.fmt (lane (fmtWidth f.fmt) (s.me.readV y) i).toNat))))
      (seeded s r.2).dst f.d (word r.1)) = .ok t) : exec (.fdot f) s = .next t.retire := by
  change execFdot f s = _
  rw [execFdot, State.issue_issues issues]
  simp only [roundOne] at dst
  simp only [srcA, srcB, State.srcV, lanesOf_eq_map, List.zipWith_map, List.zipWith_self, fdec, Fields.down, State.rounded_one,
    List.getD_cons_zero, dst, seqOf, State.settle_seq]

theorem execVdist_gives {x y : BitVec 5} (issues : s.issues 0x6B f) (srcA : f.a = .v x) (srcB : f.b = .v y)
    (dst : (let terms := (List.range (512 / fmtWidth f.fmt)).map (fun i => distTerm (f.modf.getLsbD 0) f.fmt
        (lane (fmtWidth f.fmt) (s.me.readV x) i).toNat (lane (fmtWidth f.fmt) (s.me.readV y) i).toNat)
      let r := distChain f.rnd f.sat s.here.seed ((s.oldG f.d).toNat % 2 ^ 32) (groups terms.length (groupSize f.fmt f.fmt) terms)
      (seeded s r.2).dst f.d (word r.1)) = .ok t) : exec (.vdist f) s = .next t.retire := by
  change execVdist f s = _
  rw [execVdist, State.issue_issues issues]
  simp only [seeded] at dst
  simp only [srcA, srcB, State.srcV, lanesOf_eq_map, List.zipWith_map, List.zipWith_self, Fields.bit_eq, dst, seqOf, State.settle_seq]

/-- Settles O24, instruction by instruction: the exact value of each, rounded once, or term by term in `VDIST`. -/
theorem scalarConversions : Obligations.ScalarConversions :=
  ⟨fun _ _ _ _ _ _ _ issues scalar srcA srcB dst => execFscale_scalar issues scalar srcA srcB dst,
    fun _ _ _ _ _ issues scalar src dst => execFcvt_scalar issues scalar src dst,
    fun _ _ _ _ _ issues scalar src dst => execItof_scalar issues scalar src dst,
    fun _ _ _ _ _ issues scalar src dst => execFtoi_scalar issues scalar src dst,
    fun _ _ _ _ _ issues srcA srcB dst => execFdot_gives issues srcA srcB dst,
    fun _ _ _ _ _ issues srcA srcB dst => execVdist_gives issues srcA srcB dst⟩

/-! ### Vector conversions (R214, R217, R218) -/

theorem map_lanesOf {α : Type} (g : Nat → α) (w : Nat) (x : Line) :
    (lanesOf w x).map g = (List.range (512 / w)).map (fun i => g (lane w x i).toNat) := by
  rw [lanesOf_eq_map, List.map_map]
  rfl

theorem execFscale_imm {d x : BitVec 5} {n : BitVec 17} (issues : s.issues 0x53 f) (dst : f.d = .v d) (srcA : f.a = .v x) (srcB : f.b = .imm n) :
    exec (.fscale f) s = .next (let r := roundAll f.fmt f.rnd f.sat s.here.seed ((List.range (512 / fmtWidth f.fmt)).map (fun i =>
        (decodeFloat f.fmt (lane (fmtWidth f.fmt) (s.me.readV x) i).toNat).scale n.toInt))
      ((seeded s r.2).setMe ((seeded s r.2).me.writeV d (ofLanes (fmtWidth f.fmt) r.1))).retire) := by
  change execFscale f s = _
  rw [execFscale, State.issue_issues issues]
  simp only [dst, srcA, srcB, State.srcV, map_lanesOf, fdec, State.rounded_eq, State.dstV_v, State.settle_seq]

theorem execFscale_vector {d x : BitVec 5} {l : List Nat} (issues : s.issues 0x53 f) (dst : f.d = .v d) (srcA : f.a = .v x)
    (lanes : ∀ n, f.b ≠ .imm n) (srcB : s.laneB f.b (fmtWidth f.fmt) = .ok (l, s1)) (len : l.length = 512 / fmtWidth f.fmt) :
    exec (.fscale f) s = .next (let r := roundAll f.fmt f.rnd f.sat s1.here.seed ((List.range (512 / fmtWidth f.fmt)).map (fun i =>
        (decodeFloat f.fmt (lane (fmtWidth f.fmt) (s1.me.readV x) i).toNat).scale (BitVec.ofNat (fmtWidth f.fmt) (l.getD i 0)).toInt))
      ((seeded s1 r.2).setMe ((seeded s1 r.2).me.writeV d (ofLanes (fmtWidth f.fmt) r.1))).retire) := by
  change execFscale f s = _
  rw [execFscale, State.issue_issues issues]
  dsimp only
  split
  next n _ named => exact absurd named (lanes n)
  next => simp only [floatBody_vector dst srcA srcB len, signed_eq_toInt, fdec, State.settle_seq]
  next scalar _ => exact absurd dst (scalar d)

theorem execFcvt_widens {d x : BitVec 5} (issues : s.issues 0x54 f) (dst : f.d = .v d) (srcA : f.a = .v x) (srcB : s.src f.b = .ok (b, s1))
    (wider : fmtWidth (f.modf.toNat % 32) < fmtWidth f.fmt) :
    exec (.fcvt f) s = .next (let ws := fmtWidth (f.modf.toNat % 32)
      let n := 512 / fmtWidth f.fmt
      let r := roundAll f.fmt f.rnd f.sat s1.here.seed ((List.range n).map (fun i =>
        decode (f.modf.toNat % 32) (lane ws (s1.me.readV x) (b.toNat % (fmtWidth f.fmt / ws) * n + i)).toNat))
      ((seeded s1 r.2).setMe ((seeded s1 r.2).me.writeV d (ofLanes (fmtWidth f.fmt) r.1))).retire) := by
  change execFcvt f s = _
  rw [execFcvt, State.issue_issues issues]
  simp only [dst, srcA, srcB, State.srcV, Fields.bits_low, Nat.reduceAdd, Nat.reducePow, max_eq_right wider.le,
    min_eq_left wider.le, wider, if_true, elem_eq_lane, State.rounded_eq, State.dstV_v, State.settle_seq, ofLanes]

theorem length_roundAll (c mode : Nat) (sat : Bool) (l : BitVec 32) (vs : List XVal) : (roundAll c mode sat l vs).1.length = vs.length := by
  induction vs generalizing l with
  | nil => rfl
  | cons v vs ih => rw [roundAll, List.length_cons, List.length_cons, ih]

theorem elem_setElems (w x k : Nat) (l : List Nat) (i : Nat) : elem w (setElems w x k l) i =
    if k ≤ i ∧ i < k + l.length then l.getD (i - k) 0 % 2 ^ w else elem w x i := by
  induction l generalizing x k with
  | nil => rw [setElems, if_neg (by simp)]
  | cons e es ih =>
    rw [setElems, ih, elem_setElem, List.length_cons]
    obtain before | rfl | after := Nat.lt_trichotomy i k
    · rw [if_neg (by omega), if_neg (by omega), if_neg (by omega)]
    · rw [if_neg (by omega), if_pos rfl, if_pos (by omega), Nat.sub_self, List.getD_cons_zero]
    · have span : (k + 1 ≤ i ∧ i < k + 1 + es.length) = (k ≤ i ∧ i < k + (es.length + 1)) := by
        rw [eq_iff_iff]
        omega
      rw [if_neg (show i ≠ k by omega), show i - k = i - (k + 1) + 1 by omega, List.getD_cons_succ]
      simp only [span]

theorem execFcvt_narrows {d x : BitVec 5} (issues : s.issues 0x54 f) (dst : f.d = .v d) (srcA : f.a = .v x) (srcB : s.src f.b = .ok (b, s1))
    (narrower : fmtWidth f.fmt ≤ fmtWidth (f.modf.toNat % 32)) :
    exec (.fcvt f) s = .next (let ws := fmtWidth (f.modf.toNat % 32)
      let r := roundAll f.fmt f.rnd f.sat s1.here.seed ((List.range (512 / ws)).map (fun i =>
        decode (f.modf.toNat % 32) (lane ws (s1.me.readV x) i).toNat))
      ((seeded s1 r.2).setMe ((seeded s1 r.2).me.writeV d (BitVec.ofNat 512 (setElems (fmtWidth f.fmt) (s1.me.readV d).toNat
        (b.toNat % (ws / fmtWidth f.fmt) * (512 / ws)) r.1)))).retire) := by
  change execFcvt f s = _
  rw [execFcvt, State.issue_issues issues]
  simp only [dst, srcA, srcB, State.srcV, Fields.bits_low, Nat.reduceAdd, Nat.reducePow,
    max_eq_left narrower, min_eq_right narrower, Nat.not_lt.mpr narrower, if_false, Nat.zero_add, elem_eq_lane, State.rounded_eq, State.dstV_v,
    State.settle_seq]

theorem execFtoi_vector {d x : BitVec 5} (issues : s.issues 0x55 f) (dst : f.d = .v d) (srcA : f.a = .v x) :
    exec (.ftoi f) s = .next (let w := fmtWidth f.fmt
      let r := s.roundedInts w (f.modf.getLsbD 4) f.rnd f.sat ((List.range (512 / w)).map (fun i => decodeFloat f.fmt (lane w (s.me.readV x) i).toNat))
      (r.2.setMe (r.2.me.writeV d (ofLanes w r.1))).retire) := by
  change execFtoi f s = _
  rw [execFtoi, State.issue_issues issues]
  simp only [dst, srcA, State.srcV, map_lanesOf, fdec, Fields.bit_eq, State.dstV_v, State.settle_seq]

theorem execItof_vector {d x : BitVec 5} (issues : s.issues 0x56 f) (dst : f.d = .v d) (srcA : f.a = .v x) :
    exec (.itof f) s = .next (let w := fmtWidth f.fmt
      let r := roundAll f.fmt f.rnd f.sat s.here.seed ((List.range (512 / w)).map (fun i =>
        ofInt (value (f.modf.getLsbD 4) (lane w (s.me.readV x) i))))
      ((seeded s r.2).setMe ((seeded s r.2).me.writeV d (ofLanes w r.1))).retire) := by
  change execItof f s = _
  rw [execItof, State.issue_issues issues]
  simp only [dst, srcA, State.srcV, map_lanesOf, intOf_toNat, Fields.bit_eq, State.rounded_eq, State.dstV_v, State.settle_seq]

/-- Settles O25, instruction by instruction; the lanes of a narrowing `FCVT` are those of D with a run of elements replaced. -/
theorem vectorConversions : Obligations.VectorConversions := by
  refine ⟨fun _ _ _ _ _ issues dst srcA srcB => execFscale_imm issues dst srcA srcB,
    fun _ _ _ _ _ _ issues dst srcA lanes srcB len => execFscale_vector issues dst srcA lanes srcB len,
    fun _ _ _ _ _ _ issues dst srcA srcB wider => execFcvt_widens issues dst srcA srcB wider, ?narrows,
    fun _ _ _ _ issues dst srcA => execFtoi_vector issues dst srcA, fun _ _ _ _ issues dst srcA => execItof_vector issues dst srcA⟩
  intro f s s1 d a b issues dst srcA srcB narrower
  refine ⟨_, execFcvt_narrows issues dst srcA srcB narrower, fun i hi => ?_⟩
  rw [lane_ofNat hi, elem_setElems, apply_ite (BitVec.ofNat (fmtWidth f.fmt)), ofNat_mod, ofNat_elem_lane, length_roundAll, List.length_map,
    List.length_range]

end

end Sys2Proof.Machine
end

section

/-! PROOF. Block scales and planes (O26; R221 to R223). -/

namespace Sys2Proof.Machine
open Sys2Proof.Num Sys2Proof.Claims

section
variable {s s1 s2 t : State} {f : Fields} {a b : Word}

/-! ### Block scales (R221, R222) -/

theorem pack_lt_of_le {w k : Nat} {l : List Nat} (h : w * l.length ≤ k) : pack w l < 2 ^ k :=
  (pack_lt w l).trans_le (Nat.pow_le_pow_right (by omega) h)

/-- A scale byte above a payload of at most 504 bits. -/
theorem toNat_scaled {x : Nat} (c : Nat) (h : x < 2 ^ 504) :
    (BitVec.ofNat 512 (x + c * 2 ^ 504)).toNat / 2 ^ 504 = c % 256 ∧ (BitVec.ofNat 512 (x + c * 2 ^ 504)).toNat % 2 ^ 504 = x := by
  rw [BitVec.toNat_ofNat]
  omega

/-- Two scale bytes above a payload of at most 496 bits. -/
theorem toNat_scaled_twice {x c : Nat} (c' : Nat) (h : x < 2 ^ 496) (hc : c < 256) :
    (BitVec.ofNat 512 (x + c * 2 ^ 496 + c' * 2 ^ 504)).toNat / 2 ^ 504 = c' % 256 ∧
    (BitVec.ofNat 512 (x + c * 2 ^ 496 + c' * 2 ^ 504)).toNat / 2 ^ 496 % 256 = c % 256 ∧
    (BitVec.ofNat 512 (x + c * 2 ^ 496 + c' * 2 ^ 504)).toNat % 2 ^ 496 = x := by
  rw [BitVec.toNat_ofNat]
  omega

theorem roundUe5m3Up_lt (v : XVal) : roundUe5m3Up v < 256 := by
  unfold roundUe5m3Up
  split
  · omega
  · split <;> omega
  · split <;> omega

theorem groupScale_lt (c : Nat) (xs : List XVal) : (groupScale c xs).1 < 256 := by
  unfold groupScale
  have scale := roundUe5m3Up_lt
  dsimp only
  split
  next => decide
  next =>
    split
    next =>
      split
      next => split <;> decide
      next =>
        split
        next => exact scale _
        next => dsimp only; omega
    next => decide

theorem State.quantise_scale (s : State) (c mode : Nat) (xs : List XVal) : (s.quantise c mode xs).1 < 256 := by
  unfold State.quantise
  dsimp only
  split <;> exact groupScale_lt c xs

theorem State.length_quantise (s : State) (c mode : Nat) (xs : List XVal) : (s.quantise c mode xs).2.1.length = xs.length := by
  unfold State.quantise
  dsimp only
  split
  · exact List.length_map ..
  · rw [State.rounded_eq, length_roundAll, List.length_map]

theorem fmtWidth_elemFmt_le {c : Nat} (h : 23 ≤ c ∧ c ≤ 30) : fmtWidth (elemFmt c) ≤ 8 := by
  obtain ⟨low, high⟩ := h
  interval_cases c <;> decide

/-- A modifier of `QNT` but for its source format: a block format, and a rounding mode. -/
def qntModf (x : Nat) : Bool := decide (23 ≤ Modf.fmt x) && decide (Modf.fmt x ≤ 30) && Modf.rnd x ≤ 5 && bitsOf x 6 5 == 0

/-- `QNT` takes a block format, from f32, bf16 or f16 (R221). -/
theorem qnt_formats (issues : s.issues 0x59 f) : (23 ≤ f.fmt ∧ f.fmt ≤ 30) ∧
    (f.modf.toNat % 32 = 0 ∨ f.modf.toNat % 32 = 1 ∨ f.modf.toNat % 32 = 2) := by
  obtain ⟨x, form, -, -, -, modf⟩ := issues.form
  have src : bitsOf f.modf.toNat 4 0 = f.modf.toNat % 32 := Fields.bits_low f 4
  have forms : formsOf 0x59 = [⟨Forms.V, Forms.V, Forms.V, fun x => qntModf x && bitsOf x 4 0 == 0⟩,
    ⟨Forms.V, Forms.V, Forms.N, fun x => qntModf x && (bitsOf x 4 0 == 1 || bitsOf x 4 0 == 2)⟩] := rfl
  rw [forms, List.mem_cons, List.mem_singleton] at form
  obtain rfl | rfl := form
  · simp only [qntModf, Bool.and_eq_true, decide_eq_true_eq, beq_iff_eq, src] at modf
    obtain ⟨⟨⟨⟨low, high⟩, -⟩, -⟩, zero⟩ := modf
    exact ⟨⟨low, high⟩, .inl zero⟩
  · simp only [qntModf, Bool.and_eq_true, Bool.or_eq_true, decide_eq_true_eq, beq_iff_eq, src] at modf
    obtain ⟨⟨⟨⟨low, high⟩, -⟩, -⟩, half⟩ := modf
    exact ⟨⟨low, high⟩, .inr half⟩

/-- The 32 values that a `QNT` reads: A, and for f32 B behind it (R221). -/
def State.qntValues (s : State) (f : Fields) (a : BitVec 5) : List XVal :=
  (lanesOf (fmtWidth (f.modf.toNat % 32)) (s.me.readV a) ++
    (if f.modf.toNat % 32 = 0 then lanesOf (fmtWidth (f.modf.toNat % 32)) (s.srcV f.b) else [])).map (decodeFloat (f.modf.toNat % 32))

theorem State.length_qntValues {x : BitVec 5} (issues : s.issues 0x59 f) : (s.qntValues f x).length = 32 := by
  obtain ⟨-, zero | one | two⟩ := qnt_formats issues
  · simp [State.qntValues, zero, length_lanesOf, fmtWidth]
  · simp [State.qntValues, one, length_lanesOf, fmtWidth]
  · simp [State.qntValues, two, length_lanesOf, fmtWidth]

theorem qntValues_eq {x : BitVec 5} (srcA : f.a = .v x) :
    (if f.bits 4 0 = 0 then lanesOf (fmtWidth (f.bits 4 0)) (s.srcV f.a) ++ lanesOf (fmtWidth (f.bits 4 0)) (s.srcV f.b)
      else lanesOf (fmtWidth (f.bits 4 0)) (s.srcV f.a)).map (decodeFloat (f.bits 4 0)) = s.qntValues f x := by
  have src : f.bits 4 0 = f.modf.toNat % 32 := Fields.bits_low f 4
  rw [src, srcA, State.qntValues]
  split
  next => rfl
  next => rw [List.append_nil]; rfl

theorem execQnt_group {d x : BitVec 5} (issues : s.issues 0x59 f) (dst : f.d = .v d) (srcA : f.a = .v x) (single : f.fmt ≠ 28) :
    exec (.qnt f) s = .next (let r := s.quantise f.fmt f.rnd (s.qntValues f x)
      (r.2.2.setMe (r.2.2.me.writeV d (BitVec.ofNat 512 (pack (fmtWidth (elemFmt f.fmt)) r.2.1 + r.1 * 2 ^ 504)))).retire) := by
  change execQnt f s = _
  rw [execQnt, State.issue_issues issues]
  simp only [qntValues_eq srcA, single, if_false, dst, State.dstV_v, State.settle_seq]

theorem execQnt_groups {d x : BitVec 5} (issues : s.issues 0x59 f) (dst : f.d = .v d) (srcA : f.a = .v x) (double : f.fmt = 28) :
    exec (.qnt f) s = .next (let r := s.quantise 28 f.rnd ((s.qntValues f x).take 16)
      let q := r.2.2.quantise 28 f.rnd ((s.qntValues f x).drop 16)
      (q.2.2.setMe (q.2.2.me.writeV d (BitVec.ofNat 512
        (pack (fmtWidth (elemFmt 28)) (r.2.1 ++ q.2.1) + r.1 * 2 ^ 496 + q.1 * 2 ^ 504)))).retire) := by
  change execQnt f s = _
  rw [execQnt, State.issue_issues issues]
  simp only [qntValues_eq srcA, double, if_true, dst, State.dstV_v, State.settle_seq]

/-- `DQNT` gives f32, bf16 or f16 (R222). -/
theorem dqnt_format (issues : s.issues 0x5A f) : f.fmt = 0 ∨ f.fmt = 1 ∨ f.fmt = 2 := by
  obtain ⟨x, form, -, -, -, modf⟩ := issues.form
  have forms : formsOf 0x5A = [⟨Forms.V, Forms.V, Forms.GIN, fun x => Modf.fmt x ≤ 2 && Modf.rnd x ≤ 5 && bitsOf x 6 5 == 0 &&
    decide (23 ≤ bitsOf x 4 0) && decide (bitsOf x 4 0 ≤ 30)⟩] := rfl
  rw [forms, List.mem_singleton] at form
  obtain rfl := form
  simp only [Bool.and_eq_true, decide_eq_true_eq] at modf
  obtain ⟨⟨⟨⟨fmt, -⟩, -⟩, -⟩, -⟩ := modf
  change f.fmt ≤ 2 at fmt
  omega

/-- The elements that a `DQNT` gives: half a register for f32, else all 32 (R222). -/
theorem dqnt_elements {α : Type} (g : Nat → α) (h : Nat) (format : f.fmt = 0 ∨ f.fmt = 1 ∨ f.fmt = 2) :
    (if f.fmt = 0 then (List.range 16).map (16 * h + ·) else List.range 32).map g =
      (List.range (512 / fmtWidth f.fmt)).map (fun i => g (if f.fmt = 0 then 16 * h + i else i)) := by
  obtain zero | one | two := format
  · simp [zero, fmtWidth]
  · simp [one, fmtWidth]
  · simp [two, fmtWidth]

theorem execDqnt_gives {d x : BitVec 5} (issues : s.issues 0x5A f) (dst : f.d = .v d) (srcA : f.a = .v x) (srcB : s.src f.b = .ok (b, s1))
    (inside : immOutside f.b 0 1 = false) :
    exec (.dqnt f) s = .next (let r := roundAll f.fmt f.rnd f.sat s1.here.seed ((List.range (512 / fmtWidth f.fmt)).map (fun i =>
        let j := if f.fmt = 0 then 16 * (b.toNat % 2) + i else i
        (decode (elemFmt (f.modf.toNat % 32)) (elem (fmtWidth (elemFmt (f.modf.toNat % 32))) (s1.me.readV x).toNat j)).mul
          (decodeScale (f.modf.toNat % 32) (elem 8 (s1.me.readV x).toNat (if f.modf.toNat % 32 = 28 then 62 + j / 16 else 63)))))
      ((seeded s1 r.2).setMe ((seeded s1 r.2).me.writeV d (ofLanes (fmtWidth f.fmt) r.1))).retire) := by
  change execDqnt f s = _
  rw [execDqnt, State.issue_issues issues]
  simp only [dst, srcA, srcB, inside, Bool.false_eq_true, if_false, dqnt_elements _ _ (dqnt_format issues), State.srcV, Fields.bits_low,
    Nat.reduceAdd, Nat.reducePow, State.rounded_eq, State.dstV_v, State.settle_seq, apply_ite (elem 8 _)]

/-! ### Planes (R223) -/

theorem testBit_eq_elem {w : Nat} (h : 0 < w) (x i : Nat) : x.testBit i = (elem w x (i / w)).testBit (i % w) := by
  rw [testBit_elem, decide_eq_true (Nat.mod_lt _ h), Bool.true_and, Nat.div_add_mod]

theorem boolNat_testBit (x q : Nat) : boolNat (x.testBit q) = x / 2 ^ q % 2 := by
  rw [Nat.testBit_eq_decide_div_mod_eq]
  obtain even | odd := Nat.mod_two_eq_zero_or_one (x / 2 ^ q)
  · rw [even]; rfl
  · rw [odd]; rfl

theorem testBit_setBit (x q : Nat) (y : Bool) (i : Nat) :
    (x - boolNat (x.testBit q) * 2 ^ q + boolNat y * 2 ^ q).testBit i = if i = q then y else x.testBit i := by
  have field : x - boolNat (x.testBit q) * 2 ^ q + boolNat y * 2 ^ q = replaceField x q 1 (boolNat y) := by
    rw [replaceField, boolNat_testBit]
    cases y <;> rfl
  have one : (q ≤ i ∧ i < q + 1) = (i = q) := by
    rw [eq_iff_iff]
    omega
  rw [field, testBit_replaceField]
  simp only [one]
  split
  next here =>
    rw [here, Nat.sub_self]
    cases y <;> rfl
  next => rfl

theorem execPlsplit_gives {x : BitVec 5} {y : Word} (issues : s.issues 0x5B f) (srcA : f.a = .v x) (srcB : s.src f.b = .ok (b, s1))
    (inside : immOutside f.b 0 7 = false) (plane : ∀ i, i < 64 → y.getLsbD i = (s1.me.readV x).getLsbD (8 * i + 7 - b.toNat % 8))
    (dst : s1.dst f.d y = .ok t) : exec (.plsplit f) s = .next t.retire := by
  have bits : word (maskOf ((List.range 64).map fun i => (elem 8 (s1.me.readV x).toNat i).testBit (7 - b.toNat % 8))) = y := by
    refine BitVec.eq_of_getLsbD_eq fun i hi => ?_
    have place : 8 * i + (7 - b.toNat % 8) = 8 * i + 7 - b.toNat % 8 := by omega
    rw [getLsbD_word _ hi, testBit_maskOf_map, decide_eq_true hi, Bool.true_and, testBit_elem, decide_eq_true (by omega), Bool.true_and, place,
      plane i hi]
    rfl
  change execPlsplit f s = _
  rw [execPlsplit, State.issue_issues issues]
  simp only [srcA, srcB, inside, Bool.false_eq_true, if_false, State.srcV, bits, dst, seqOf, State.settle_seq]

/-- The register that a `PLJOIN` leaves: bit q of each byte is a bit of the word. -/
def joinPlane (x : Line) (q : Nat) (a : Word) : Line :=
  BitVec.ofNat 512 (pack 8 ((List.range 64).map fun i =>
    elem 8 x.toNat i - boolNat ((elem 8 x.toNat i).testBit q) * 2 ^ q + boolNat (a.getLsbD i) * 2 ^ q))

theorem getLsbD_joinPlane (x : Line) (q : Nat) (a : Word) {i : Nat} (hi : i < 512) :
    (joinPlane x q a).getLsbD i = if i % 8 = q then a.getLsbD (i / 8) else x.getLsbD i := by
  have byte : i / 8 < ((List.range 64).map fun i =>
    elem 8 x.toNat i - boolNat ((elem 8 x.toNat i).testBit q) * 2 ^ q + boolNat (a.getLsbD i) * 2 ^ q).length := by
    rw [List.length_map, List.length_range]
    omega
  have low : i % 8 < 8 := Nat.mod_lt _ (by omega)
  rw [joinPlane, BitVec.getLsbD_ofNat, decide_eq_true hi, Bool.true_and, testBit_eq_elem (by omega : 0 < 8), elem_pack,
    List.getD_eq_getElem _ _ byte, List.getElem_map, List.getElem_range, Nat.testBit_mod_two_pow, decide_eq_true low, Bool.true_and,
    testBit_setBit, ← testBit_eq_elem (by omega : 0 < 8)]
  rfl

theorem execPljoin_writes {d : BitVec 5} (issues : s.issues 0x5C f) (dst : f.d = .v d) (srcA : s.src f.a = .ok (a, s1))
    (srcB : s1.src f.b = .ok (b, s2)) (inside : immOutside f.b 0 7 = false) :
    exec (.pljoin f) s = .next (s2.setMe (s2.me.writeV d (joinPlane (s2.me.readV d) (7 - b.toNat % 8) a))).retire := by
  change execPljoin f s = _
  rw [execPljoin, State.issue_issues issues]
  simp only [dst, srcA, srcB, inside, Bool.false_eq_true, if_false, State.srcV, State.dstV_v, State.settle_seq, joinPlane]

end

/-- Settles O26, instruction by instruction: the register or word that each writes, and then its parts. -/
theorem blocksAndPlanes : Obligations.BlocksAndPlanes := by
  refine ⟨?group, ?groups, fun f s s1 d a b issues dst srcA srcB inside => ⟨_, execDqnt_gives issues dst srcA srcB inside, rfl⟩,
    fun f s s1 t a b y issues srcA srcB inside plane dst => execPlsplit_gives issues srcA srcB inside plane dst, ?join⟩
  case group =>
    intro f s d a issues dst srcA single
    refine ⟨_, execQnt_group issues dst srcA single, toNat_scaled _ (pack_lt_of_le ?_)⟩
    rw [State.length_quantise, State.length_qntValues issues]
    have := fmtWidth_elemFmt_le (qnt_formats issues).1
    omega
  case groups =>
    intro f s d a issues dst srcA double
    refine ⟨_, execQnt_groups issues dst srcA double,
      toNat_scaled_twice _ (pack_lt_of_le ?_) (State.quantise_scale ..)⟩
    rw [List.length_append, State.length_quantise, State.length_quantise, List.length_take, List.length_drop, State.length_qntValues issues]
    decide
  case join =>
    intro f s s1 s2 d a b issues dst srcA srcB inside
    exact ⟨_, execPljoin_writes issues dst srcA srcB inside, fun i hi => getLsbD_joinPlane _ _ a hi⟩

end Sys2Proof.Machine
end

section

/-! PROOF. Lanes permuted (O27; R225, R226): the four permutes of two registers, the rotation, and what masks and matches select. -/

namespace Sys2Proof.Machine
open Sys2Proof.Num Sys2Proof.Claims

/-! ### Lanes as numbers (R159) -/

theorem lanes_lt (w : Nat) (x : Line) (i : Nat) : lanes w x i < 2 ^ w := BitVec.isLt _

theorem lanesOf_eq_map_lanes (w : Nat) (x : Line) : lanesOf w x = (List.range (512 / w)).map (lanes w x) := lanesOf_eq_map w x

theorem laneAt_lanesOf {w i : Nat} (h : i < 512 / w) (x : Line) : laneAt (lanesOf w x) i = lanes w x i := getD_lanesOf h x

theorem lanes_ofLanes {w i : Nat} (h : i < 512 / w) (l : List Nat) : lanes w (ofLanes w l) i = l.getD i 0 % 2 ^ w := by
  rw [lanes, lane_ofLanes h, BitVec.toNat_ofNat]

/-- A lane packed as a number below 2^w reads back as that number. -/
theorem lanes_ofLanes_of_lt {w i : Nat} (h : i < 512 / w) {l : List Nat} (small : l.getD i 0 < 2 ^ w) :
    lanes w (ofLanes w l) i = l.getD i 0 := by
  rw [lanes_ofLanes h, Nat.mod_eq_of_lt small]

/-- A register has two lanes at least, and an even number of them. -/
theorem lane_count (f : Fields) : 512 / f.width = 2 * (512 / f.width / 2) ∧ 0 < 512 / f.width / 2 := by
  obtain h | h | h | h := width_cases f <;> rw [h] <;> decide

/-! ### The permutes of two registers (R225) -/

/-- An instruction whose body writes a list of lanes to D. -/
theorem steps_writeV_of_lanes {i : Instr} {op : Nat} {f : Fields} {s : State} {d : BitVec 5} {l : State → List Nat} {g : Nat → Nat}
    (issues : s.issues op f) (dst : f.d = .v d)
    (run : exec i s = s.issue op f (fun s => .ok (.seq (s.lanesD f f.width (l s)))))
    (value : ∀ i, i < 512 / f.width → (l s).getD i 0 = g i) (small : ∀ i, i < 512 / f.width → g i < 2 ^ f.width) :
    ∃ y : Line, steps i s (s.me.writeV d y) ∧ ∀ i, i < 512 / f.width → lanes f.width y i = g i :=
  ⟨ofLanes f.width (l s), steps_of_body issues run (by simp only [State.lanesD, dst, State.dstV_v]) (Slot.writeV_pc ..),
    fun i hi => by rw [lanes_ofLanes_of_lt hi (value i hi ▸ small i hi), value i hi]⟩

theorem getD_map_range {n i : Nat} (h : i < n) (g : Nat → Nat) : ((List.range n).map g).getD i 0 = g i := by
  rw [List.getD_eq_getElem _ _ (by simpa using h), List.getElem_map, List.getElem_range]

theorem getD_map_lanesOf {w i : Nat} (h : i < 512 / w) (g : Nat → Nat) (x : Line) : ((lanesOf w x).map g).getD i 0 = g (lanes w x i) := by
  rw [lanesOf_eq_map_lanes, List.map_map, getD_map_range h, Function.comp]

/-- The table of `VPERM2`: the lanes of a, then those of b. -/
theorem laneAt_append_lanesOf {w j : Nat} (h : j < 2 * (512 / w)) (a b : Line) :
    laneAt (lanesOf w a ++ lanesOf w b) j = if j < 512 / w then lanes w a j else lanes w b (j - 512 / w) := by
  have len := length_lanesOf w a
  split
  next low => rw [laneAt, List.getD_append _ _ _ _ (by omega), ← laneAt_lanesOf low a, laneAt]
  next high => rw [laneAt, List.getD_append_right _ _ _ _ (by omega), len, ← laneAt_lanesOf (by omega) b, laneAt]

theorem boolNat_bit (f : Fields) (i : Nat) : boolNat (f.bit i) = (f.modf.getLsbD i).toNat := by
  rw [Fields.bit_eq]
  cases f.modf.getLsbD i <;> rfl

/-- A permuted lane is a lane of a or b, or 0. -/
theorem permutes_lane_lt {e : LaneEntry} (mem : e ∈ permutes) (f : Fields) (d : Nat → Nat) (a b : Line) (i : Nat) :
    e.lane f d (lanes f.width a) (lanes f.width b) i < 2 ^ f.width := by
  have zero : 0 < 2 ^ f.width := Nat.two_pow_pos _
  have lane := lanes_lt f.width
  simp only [permutes, List.mem_cons, List.not_mem_nil, or_false] at mem
  obtain rfl | rfl | rfl | rfl := mem <;>
  · dsimp only
    split_ifs <;> simp only [zero, lane]

/-- One of the four permutes, each through the list of lanes that its body packs. -/
theorem permutes_step {f : Fields} {s : State} {d a b : BitVec 5} {e : LaneEntry} (mem : e ∈ permutes) (issues : s.issues e.op f)
    (dst : f.d = .v d) (srcA : f.a = .v a) (srcB : f.b = .v b) :
    ∃ y : Line, steps (e.make f) s (s.me.writeV d y) ∧ ∀ i, i < 512 / f.width → lanes f.width y i =
      e.lane f (lanes f.width (s.me.readV d)) (lanes f.width (s.me.readV a)) (lanes f.width (s.me.readV b)) i := by
  obtain ⟨even, pos⟩ := lane_count f
  have parity := Bool.toNat_le (f.modf.getLsbD 0)
  have small := fun i (_ : i < 512 / f.width) => permutes_lane_lt mem f (lanes f.width (s.me.readV d)) (s.me.readV a) (s.me.readV b) i
  simp only [permutes, List.mem_cons, List.not_mem_nil, or_false] at mem
  obtain rfl | rfl | rfl | rfl := mem
  · refine steps_writeV_of_lanes issues dst (show execVshuf f s = _ from rfl) (fun i hi => ?_) small
    simp only [srcA, srcB, State.srcV, getD_map_lanesOf hi, laneAt_lanesOf (Nat.mod_lt _ (show 0 < 512 / f.width by omega))]
  · refine steps_writeV_of_lanes issues dst (show execVperm2 f s = _ from rfl) (fun i hi => ?_) small
    simp only [dst, srcA, srcB, State.srcV, getD_map_lanesOf hi,
      laneAt_append_lanesOf (Nat.mod_lt _ (show 0 < 2 * (512 / f.width) by omega))]
  · refine steps_writeV_of_lanes issues dst (show execVzip f s = _ from rfl) (fun i hi => ?_) small
    have inside : (f.modf.getLsbD 0).toNat * (512 / f.width / 2) + i / 2 < 512 / f.width := by
      have := Nat.mul_le_mul_right (512 / f.width / 2) parity
      omega
    dsimp only
    rw [getD_map_range hi, boolNat_bit, srcA, srcB, State.srcV, State.srcV]
    split <;> exact laneAt_lanesOf inside _
  · refine steps_writeV_of_lanes issues dst (show execVunzip f s = _ from rfl) (fun i hi => ?_) small
    dsimp only
    rw [getD_map_range hi, boolNat_bit, srcA, srcB, State.srcV, State.srcV]
    split <;> exact laneAt_lanesOf (by omega) _

/-! ### `VROT` (R225) -/

/-- Lane i of a rotation: by the modifier, lane i + b where there is one, or the one at i + b around the register. -/
def rotatedLane (f : Fields) (b : Word) (x : Line) (i : Nat) : Nat :=
  if f.modf.getLsbD 0 then
    (if 0 ≤ (i : Int) + b.toInt ∧ (i : Int) + b.toInt < (512 / f.width : Nat) then laneAt (lanesOf f.width x) ((i : Int) + b.toInt).toNat else 0)
  else laneAt (lanesOf f.width x) ((i + b.toNat % (512 / f.width)) % (512 / f.width))

section
variable {f : Fields} {s s1 : State} {d a : BitVec 5} {b : Word}

theorem execVrot_writes (issues : s.issues 0x62 f) (dst : f.d = .v d) (srcA : f.a = .v a) (srcB : s.src f.b = .ok (b, s1)) :
    exec (.vrot f) s = .next (s1.setMe (s1.me.writeV d (ofLanes f.width
      ((List.range (512 / f.width)).map (rotatedLane f b (s1.me.readV a)))))).retire := by
  change execVrot f s = _
  rw [execVrot, State.issue_issues issues]
  simp only [dst, srcA, srcB, State.srcV, State.lanesD, State.dstV_v, State.settle_seq, Fields.bit_eq]
  rfl

theorem lanes_rotated {i : Nat} (hi : i < 512 / f.width) (x : Line) (b : Word) :
    lanes f.width (ofLanes f.width ((List.range (512 / f.width)).map (rotatedLane f b x))) i =
      if f.modf.getLsbD 0 then
        (if 0 ≤ (i : Int) + b.toInt ∧ (i : Int) + b.toInt < (512 / f.width : Nat) then lanes f.width x ((i : Int) + b.toInt).toNat else 0)
      else lanes f.width x ((i + b.toNat) % (512 / f.width)) := by
  have pos : 0 < 512 / f.width := by omega
  rw [lanes_ofLanes hi, getD_map_range hi, rotatedLane]
  split
  · split
    · rw [laneAt_lanesOf (by omega), Nat.mod_eq_of_lt (lanes_lt ..)]
    · exact Nat.zero_mod _
  · rw [laneAt_lanesOf (Nat.mod_lt _ pos), Nat.mod_eq_of_lt (lanes_lt ..), Nat.add_mod_mod]

end

/-! ### `VCOMP` and `VEXP` (R226) -/

/-- The values of a mask's selected lanes, from lane k on. -/
theorem compress_map_range' (m k n : Nat) (g : Nat → Nat) :
    compress m k ((List.range' k n).map g) = ((List.range' k n).filter m.testBit).map g := by
  induction n generalizing k with
  | zero => rfl
  | succ n ih =>
    rw [List.range'_succ, List.map_cons, compress, ih, List.filter_cons]
    split <;> rfl

theorem compress_lanesOf (m : Word) (w : Nat) (x : Line) : compress m.toNat 0 (lanesOf w x) = (chosen m (512 / w)).map (lanes w x) := by
  rw [lanesOf_eq_map_lanes, List.range_eq_range', compress_map_range', chosen, List.range_eq_range']
  rfl

theorem getD_map_chosen (m : Word) (n i : Nat) (g : Nat → Nat) :
    ((chosen m n).map g).getD i 0 = match (chosen m n)[i]? with | some j => g j | none => 0 := by
  rw [List.getD_eq_getElem?_getD, List.getElem?_map]
  cases (chosen m n)[i]? <;> rfl

/-- Lane k + j of an expansion takes the next lane of a after those that the mask selects from lane k on. -/
theorem getD_expand (m : Nat) (z : Bool) (k n j : Nat) (h : j < n) (d : Nat → Nat) (a : List Nat) :
    (expand m z k ((List.range' k n).map d) a).getD j 0 =
      if m.testBit (k + j) then a.getD ((List.range' k j).filter m.testBit).length 0 else if z then 0 else d (k + j) := by
  induction n generalizing k j a with
  | zero => omega
  | succ n ih =>
    rw [List.range'_succ, List.map_cons, expand]
    cases j with
    | zero => split <;> cases a <;> simp_all
    | succ j =>
      have rest := ih (k + 1) j (by omega)
      rw [show k + 1 + j = k + (j + 1) by omega] at rest
      rw [List.range'_succ, List.filter_cons]
      split
      next taken =>
        rw [List.getD_cons_succ, rest, List.length_cons, List.getD_eq_getElem?_getD, List.getElem?_drop, Nat.add_comm 1,
          ← List.getD_eq_getElem?_getD]
      next other => rw [List.getD_cons_succ, rest]

theorem length_chosen_le (m : Word) (i : Nat) : (chosen m i).length ≤ i :=
  (List.length_filter_le ..).trans (List.length_range ..).le

theorem getD_expand_lanesOf {w i : Nat} (h : i < 512 / w) (m : Word) (z : Bool) (d a : Line) :
    (expand m.toNat z 0 (lanesOf w d) (lanesOf w a)).getD i 0 =
      if m.getLsbD i then lanes w a (chosen m i).length else if z then 0 else lanes w d i := by
  have chosen_eq : (List.range' 0 i).filter m.toNat.testBit = chosen m i := by rw [chosen, List.range_eq_range']; rfl
  rw [lanesOf_eq_map_lanes w d, List.range_eq_range', getD_expand _ _ _ _ _ h, Nat.zero_add, chosen_eq, ← laneAt,
    laneAt_lanesOf ((length_chosen_le m i).trans_lt h)]
  rfl

/-! ### `VMATCH` (R225) -/

/-- A lane is a double where it is among those seen, or among the lanes before it. -/
theorem getD_dupLanes (seen l : List Nat) (i : Nat) :
    (dupLanes seen l).getD i false = true ↔ ∃ x, l[i]? = some x ∧ (x ∈ seen ∨ x ∈ l.take i) := by
  induction l generalizing seen i with
  | nil => simp [dupLanes]
  | cons y l ih =>
    cases i with
    | zero => simp [dupLanes]
    | succ i =>
      rw [dupLanes, List.getD_cons_succ, ih]
      simp only [List.getElem?_cons_succ, List.mem_cons, List.take_succ_cons, or_assoc, or_left_comm]

theorem getD_dupLanes_lanesOf (w : Nat) (x : Line) (i : Nat) : (dupLanes [] (lanesOf w x)).getD i false = true ↔
    i < 512 / w ∧ ∃ j, j < i ∧ lanes w x j = lanes w x i := by
  rw [getD_dupLanes, lanesOf_eq_map_lanes]
  constructor
  · rintro ⟨y, at_i, earlier⟩
    obtain ⟨inside, rfl⟩ := List.getElem?_eq_some_iff.mp at_i
    simp only [List.length_map, List.length_range] at inside
    simp only [List.getElem_map, List.getElem_range] at earlier
    refine ⟨inside, ?_⟩
    obtain ⟨j, ⟨before, -⟩, same⟩ : ∃ j, (j < i ∧ j < 512 / w) ∧ lanes w x j = lanes w x i := by
      simpa [← List.map_take, List.take_range] using earlier
    exact ⟨j, before, same⟩
  · rintro ⟨inside, j, before, same⟩
    refine ⟨lanes w x i, by simp [inside], .inr ?_⟩
    simpa [← List.map_take, List.take_range] using ⟨j, ⟨before, before.trans inside⟩, same⟩

theorem contains_lanesOf (w : Nat) (x : Line) (y : Nat) : (lanesOf w x).contains y = true ↔ ∃ j, j < 512 / w ∧ lanes w x j = y := by
  simp [lanesOf_eq_map_lanes]

section
variable {f : Fields} {s : State} {d : BitVec 3} {a : BitVec 5}

/-- B of `VMATCH` is a register or nothing. -/
theorem eq_of_issues_vmatch (issues : s.issues 0x6C f) : (∃ b, f.b = .v b) ∨ f.b = .none := by
  obtain ⟨x, mem, -, -, admits, -⟩ := issues.form
  have forms : formsOf 0x6C =
    [⟨Forms.W, Forms.V, Forms.V, Forms.perm Forms.noOp⟩, ⟨Forms.W, Forms.V, Forms.N, Forms.perm (fun x => x == 1)⟩] := rfl
  rw [forms, List.mem_cons, List.mem_singleton] at mem
  cases named : f.b with
  | v b => exact .inl ⟨b, rfl⟩
  | none => exact .inr rfl
  | _ =>
    rw [named] at admits
    obtain rfl | rfl := mem <;> nomatch admits

/-- The bits of `VMATCH`: which lanes some lane of B equals, or which an earlier lane of A. -/
def matchBits (f : Fields) (s : State) : List Bool :=
  match f.b with
  | .v _ => (lanesOf f.width (s.srcV f.a)).map fun x => (lanesOf f.width (s.srcV f.b)).contains x
  | _ => dupLanes [] (lanesOf f.width (s.srcV f.a))

theorem exec_vmatch (f : Fields) (s : State) :
    exec (.vmatch f) s = s.issue 0x6C f fun s => .ok (.seq (s.dstW f.d (word (maskOf (matchBits f s))))) := rfl

theorem getD_matchBits (issues : s.issues 0x6C f) (srcA : f.a = .v a) (i : Nat) : (matchBits f s).getD i false = true ↔ i < 512 / f.width ∧
      ((∃ b j, f.b = .v b ∧ j < 512 / f.width ∧ lanes f.width (s.me.readV b) j = lanes f.width (s.me.readV a) i) ∨
       (f.b = .none ∧ ∃ j, j < i ∧ lanes f.width (s.me.readV a) j = lanes f.width (s.me.readV a) i)) := by
  obtain ⟨b, named⟩ | named := eq_of_issues_vmatch issues
  · have bits : matchBits f s = (List.range (512 / f.width)).map fun i =>
        (lanesOf f.width (s.me.readV b)).contains (lanes f.width (s.me.readV a) i) := by
      simp only [matchBits, named, srcA, State.srcV, lanesOf_eq_map_lanes, List.map_map, Function.comp_def]
    rw [bits, ← testBit_maskOf, testBit_maskOf_map, Bool.and_eq_true, decide_eq_true_iff, contains_lanesOf]
    simp [named]
  · have bits : matchBits f s = dupLanes [] (lanesOf f.width (s.me.readV a)) := by simp only [matchBits, named, srcA, State.srcV]
    rw [bits, getD_dupLanes_lanesOf]
    simp [named]

end

/-- Settles O27, instruction by instruction: the lanes that each packs, or the bits of its mask. -/
theorem lanePermutes : Obligations.LanePermutes := by
  refine ⟨fun e mem f s d a b issues dst srcA srcB => permutes_step mem issues dst srcA srcB, ?vrot, ?vcomp, ?vexp, ?vmatch⟩
  case vrot =>
    intro f s s1 d a b issues dst srcA srcB
    exact ⟨_, execVrot_writes issues dst srcA srcB, fun i hi => lanes_rotated hi _ b⟩
  case vcomp =>
    intro f s d a m issues dst srcA srcB
    refine steps_writeV_of_lanes issues dst (show execVcomp f s = _ from rfl) (fun i _ => ?_) fun i _ => ?_
    · rw [srcA, srcB, State.srcV, State.srcW, compress_lanesOf]
      exact getD_map_chosen ..
    · split
      · exact lanes_lt ..
      · exact Nat.two_pow_pos _
  case vexp =>
    intro f s d a m issues dst srcA srcB
    refine steps_writeV_of_lanes issues dst (show execVexp f s = _ from rfl) (fun i hi => ?_) fun i _ => ?_
    · rw [dst, srcA, srcB, State.srcV, State.srcV, State.srcW, getD_expand_lanesOf hi, Fields.bit_eq]
    · split
      · exact lanes_lt ..
      · split
        · exact Nat.two_pow_pos _
        · exact lanes_lt ..
  case vmatch =>
    intro f s d a issues dst srcA
    refine ⟨word (maskOf (matchBits f s)), steps_of_body issues (exec_vmatch f s) (by rw [dst, State.dstW_w]) (Slot.writeW_pc ..), fun i hi => ?_⟩
    rw [getLsbD_word _ hi, testBit_maskOf, getD_matchBits issues srcA]

end Sys2Proof.Machine
end

section

/-! PROOF. Reductions, scans, sorts and the best pairs (O28; R227 to R231). -/

namespace Sys2Proof.Machine
open Sys2Proof.Num Sys2Proof.Claims

/-! ### The tree of a reduction (R227, R228) -/

/-- An element of a reduction as a bit vector; one that takes no part is the identity. -/
def redValue (f : Fields) (x : Option Nat) : BitVec f.width := BitVec.ofNat f.width (x.getD (redIdentity f))

/-- What a list of elements comes to, from the left. -/
def redTotal (f : Fields) (op : BitVec f.width → BitVec f.width → BitVec f.width) (e : BitVec f.width) (xs : List (Option Nat)) :
    BitVec f.width :=
  (xs.map (redValue f)).foldl op e

/-- The operation of a reduction is op on bit vectors, with identity e, and draws nothing from SEED. -/
structure Reduces (f : Fields) (op : BitVec f.width → BitVec f.width → BitVec f.width) (e : BitVec f.width) : Prop where
  code : f.modf.toNat % 8 < 5
  identity : BitVec.ofNat f.width (redIdentity f) = e
  step : ∀ l x y, BitVec.ofNat f.width (redStep f l x y).1 = op (BitVec.ofNat f.width x) (BitVec.ofNat f.width y)
  seed : ∀ l x y, (redStep f l x y).2 = l

section
variable {f : Fields} {op : BitVec f.width → BitVec f.width → BitVec f.width} {e : BitVec f.width} (h : Reduces f op e)
  [Std.Associative op] [Std.LawfulIdentity op e]
include h

omit [Std.Associative op] [Std.LawfulIdentity op e] in
theorem Reduces.bits : f.bits 2 0 < 5 := by
  rw [Fields.bits_low]
  exact h.code

omit [Std.Associative op] [Std.LawfulIdentity op e] in
theorem Reduces.redValue_none : redValue f none = e := h.identity

omit [Std.Associative op] in
theorem Reduces.redStep? (l : BitVec 32) (x y : Option Nat) :
    redValue f (redStep? f l x y).1 = op (redValue f x) (redValue f y) ∧ (redStep? f l x y).2 = l := by
  have left := Std.LawfulLeftIdentity.left_id (op := op) (o := e)
  have right := Std.LawfulRightIdentity.right_id (op := op) (o := e)
  have plain : (if f.bits 2 0 = 5 ∧ f.rnd = 5 then advance l else l) = l := if_neg fun sum => by
    have := h.bits
    omega
  cases x with
  | none => exact ⟨by rw [h.redValue_none, left]; rfl, plain⟩
  | some x =>
    cases y with
    | none => exact ⟨by rw [h.redValue_none, right]; rfl, plain⟩
    | some y => exact ⟨h.step l x y, h.seed l x y⟩

omit h in
theorem redTotal_cons (x : Option Nat) (xs : List (Option Nat)) :
    redTotal f op e (x :: xs) = op (redValue f x) (redTotal f op e xs) := by
  rw [redTotal, List.map_cons, List.foldl_cons, Std.LawfulLeftIdentity.left_id (op := op) (o := e),
    ← Std.LawfulRightIdentity.right_id (op := op) (o := e) (redValue f x), List.foldl_assoc,
    Std.LawfulRightIdentity.right_id (op := op) (o := e), redTotal]

/-- A stage halves the list, and keeps its total and SEED. -/
theorem Reduces.redStage (l : BitVec 32) (xs : List (Option Nat)) : redTotal f op e (redStage f l xs).1 = redTotal f op e xs ∧
    (redStage f l xs).1.length = (xs.length + 1) / 2 ∧ (redStage f l xs).2 = l := by
  induction l, xs using redStage.induct (f := f) with
  | case1 l x y r z ih =>
    obtain ⟨value, seed⟩ := h.redStep? l x y
    obtain ⟨total, len, kept⟩ := ih
    rw [Machine.redStage]
    refine ⟨?_, ?_, kept.trans seed⟩
    · rw [redTotal_cons, total, value, redTotal_cons, redTotal_cons, Std.Associative.assoc (op := op)]
    · rw [List.length_cons, len, List.length_cons, List.length_cons]
      omega
  | case2 l r short =>
    rw [Machine.redStage]
    · refine ⟨rfl, ?_, rfl⟩
      match r, short with
      | [], _ => rfl
      | [_], _ => simp
      | x :: y :: r, short => exact absurd rfl (short x y r)
    · exact short

theorem Reduces.redTree (k : Nat) (l : BitVec 32) (xs : List (Option Nat)) (len : xs.length ≤ 2 ^ k) :
    redTotal f op e (redTree f k l xs).1 = redTotal f op e xs ∧ (redTree f k l xs).1.length ≤ 1 ∧ (redTree f k l xs).2 = l := by
  induction k generalizing l xs with
  | zero => exact ⟨rfl, len, rfl⟩
  | succ k ih =>
    obtain ⟨total, half, seed⟩ := h.redStage l xs
    obtain ⟨total', one, seed'⟩ := ih (Machine.redStage f l xs).2 (Machine.redStage f l xs).1 (by rw [pow_succ] at len; omega)
    exact ⟨total'.trans total, one, seed'.trans seed⟩

omit [Std.Associative op] in
/-- The lanes of a mask, from the left. -/
theorem Reduces.redTotal_maskedLanes (m : Word) (x : Line) : redTotal f op e (maskedLanes f m.toNat (lanesOf f.width x)) =
    ((List.range (512 / f.width)).filter m.getLsbD).foldl (fun y i => op y (lane f.width x i)) e := by
  rw [redTotal, maskedLanes, length_lanesOf, List.map_map, List.foldl_map, List.foldl_filter]
  refine List.foldl_ext _ _ _ fun y i mem => ?_
  have inside := List.mem_range.mp mem
  dsimp only [Function.comp]
  change op y (redValue f (if m.getLsbD i = true then _ else _)) = _
  split
  · rw [redValue, Option.getD_some, redLane, if_pos h.bits, laneAt_lanesOf inside, lanes, BitVec.ofNat_toNat, BitVec.setWidth_eq]
  · rw [h.redValue_none, Std.LawfulRightIdentity.right_id (op := op) (o := e)]

/-- The tree over a mask's lanes comes to their reduction from the left, and leaves SEED. -/
theorem Reduces.redTree_maskedLanes (l : BitVec 32) (m : Word) (x : Line) :
    redValue f ((Machine.redTree f 7 l (maskedLanes f m.toNat (lanesOf f.width x))).1.headD none) =
      ((List.range (512 / f.width)).filter m.getLsbD).foldl (fun y i => op y (lane f.width x i)) e ∧
    (Machine.redTree f 7 l (maskedLanes f m.toNat (lanesOf f.width x))).2 = l := by
  have len : (maskedLanes f m.toNat (lanesOf f.width x)).length ≤ 2 ^ 7 := by
    rw [maskedLanes, List.length_map, List.length_range, length_lanesOf]
    obtain w | w | w | w := width_cases f <;> rw [w] <;> decide
  obtain ⟨total, one, seed⟩ := h.redTree 7 l _ len
  refine ⟨?_, seed⟩
  rw [← h.redTotal_maskedLanes, ← total]
  match (Machine.redTree f 7 l (maskedLanes f m.toNat (lanesOf f.width x))).1, one with
  | [], _ => exact h.redValue_none
  | [y], _ => rw [redTotal_cons, redTotal, List.map_nil, List.foldl_nil, Std.LawfulRightIdentity.right_id (op := op) (o := e), List.headD_cons]

end

theorem redWidth_of_lt {f : Fields} (h : f.bits 2 0 < 5) : redWidth f = f.width := if_neg (by omega)

theorem reduces_sum {f : Fields} (code : f.modf.toNat % 8 = 0) : Reduces f (fun x y => x + y) 0 := by
  have bits : f.bits 2 0 = 0 := (Fields.bits_low f 2).trans code
  refine ⟨by omega, by rw [redIdentity, bits]; rfl, fun l x y => ?_, fun l x y => by simp only [redStep, bits]⟩
  simp only [redStep, bits, redWidth_of_lt (bits ▸ (by decide : 0 < 5)), ofNat_mod, BitVec.ofNat_add]

theorem reduces_and {f : Fields} (code : f.modf.toNat % 8 = 3) : Reduces f (fun x y => x &&& y) (BitVec.allOnes f.width) := by
  have bits : f.bits 2 0 = 3 := (Fields.bits_low f 2).trans code
  refine ⟨by omega, ?_, fun l x y => ?_, fun l x y => by simp only [redStep, bits]⟩
  · rw [redIdentity, bits, redWidth_of_lt (by omega)]
    exact BitVec.eq_of_toNat_eq (by simp)
  · simp only [redStep, bits]
    exact BitVec.eq_of_getLsbD_eq fun i hi => by simp [hi]

/-! ### `VRED` (R228) -/

section
variable {f : Fields} {s t : State} {a d : BitVec 5}

theorem execVred_gives (issues : s.issues 0x67 f) (srcA : f.a = .v a)
    (dst : (let r := redTree f 7 s.here.seed (maskedLanes f (s.srcW f.b).toNat (lanesOf (redWidth f) (s.me.readV a)))
      let v := (r.1.headD none).getD (redIdentity f)
      (seeded s r.2).dst f.d (if 5 ≤ f.modf.toNat % 8 then word v else ext64 (redWidth f) f.unsigned v)) = .ok t) :
    exec (.vred f) s = .next t.retire := by
  change execVred f s = _
  rw [execVred, State.issue_issues issues]
  simp only [seeded] at dst
  simp only [srcA, State.srcV, Fields.bits_low, Nat.reduceAdd, Nat.reducePow, ge_iff_le, dst, seqOf, State.settle_seq]

/-- A core put back as it stands is read as before. -/
theorem State.core_setHere_here (s : State) (c : Nat) : (s.setHere s.here).core c = s.core c := by
  rcases eq_or_ne c s.cur with rfl | other
  · exact s.core_setCore ..
  · exact s.core_setCore_ne _ other

theorem State.setHere_setHere (s : State) (k j : Core) : (s.setHere k).setHere j = s.setHere j := s.setCore_setCore ..

theorem State.setMe_setHere_here (s : State) (x : Slot) : (s.setHere s.here).setMe x = s.setMe x := by
  rw [State.setMe_eq, State.setMe_eq, State.here_setHere, State.setHere_setHere, State.curSlot_setHere]

theorem State.me_setHere_here (s : State) : (s.setHere s.here).me = s.me := s.me_setHere _

theorem State.push_setHere_here (s : State) (p : Nat) (x : Word) : (s.setHere s.here).push p x = s.push p x := by
  simp only [State.push, State.pushRing, State.ringRoom4, State.ringRoom5, State.given, State.modMe, State.core_setHere_here,
    State.here_setHere, State.setMe_setHere_here, State.me_setHere_here, State.cur_setHere, State.setHere_setHere]
  rfl

/-- Keeping SEED as it stands changes nothing for a write to a register or a port. -/
theorem dst_seeded_seed (s : State) {o : Operand} (x : Word) (scalar : admitsAny Forms.G o = true) :
    (seeded s s.here.seed).dst o x = s.dst o x := by
  change (s.setHere s.here).dst o x = _
  cases o with
  | g n => rw [State.dst_g, State.dst_g, State.setMe_setHere_here, State.me_setHere_here]
  | port n => exact s.push_setHere_here _ x
  | _ => nomatch scalar

theorem admits_of_issues_vred (issues : s.issues 0x67 f) : admitsAny Forms.G f.d = true := by
  obtain ⟨x, mem, d, -⟩ := issues.form
  have forms : formsOf 0x67 = [⟨Forms.G, Forms.V, [.w, .none], Modf.reduce false⟩] := rfl
  rw [forms, List.mem_singleton] at mem
  subst mem
  exact d

theorem execVred_folds {op : BitVec f.width → BitVec f.width → BitVec f.width} {e : BitVec f.width} (h : Reduces f op e)
    [Std.Associative op] [Std.LawfulIdentity op e] (issues : s.issues 0x67 f) (srcA : f.a = .v a)
    (dst : s.dst f.d (widen f.unsigned (((List.range (512 / f.width)).filter (s.srcW f.b).getLsbD).foldl
      (fun y i => op y (lane f.width (s.me.readV a) i)) e)) = .ok t) : exec (.vred f) s = .next t.retire := by
  obtain ⟨value, seed⟩ := h.redTree_maskedLanes s.here.seed (s.srcW f.b) (s.me.readV a)
  refine execVred_gives issues srcA ?_
  dsimp only
  rw [redWidth_of_lt h.bits, seed, if_neg (by have := h.code; omega), ext64_eq_widen, ← redValue, value,
    dst_seeded_seed s _ (admits_of_issues_vred issues), dst]

/-! ### `VSCAN` and `VSEG` (R229) -/

theorem execVscan_writes (issues : s.issues 0x68 f) (dst : f.d = .v d) (srcA : f.a = .v a) :
    exec (.vscan f) s = .next (
      let r := redScan f (fun _ => false) 0 s.here.seed none (maskedLanes f (s.srcW f.b).toNat (lanesOf (redWidth f) (s.me.readV a)))
      State.retire ((seeded s r.2).setMe ((seeded s r.2).me.writeV d (ofLanes (redWidth f) r.1)))) := by
  change execVscan f s = _
  rw [execVscan, State.issue_issues issues]
  simp only [dst, srcA, State.srcV, State.lanesD, State.dstV_v, State.settle_seq]
  rfl

theorem execVseg_writes (issues : s.issues 0x6D f) (dst : f.d = .v d) (srcA : f.a = .v a) :
    exec (.vseg f) s = .next (
      let r := redScan f (fun i => i == 0 || (s.srcW f.b).getLsbD i) 0 s.here.seed none
        (maskedLanes f (2 ^ 64 - 1) (lanesOf (redWidth f) (s.me.readV a)))
      State.retire ((seeded s r.2).setMe ((seeded s r.2).me.writeV d (ofLanes (redWidth f) r.1)))) := by
  change execVseg f s = _
  rw [execVseg, State.issue_issues issues]
  simp only [dst, srcA, State.srcV, State.lanesD, State.dstV_v, State.settle_seq]
  rfl

end

/-! ### A stable sort (R230) -/

section
variable {α β : Type} {le : α → α → Bool}

theorem insertBy_map (g : β → α) (x : β) (l : List β) : insertBy le (g x) (l.map g) = (insertBy (fun x y => le (g x) (g y)) x l).map g := by
  induction l with
  | nil => rfl
  | cons y l ih =>
    rw [List.map_cons, insertBy, insertBy, ih]
    split <;> rfl

theorem sortBy_map (g : β → α) (l : List β) : sortBy le (l.map g) = (sortBy (fun x y => le (g x) (g y)) l).map g := by
  induction l with
  | nil => rfl
  | cons x l ih => exact (congrArg (insertBy le (g x)) ih).trans (insertBy_map g x _)

theorem insertBy_perm (x : α) (l : List α) : (insertBy le x l).Perm (x :: l) := by
  induction l with
  | nil => exact .refl _
  | cons y l ih =>
    rw [insertBy]
    split
    · exact .refl _
    · exact (ih.cons y).trans (.swap ..)

theorem sortBy_perm (l : List α) : (sortBy le l).Perm l := by
  induction l with
  | nil => exact .refl _
  | cons x l ih => exact (insertBy_perm x _).trans (ih.cons x)

/-- x goes before everything that it comes before, and after everything else. -/
theorem pairwise_insertBy {R : α → α → Prop} {x : α} {l : List α} (sorted : l.Pairwise R) (before : ∀ y ∈ l, le x y = true → R x y)
    (after : ∀ y ∈ l, le x y = false → R y x) (trans : ∀ y z, le x y = true → R y z → le x z = true) : (insertBy le x l).Pairwise R := by
  induction l with
  | nil => exact List.pairwise_singleton R x
  | cons y l ih =>
    obtain ⟨first, rest⟩ := List.pairwise_cons.mp sorted
    rw [insertBy]
    split
    next low =>
      refine List.pairwise_cons.mpr ⟨fun z mem => ?_, sorted⟩
      refine before z mem ?_
      obtain rfl | mem := List.mem_cons.mp mem
      · exact low
      · exact trans y z low (first z mem)
    next high =>
      refine List.pairwise_cons.mpr ⟨fun z mem => ?_, ih rest (fun z mem => before z (List.mem_cons_of_mem _ mem))
        fun z mem => after z (List.mem_cons_of_mem _ mem)⟩
      obtain rfl | mem := List.mem_cons.mp ((insertBy_perm x l).mem_iff.mp mem)
      · exact after y List.mem_cons_self (by simpa using high)
      · exact first z mem

/-- Under a total order the sort is in order, and equal elements keep theirs. -/
theorem pairwise_sortBy (total : ∀ x y, le x y = false → le y x = true) (trans : ∀ x y z, le x y = true → le y z = true → le x z = true)
    {pos : α → Nat} {l : List α} (order : l.Pairwise (fun x y => pos x < pos y)) :
    (sortBy le l).Pairwise (fun x y => le x y = true ∧ (le y x = true → pos x < pos y)) := by
  induction l with
  | nil => exact .nil
  | cons x l ih =>
    obtain ⟨first, rest⟩ := List.pairwise_cons.mp order
    refine pairwise_insertBy (ih rest) (fun y mem low => ⟨low, fun _ => first y ((sortBy_perm l).mem_iff.mp mem)⟩)
      (fun y _ high => ⟨total x y high, fun low => ?_⟩) fun y z low next => trans x y z low next.1
    rw [high] at low
    nomatch low

end

/-! ### `VSORT` (R230) -/

/-- Keys as integers, pairs by distance and then id (R76). -/
def sortKey (f : Fields) (x : Nat) : Int ×ₗ Nat :=
  match f.bits 1 0 with
  | 0 => toLex (intOf f.width f.unsigned x, 0)
  | 1 => toLex (orderKey f.fmt x, 0)
  | _ => toLex (orderKey 0 (x / 2 ^ 32 % 2 ^ 32), x % 2 ^ 32)

theorem sortLe_iff (f : Fields) (x y : Nat) : sortLe f x y = true ↔ sortKey f x ≤ sortKey f y := by
  unfold sortLe sortKey
  generalize f.bits 1 0 = kind
  match kind with
  | 0 => simp [Prod.Lex.toLex_le_toLex, ← le_iff_lt_or_eq]
  | 1 => simp [Prod.Lex.toLex_le_toLex, ← le_iff_lt_or_eq]
  | _ + 2 => simp [Prod.Lex.toLex_le_toLex, pairLe]

/-- Does key x come at or before key y in the direction of the sort? -/
def sortBefore (f : Fields) (x y : Nat) : Bool := if f.modf.getLsbD 3 then sortLe f y x else sortLe f x y

theorem sortBefore_total (f : Fields) (x y : Nat) (h : sortBefore f x y = false) : sortBefore f y x = true := by
  unfold sortBefore at *
  split at h <;>
  · rw [Bool.eq_false_iff, ne_eq, sortLe_iff, not_le] at h
    simp only [*, if_true, if_false, Bool.false_eq_true, sortLe_iff, h.le]

theorem sortBefore_trans (f : Fields) (x y z : Nat) (h : sortBefore f x y = true) (h' : sortBefore f y z = true) : sortBefore f x z = true := by
  unfold sortBefore at *
  split at h
  next down =>
    rw [if_pos down, sortLe_iff] at *
    exact h'.trans h
  next up =>
    rw [if_neg up, sortLe_iff] at *
    exact h.trans h'

section
variable {f : Fields} {s : State} {a d : BitVec 5}

/-- The lanes' numbers in the order of their keys, equal keys in lane order. -/
def sortedLanes (f : Fields) (x : Line) : List Nat :=
  sortBy (fun i j => sortBefore f (lanes f.width x i) (lanes f.width x j)) (List.range (512 / f.width))

theorem sortedLanes_perm (f : Fields) (x : Line) : (sortedLanes f x).Perm (List.range (512 / f.width)) := sortBy_perm _

theorem pairwise_sortedLanes (f : Fields) (x : Line) : (sortedLanes f x).Pairwise fun i j =>
    sortBefore f (lanes f.width x i) (lanes f.width x j) = true ∧ (sortBefore f (lanes f.width x j) (lanes f.width x i) = true → i < j) :=
  pairwise_sortBy (le := fun i j => sortBefore f (lanes f.width x i) (lanes f.width x j)) (pos := id)
    (fun _ _ => sortBefore_total f _ _) (fun _ _ _ => sortBefore_trans f _ _ _) List.pairwise_lt_range

theorem steps_vsort (issues : s.issues 0x6A f) (dst : f.d = .v d) (srcA : f.a = .v a) :
    steps (.vsort f) s (s.me.writeV d (ofLanes f.width ((sortedLanes f (s.me.readV a)).map fun i =>
      if f.modf.getLsbD 2 then i else lanes f.width (s.me.readV a) i))) := by
  have pairs (x : Line) : List.zip (lanesOf f.width x) (List.range (lanesOf f.width x).length) =
      (List.range (512 / f.width)).map fun i => (lanes f.width x i, i) := by
    rw [length_lanesOf, lanesOf_eq_map_lanes]
    exact List.ext_getElem (by simp) fun i _ _ => by simp
  refine steps_of_body issues (show execVsort f s = _ from rfl) ?_ (Slot.writeV_pc ..)
  simp only [dst, srcA, State.srcV, State.lanesD, State.dstV_v, pairs, sortBy_map, List.map_map]
  rfl

end

/-! ### `VTOPK` (R231) -/

theorem length_topK (k : Nat) (uniq : Bool) (old new : List Nat) : (topK k uniq old new).length = k := by
  simp [topK]

theorem lanesOf_ofLanes {w : Nat} {l : List Nat} (len : l.length = 512 / w) : lanesOf w (ofLanes w l) = l.map (· % 2 ^ w) := by
  rw [lanesOf_eq_map_lanes]
  refine List.ext_getElem (by simp [len]) fun i _ h => ?_
  have inside : i < l.length := by simpa using h
  rw [List.getElem_map, List.getElem_range, lanes_ofLanes (len ▸ inside), List.getElem_map, List.getD_eq_getElem _ _ inside]

section
variable {f : Fields} {s s1 : State} {a d : BitVec 5} {k : Word}

theorem execVtopk_short (issues : s.issues 0x69 f) (dst : f.d = .v d) (srcA : f.a = .v a) (srcB : s.src f.b = .ok (k, s1))
    (one : 1 ≤ k.toNat) (short : k.toNat ≤ 8) : exec (.vtopk f) s = .next (s1.setMe (s1.me.writeV d (ofLanes 64
      (topK k.toNat (f.modf.getLsbD 0) (lanesOf 64 (s1.me.readV d)) (lanesOf 64 (s1.me.readV a)) ++
        List.replicate (8 - k.toNat) emptyPair)))).retire := by
  have range : ¬ (k.toNat = 0 ∨ k.toNat > 16) := by omega
  change execVtopk f s = _
  rw [execVtopk, State.issue_issues issues]
  simp only [dst, srcA, srcB, range, short, if_true, if_false, State.srcV, State.lanesD, State.dstV_v, Fields.bit_eq, State.settle_seq]

/-- The pairs of a pair of registers after `VTOPK`. -/
def topPairs (f : Fields) (k : Nat) (x : Slot) (d a : BitVec 5) : List Nat :=
  topK k (f.modf.getLsbD 0) (lanesOf 64 (x.readV d) ++ lanesOf 64 (x.readV (d + 1))) (lanesOf 64 (x.readV a)) ++
    List.replicate (16 - k) emptyPair

theorem length_topPairs {n : Nat} (h : n ≤ 16) (x : Slot) : (topPairs f n x d a).length = 16 := by
  rw [topPairs, List.length_append, length_topK, List.length_replicate]
  omega

theorem execVtopk_long (issues : s.issues 0x69 f) (dst : f.d = .v d) (srcA : f.a = .v a) (srcB : s.src f.b = .ok (k, s1))
    (long : 9 ≤ k.toNat) (most : k.toNat ≤ 16) (even : d.toNat % 2 = 0) : exec (.vtopk f) s = .next (s1.setMe
      ((s1.me.writeV d (ofLanes 64 ((topPairs f k.toNat s1.me d a).take 8))).writeV (d + 1)
        (ofLanes 64 ((topPairs f k.toNat s1.me d a).drop 8)))).retire := by
  have range : ¬ (k.toNat = 0 ∨ k.toNat > 16) := by omega
  have two : ¬ k.toNat ≤ 8 := by omega
  have fits : ¬ d.toNat % 2 = 1 := by omega
  change execVtopk f s = _
  rw [execVtopk, State.issue_issues issues]
  simp only [dst, srcA, srcB, range, two, fits, if_false, State.srcV, State.modMe, Fields.bit_eq, State.settle_seq, topPairs]

theorem execVtopk_faults (issues : s.issues 0x69 f) (srcB : s.src f.b = .ok (k, s1)) (outside : k = 0 ∨ 16 < k.toNat) :
    exec (.vtopk f) s = .next (s.takeExact 0x02 4 0) := by
  have range : k.toNat = 0 ∨ k.toNat > 16 := outside.imp_left fun zero => by rw [zero]; rfl
  change execVtopk f s = _
  rw [execVtopk, State.issue_issues issues]
  simp only [srcB, range, if_true, State.settle_trap]

end

/-- Settles O28: the reductions through the tree, the sorts through the lanes' numbers in order, and the best pairs by k. -/
theorem reductionsAndSorts : Obligations.ReductionsAndSorts := by
  refine ⟨fun f s t a issues srcA code dst => execVred_folds (reduces_sum code) issues srcA dst,
    fun f s t a issues srcA code dst => execVred_folds (reduces_and code) issues srcA dst,
    fun f s t a issues srcA dst => execVred_gives issues srcA dst, fun f s d a issues dst srcA => execVscan_writes issues dst srcA,
    fun f s d a issues dst srcA => execVseg_writes issues dst srcA, ?keys, ?numbers,
    fun f s s1 d a k issues dst srcA srcB one short => execVtopk_short issues dst srcA srcB one short, ?pairs,
    fun f s s1 k issues srcB outside => execVtopk_faults issues srcB outside⟩
  case keys =>
    intro f s d a issues dst srcA keys
    have run := steps_vsort issues dst srcA
    simp only [keys, Bool.false_eq_true, if_false] at run
    refine ⟨_, run, (sortedLanes_perm f _).map _, List.pairwise_map.mpr ((pairwise_sortedLanes f _).imp And.left)⟩
  case numbers =>
    intro f s d a issues dst srcA numbers
    have run := steps_vsort issues dst srcA
    simp only [numbers, if_true, List.map_id'] at run
    exact ⟨_, run, sortedLanes_perm f _, pairwise_sortedLanes f _⟩
  case pairs =>
    intro f s s1 d a k issues dst srcA srcB long most even
    have len := length_topPairs (f := f) (d := d) (a := a) most s1.me
    refine ⟨_, _, execVtopk_long issues dst srcA srcB long most even, ?_⟩
    rw [lanesOf_ofLanes (by rw [List.length_take, len]; rfl), lanesOf_ofLanes (by rw [List.length_drop, len]), ← List.map_append,
      List.take_append_drop, topPairs]

end Sys2Proof.Machine
end

section

/-! PROOF. Memberships (O29, O30; R233, R234): their members in order, the logic on them, and their moves to and from masks and lanes. -/

namespace Sys2Proof.Machine
open Sys2Proof.Num Sys2Proof.Claims

/-! ### Bits of a membership -/

/-- The membership of one slot. -/
theorem getLsbD_single (x : Nat) {i : Nat} (h : i < 256) : (BitVec.ofNat 256 (2 ^ x)).getLsbD i = decide (i = x) := by
  rw [BitVec.getLsbD_ofNat, decide_eq_true h, Bool.true_and, Nat.testBit_two_pow, decide_eq_decide]
  exact eq_comm

theorem getLsbD_firstMembers (n : Nat) {i : Nat} (h : i < 256) : (firstMembers n).getLsbD i = decide (i < n) := by
  rw [firstMembers, BitVec.getLsbD_ofNat, decide_eq_true h, Bool.true_and, Nat.testBit_two_pow_sub_one, decide_eq_decide]
  omega

/-- Setting one slot. -/
theorem getLsbD_or_single (d : Members) (x : Nat) {i : Nat} (h : i < 256) :
    (d ||| BitVec.ofNat 256 (2 ^ x)).getLsbD i = (decide (i = x) || d.getLsbD i) := by
  rw [BitVec.getLsbD_or, getLsbD_single x h, Bool.or_comm]

/-- Clearing one slot. -/
theorem getLsbD_andNot_single (d : Members) (x : Nat) {i : Nat} (h : i < 256) :
    (d &&& ~~~BitVec.ofNat 256 (2 ^ x)).getLsbD i = (!decide (i = x) && d.getLsbD i) := by
  rw [BitVec.getLsbD_and, BitVec.getLsbD_not, getLsbD_single x h, decide_eq_true h, Bool.true_and, Bool.and_comm]

/-! ### The members in order -/

theorem mem_membersOf {m : Members} {x : Nat} : x ∈ membersOf m ↔ x < 256 ∧ m.getLsbD x = true := by
  rw [membersOf, List.mem_filter, List.mem_range]

theorem membersOf_sorted (m : Members) : (membersOf m).Pairwise (· < ·) := List.pairwise_lt_range.filter _

theorem range_filter_lt {m n : Nat} (h : m ≤ n) : (List.range n).filter (fun i => decide (i < m)) = List.range m := by
  rw [← List.Ico.zero_bot, List.Ico.filter_lt, min_eq_right h, List.Ico.zero_bot]

/-- The members below n. -/
theorem length_membersOf_lt (m : Members) {n : Nat} (h : n ≤ 256) :
    ((membersOf m).filter (fun i => decide (i < n))).length = (List.range n).countP m.getLsbD := by
  rw [membersOf, List.filter_comm, range_filter_lt h, List.countP_eq_length_filter]

/-- The j-th element of a range that passes p is the one with j before it. -/
theorem getElem?_filter_range (p : Nat → Bool) (n j x : Nat) :
    ((List.range n).filter p)[j]? = some x ↔ x < n ∧ p x = true ∧ (List.range x).countP p = j := by
  induction n with
  | zero => simp
  | succ n ih =>
    have count : ((List.range n).filter p).length = (List.range n).countP p := List.countP_eq_length_filter.symm
    rw [List.range_succ, List.filter_append, List.getElem?_append, count]
    split
    next low =>
      rw [ih]
      refine ⟨fun ⟨below, rest⟩ => ⟨by omega, rest⟩, fun ⟨below, here, rank⟩ => ⟨?_, here, rank⟩⟩
      by_contra top
      obtain rfl : x = n := by omega
      omega
    next high =>
      have before : ¬ (x < n ∧ p x = true ∧ (List.range x).countP p = j) := fun found => by
        have inside := (List.getElem?_eq_some_iff.mp (ih.mpr found)).1
        omega
      by_cases last : p n = true
      · rw [List.filter_cons_of_pos last, List.filter_nil, List.getElem?_singleton]
        constructor
        · intro found
          obtain ⟨zero, rfl⟩ : j - (List.range n).countP p = 0 ∧ n = x := by simpa using found
          exact ⟨by omega, last, by omega⟩
        · rintro ⟨below, here, rank⟩
          obtain rfl : x = n := by
            by_contra other
            exact before ⟨by omega, here, rank⟩
          simp [rank]
      · rw [List.filter_cons_of_neg last, List.filter_nil, List.getElem?_nil]
        refine ⟨nofun, fun ⟨below, here, rank⟩ => ?_⟩
        obtain rfl | low : x = n ∨ x < n := by omega
        · exact absurd here last
        · exact absurd ⟨low, here, rank⟩ before

/-- The greatest element of a sorted list is its last. -/
theorem getLast?_of_sorted {l : List Nat} (sorted : l.Pairwise (· < ·)) {r : Nat} (mem : r ∈ l) (top : ∀ x ∈ l, x ≤ r) :
    l.getLast? = some r := by
  obtain ⟨before, after, rfl⟩ := List.append_of_mem mem
  cases after with
  | nil => exact List.getLast?_concat ..
  | cons y after =>
    obtain ⟨-, tail, -⟩ := List.pairwise_append.mp sorted
    have above := (List.pairwise_cons.mp tail).1 y List.mem_cons_self
    have := top y (by simp)
    omega

/-! ### `MSET`, `MAND`, `MOR` and `MANDN` (R233) -/

section
variable {f : Fields} {s s1 t : State} {b : Word}

/-- What `MSET` writes over d. -/
def msetMembers (kind : Nat) (b : Word) (d : Members) : Members :=
  match kind with
  | 0 => 0
  | 1 => BitVec.allOnes 256
  | 2 => d ||| BitVec.ofNat 256 (2 ^ (b.toNat % 256))
  | 3 => d &&& ~~~BitVec.ofNat 256 (2 ^ (b.toNat % 256))
  | _ => firstMembers b.toNat

theorem getLsbD_msetMembers (kind : Nat) (b : Word) (d : Members) {i : Nat} (h : i < 256) : (msetMembers kind b d).getLsbD i =
    match kind with
    | 0 => false
    | 1 => true
    | 2 => decide (i = b.toNat % 256) || d.getLsbD i
    | 3 => !decide (i = b.toNat % 256) && d.getLsbD i
    | _ => decide (i < b.toNat) := by
  unfold msetMembers
  split
  next => exact BitVec.getLsbD_zero
  next => rw [BitVec.getLsbD_allOnes, decide_eq_true h]
  next => exact getLsbD_or_single d _ h
  next => exact getLsbD_andNot_single d _ h
  next => exact getLsbD_firstMembers _ h

/-- The modifier of an `MSET` is its kind alone. -/
theorem mset_kind (issues : s.issues 0x70 f) : f.bits 2 0 = f.modf.toNat := by
  obtain ⟨x, mem, -, -, -, modf⟩ := issues.form
  have forms : formsOf 0x70 = [⟨Forms.M, Forms.N, Forms.N, Modf.below 2⟩,
    ⟨Forms.M, Forms.N, Forms.GI, fun x => decide (2 ≤ x) && decide (x ≤ 4)⟩] := rfl
  rw [forms, List.mem_cons, List.mem_singleton] at mem
  have small : f.modf.toNat < 8 := by
    obtain rfl | rfl := mem
    · have : f.modf.toNat < 2 := of_decide_eq_true modf
      omega
    · have : 2 ≤ f.modf.toNat ∧ f.modf.toNat ≤ 4 := by simpa using modf
      omega
  exact (Fields.bits_low f 2).trans (Nat.mod_eq_of_lt small)

theorem execMset_writes {d : BitVec 2} (issues : s.issues 0x70 f) (dst : f.d = .m d) (srcB : s.src f.b = .ok (b, s1)) :
    exec (.mset f) s = .next (s1.setMe (s1.me.writeM d (msetMembers f.modf.toNat b (s1.me.readM d)))).retire := by
  change execMset f s = _
  rw [execMset, State.issue_issues issues]
  simp only [dst, srcB, mset_kind issues, State.srcM, State.dstM_m, State.settle_seq]
  rfl

/-- Bit i of B of `MAND`, `MOR` and `MANDN`. -/
theorem getLsbD_membersB (s : State) (o : Operand) {i : Nat} (h : i < 256) : (s.membersB o).getLsbD i =
    match o with
    | .v b => (s.me.readV b).getLsbD i
    | .m b => (s.me.readM b).getLsbD i
    | _ => false := by
  cases o with
  | v b => exact (BitVec.getLsbD_setWidth ..).trans (by rw [decide_eq_true h, Bool.true_and])
  | m b => rfl
  | _ => exact BitVec.getLsbD_zero

theorem memberBody_writes {make : Fields → Instr} {op : Nat} {g : Members → Members → Members} {h : Bool → Bool → Bool}
    (run : ∀ f s, exec (make f) s = s.issue op f (memberBody g f))
    (bits : ∀ (x y : Members) (i : Nat), i < 256 → (g x y).getLsbD i = h (x.getLsbD i) (y.getLsbD i)) (f : Fields) (s : State) (d a : BitVec 2)
    (issues : s.issues op f) (dst : f.d = .m d) (srcA : f.a = .m a) : ∃ y : Members, steps (make f) s (s.me.writeM d y) ∧ ∀ i, i < 256 →
      y.getLsbD i = h ((s.me.readM a).getLsbD i) (match f.b with
        | .v b => (s.me.readV b).getLsbD i
        | .m b => (s.me.readM b).getLsbD i
        | _ => false) := by
  refine ⟨g (s.me.readM a) (s.membersB f.b), steps_of_body issues (run f s) ?_ (Slot.writeM_pc ..), fun i hi => ?_⟩
  · simp only [memberBody, dst, srcA, State.srcM, State.dstM_m]
  · rw [bits _ _ i hi, getLsbD_membersB s f.b hi]

/-! ### `MCNT`, `MFIND` and `MSPLIT` (R233) -/

section
variable {a : BitVec 2}

theorem execMcnt_gives (issues : s.issues 0x74 f) (srcA : f.a = .m a) (srcB : s.src f.b = .ok (b, s1))
    (dst : s1.dst f.d (word ((List.range (if f.b = .none then 256 else min b.toNat 256)).countP (s1.me.readM a).getLsbD)) = .ok t) :
    exec (.mcnt f) s = .next t.retire := by
  have bound : (if f.b = .none then 256 else min b.toNat 256) ≤ 256 := by split <;> omega
  change execMcnt f s = _
  rw [execMcnt, State.issue_issues issues]
  simp only [srcA, srcB, State.srcM, length_membersOf_lt _ bound, dst, seqOf, State.settle_seq]

/-- The lowest member from n up, and 256 where there is none. -/
theorem find?_membersOf {m : Members} {n r : Nat}
    (found : (r < 256 ∧ n ≤ r ∧ m.getLsbD r = true ∧ ∀ i, n ≤ i → i < r → m.getLsbD i = false) ∨
      (r = 256 ∧ ∀ i, n ≤ i → i < 256 → m.getLsbD i = false)) :
    ((membersOf m).find? (fun i => decide (n ≤ i))).getD 256 = r := by
  rw [membersOf, List.find?_filter]
  obtain ⟨inside, from_n, here, below⟩ | ⟨rfl, none⟩ := found
  · rw [List.find?_range_eq_some.mpr ⟨by simp [here, from_n], List.mem_range.mpr inside, fun j low => ?_⟩, Option.getD_some]
    by_cases h : n ≤ j
    · simp [below j h low]
    · simp [h]
  · rw [List.find?_range_eq_none.mpr fun j low => ?_, Option.getD_none]
    by_cases h : n ≤ j
    · simp [none j h low]
    · simp [h]

/-- The highest member up to n, and 256 where there is none. -/
theorem getLast?_membersOf {m : Members} {n r : Nat} (top : n < 256)
    (found : (r ≤ n ∧ m.getLsbD r = true ∧ ∀ i, r < i → i ≤ n → m.getLsbD i = false) ∨
      (r = 256 ∧ ∀ i, i ≤ n → m.getLsbD i = false)) :
    (((membersOf m).filter (fun i => decide (i ≤ n))).getLast?).getD 256 = r := by
  obtain ⟨inside, here, above⟩ | ⟨rfl, none⟩ := found
  · rw [getLast?_of_sorted ((membersOf_sorted m).filter _) (r := r), Option.getD_some]
    · exact List.mem_filter.mpr ⟨mem_membersOf.mpr ⟨by omega, here⟩, decide_eq_true inside⟩
    · intro x mem
      obtain ⟨mem, low⟩ := List.mem_filter.mp mem
      by_contra high
      have clear := above x (by omega) (of_decide_eq_true low)
      rw [(mem_membersOf.mp mem).2] at clear
      nomatch clear
  · rw [List.filter_eq_nil_iff.mpr fun x mem low => ?_, List.getLast?_nil, Option.getD_none]
    have clear := none x (of_decide_eq_true low)
    rw [(mem_membersOf.mp mem).2] at clear
    nomatch clear

theorem execMfind_lowest {r : Nat} (issues : s.issues 0x75 f) (srcA : f.a = .m a) (srcB : s.src f.b = .ok (b, s1))
    (up : f.modf.getLsbD 0 = false)
    (found : ((membersOf (s1.me.readM a)).find? (fun i => decide (b.toNat ≤ i))).getD 256 = r) (dst : s1.dst f.d (word r) = .ok t) :
    exec (.mfind f) s = .next t.retire := by
  change execMfind f s = _
  rw [execMfind, State.issue_issues issues]
  simp only [srcA, srcB, State.srcM, Fields.bit_eq, up, Bool.false_eq_true, if_false, found, dst, seqOf, State.settle_seq]

theorem execMfind_highest {r : Nat} (issues : s.issues 0x75 f) (srcA : f.a = .m a) (srcB : s.src f.b = .ok (b, s1))
    (down : f.modf.getLsbD 0 = true)
    (found : (((membersOf (s1.me.readM a)).filter
      (fun i => decide (i ≤ if f.b = .none then 255 else min b.toNat 255))).getLast?).getD 256 = r)
    (dst : s1.dst f.d (word r) = .ok t) : exec (.mfind f) s = .next t.retire := by
  change execMfind f s = _
  rw [execMfind, State.issue_issues issues]
  simp only [srcA, srcB, State.srcM, Fields.bit_eq, down, if_true, found, dst, seqOf, State.settle_seq]

theorem steps_msplit {d b : BitVec 2} (issues : s.issues 0x76 f) (dst : f.d = .m d) (srcA : f.a = .m a) (srcB : f.b = .m b)
    (even : d.toNat % 2 = 0) : steps (.msplit f) s
      ((s.me.writeM d (s.me.readM a &&& s.me.readM b)).writeM (d + 1) (s.me.readM a &&& ~~~s.me.readM b)) := by
  have fits : ¬ d.toNat % 2 = 1 := by omega
  exact steps_of_body issues (show execMsplit f s = _ from rfl)
    (by simp only [dst, srcA, srcB, fits, if_false, State.srcM, State.modMe]) rfl

theorem execMsplit_faults {d : BitVec 2} (issues : s.issues 0x76 f) (dst : f.d = .m d) (odd : d.toNat % 2 = 1) :
    exec (.msplit f) s = .next (s.takeExact 0x02 2 0) := by
  change execMsplit f s = _
  rw [execMsplit, State.issue_issues issues]
  simp only [dst, odd, if_true, State.settle_trap]

end

end

/-- Settles O29, instruction by instruction, through the members in order. -/
theorem membershipLogic : Obligations.MembershipLogic := by
  refine ⟨?mset, ?logic, fun f s s1 t a b issues srcA srcB dst => execMcnt_gives issues srcA srcB dst,
    fun f s s1 t a b r issues srcA srcB up found dst => execMfind_lowest issues srcA srcB up (find?_membersOf found) dst,
    fun f s s1 t a b r issues srcA srcB down found dst =>
      execMfind_highest issues srcA srcB down (getLast?_membersOf (by split <;> omega) found) dst,
    fun f s d a b issues dst srcA srcB even => steps_msplit issues dst srcA srcB even,
    fun f s d issues dst odd => execMsplit_faults issues dst odd⟩
  case mset =>
    intro f s s1 d b issues dst srcB
    exact ⟨_, execMset_writes issues dst srcB, fun i hi => getLsbD_msetMembers f.modf.toNat b _ hi⟩
  case logic =>
    intro e mem
    simp only [List.mem_cons, List.not_mem_nil, or_false] at mem
    obtain rfl | rfl | rfl := mem
    · exact memberBody_writes (g := fun x y => x &&& y) (fun _ _ => rfl) fun x y i _ => BitVec.getLsbD_and ..
    · exact memberBody_writes (g := fun x y => x ||| y) (fun _ _ => rfl) fun x y i _ => BitVec.getLsbD_or ..
    · exact memberBody_writes (g := fun x y => x &&& ~~~y) (fun _ _ => rfl) fun x y i hi => by
        rw [BitVec.getLsbD_and, BitVec.getLsbD_not, decide_eq_true hi, Bool.true_and]

/-! ### `MPRED` (R234) -/

theorem scatterBits_of_not_mem (m : Word) (k : Nat) {l : List Nat} (d : Members) {x : Nat} (h : x < 256) (absent : x ∉ l) :
    (scatterBits m k l d).getLsbD x = d.getLsbD x := by
  induction l generalizing k d with
  | nil => rfl
  | cons y l ih =>
    obtain ⟨other, rest⟩ : x ≠ y ∧ x ∉ l := by simpa using absent
    rw [scatterBits, ih (k + 1) _ rest]
    split
    · rw [getLsbD_or_single d y h, decide_eq_false other, Bool.false_or]
    · rw [getLsbD_andNot_single d y h, decide_eq_false other, Bool.not_false, Bool.true_and]

theorem scatterBits_of_getElem? (m : Word) (k : Nat) {l : List Nat} (d : Members) {i x : Nat} (h : x < 256) (distinct : l.Nodup)
    (at_i : l[i]? = some x) : (scatterBits m k l d).getLsbD x = m.getLsbD (k + i) := by
  induction l generalizing k d i with
  | nil => nomatch at_i
  | cons y l ih =>
    obtain ⟨absent, rest⟩ := List.nodup_cons.mp distinct
    rw [scatterBits]
    cases i with
    | zero =>
      obtain rfl : y = x := by simpa using at_i
      rw [scatterBits_of_not_mem m _ _ h absent]
      split
      next set => rw [getLsbD_or_single d y h, decide_eq_true rfl, Bool.true_or, Nat.add_zero, set]
      next clear =>
        rw [getLsbD_andNot_single d y h, decide_eq_true rfl, Bool.not_true, Bool.false_and, Nat.add_zero, Bool.eq_false_iff.mpr clear]
    | succ i => rw [ih (k + 1) _ rest at_i, Nat.add_right_comm, Nat.add_assoc]

/-- Chunk c of n members: those of rank c × n to c × n + n - 1. -/
theorem getElem?_chunk (m : Members) (c n i x : Nat) : (((membersOf m).drop (c * n)).take n)[i]? = some x ↔
    i < n ∧ x < 256 ∧ m.getLsbD x = true ∧ (List.range x).countP m.getLsbD = c * n + i := by
  rw [List.getElem?_take]
  split
  next inside => rw [List.getElem?_drop, membersOf, getElem?_filter_range]; simp only [inside, true_and]
  next outside => simp [outside]

theorem getLsbD_scatterBits_chunk (m : Word) (a d : Members) (c n : Nat) {x : Nat} (h : x < 256) :
    (scatterBits m 0 (((membersOf a).drop (c * n)).take n) d).getLsbD x =
      if a.getLsbD x = true ∧ c * n ≤ (List.range x).countP a.getLsbD ∧ (List.range x).countP a.getLsbD < c * n + n
      then m.getLsbD ((List.range x).countP a.getLsbD - c * n) else d.getLsbD x := by
  split
  next inside =>
    obtain ⟨here, low, high⟩ := inside
    have at_i := (getElem?_chunk a c n ((List.range x).countP a.getLsbD - c * n) x).mpr ⟨by omega, h, here, by omega⟩
    have distinct : (((membersOf a).drop (c * n)).take n).Nodup :=
      ((membersOf_sorted a).imp Nat.ne_of_lt).sublist ((List.take_sublist ..).trans (List.drop_sublist ..))
    rw [scatterBits_of_getElem? m 0 d h distinct at_i, Nat.zero_add]
  next outside =>
    refine scatterBits_of_not_mem m 0 d h fun mem => outside ?_
    obtain ⟨i, at_i⟩ := List.mem_iff_getElem?.mp mem
    obtain ⟨inside, -, here, rank⟩ := (getElem?_chunk a c n i x).mp at_i
    exact ⟨here, by omega, by omega⟩

/-! ### `MTOV` and `VTOM` (R234) -/

section
variable {f : Fields} {s s1 : State}

theorem execMtov_copies {d : BitVec 5} {a : BitVec 2} {b : Word} (issues : s.issues 0x7B f) (dst : f.d = .v d) (srcA : f.a = .m a)
    (srcB : s.src f.b = .ok (b, s1)) (plain : f.modf.getLsbD 0 = false) :
    exec (.mtov f) s = .next (s1.setMe (s1.me.writeV d ((s1.me.readM a).setWidth 512))).retire := by
  change execMtov f s = _
  rw [execMtov, State.issue_issues issues]
  simp only [dst, srcA, srcB, Fields.bit_eq, plain, Bool.false_eq_true, if_false, State.srcM, State.dstV_v, State.settle_seq]

/-- A chunk of members as lanes, filled up with lanes of ones. -/
def listedMembers (w : Nat) (m : Members) (c n : Nat) : List Nat :=
  ((membersOf m).drop (c * n)).take n ++ List.replicate (n - (((membersOf m).drop (c * n)).take n).length) (2 ^ w - 1)

theorem execMtov_lists {d : BitVec 5} {a : BitVec 2} {b : Word} (issues : s.issues 0x7B f) (dst : f.d = .v d) (srcA : f.a = .m a)
    (srcB : s.src f.b = .ok (b, s1)) (listed : f.modf.getLsbD 0 = true) :
    exec (.mtov f) s = .next (s1.setMe (s1.me.writeV d (ofLanes f.width
      (listedMembers f.width (s1.me.readM a) (b.toNat % (max 1 (256 / (512 / f.width)))) (512 / f.width))))).retire := by
  change execMtov f s = _
  rw [execMtov, State.issue_issues issues]
  simp only [dst, srcA, srcB, Fields.bit_eq, listed, if_true, State.srcM, State.lanesD, State.dstV_v, State.settle_seq, listedMembers]

theorem getD_listedMembers (w : Nat) (m : Members) (c : Nat) {n i : Nat} (h : i < n) :
    (listedMembers w m c n).getD i 0 = match (membersOf m)[c * n + i]? with | some x => x | none => 2 ^ w - 1 := by
  have chunk : (((membersOf m).drop (c * n)).take n)[i]? = (membersOf m)[c * n + i]? := by
    rw [List.getElem?_take, if_pos h, List.getElem?_drop]
  rw [← chunk, listedMembers, List.getD_eq_getElem?_getD, List.getElem?_append]
  split
  next inside => rw [List.getElem?_eq_getElem inside, Option.getD_some]
  next outside =>
    rw [List.getElem?_replicate, if_pos (by omega), List.getElem?_eq_none (by omega), Option.getD_some]

theorem lanes_listedMembers {f : Fields} (m : Members) (c : Nat) {i : Nat} (h : i < 512 / f.width) :
    lanes f.width (ofLanes f.width (listedMembers f.width m c (512 / f.width))) i =
      match (membersOf m)[c * (512 / f.width) + i]? with | some x => x | none => 2 ^ f.width - 1 := by
  have wide : 256 ≤ 2 ^ f.width := by obtain w | w | w | w := width_cases f <;> rw [w] <;> decide
  rw [lanes_ofLanes_of_lt h, getD_listedMembers _ _ _ h]
  rw [getD_listedMembers _ _ _ h]
  split
  next x found => exact (mem_membersOf.mp (List.mem_of_getElem? found)).1.trans_le wide
  next => exact Nat.sub_lt (by omega) Nat.one_pos

/-- Setting the slots that a list names. -/
theorem getLsbD_foldl_single (l : List Nat) (d : Members) {x : Nat} (h : x < 256) :
    (l.foldl (fun d i => if i < 256 then d ||| BitVec.ofNat 256 (2 ^ i) else d) d).getLsbD x = true ↔ d.getLsbD x = true ∨ x ∈ l := by
  induction l generalizing d with
  | nil => simp
  | cons y l ih =>
    rw [List.foldl_cons, ih]
    split
    next => rw [getLsbD_or_single d y h]; simp [or_assoc, or_comm, or_left_comm]
    next beyond =>
      have other : x ≠ y := by omega
      simp [other]

end

/-- Settles O30, instruction by instruction, through the members in order and the lanes of a list. -/
theorem membershipMoves : Obligations.MembershipMoves := by
  refine ⟨?mpred, fun f s s1 d a b issues dst srcA srcB plain => execMtov_copies issues dst srcA srcB plain, ?mtov, ?vtomBits, ?vtomLanes⟩
  case mpred =>
    intro f s d a m issues dst srcA srcB
    refine ⟨_, steps_of_body issues (show execMpred f s = _ from rfl)
      (by simp only [dst, srcA, srcB, Fields.bits_low, State.srcM, State.srcW, State.dstM_m]; rfl) (Slot.writeM_pc ..),
      fun x h => getLsbD_scatterBits_chunk _ _ _ _ _ h⟩
  case mtov =>
    intro f s s1 d a b issues dst srcA srcB listed
    exact ⟨_, execMtov_lists issues dst srcA srcB listed, fun i hi => lanes_listedMembers _ _ hi⟩
  case vtomBits =>
    intro f s d a issues dst srcA plain
    exact steps_of_body issues (show execVtom f s = _ from rfl)
      (by simp only [dst, srcA, Fields.bit_eq, plain, Bool.false_eq_true, if_false, State.srcV, State.dstM_m]) (Slot.writeM_pc ..)
  case vtomLanes =>
    intro f s d a issues dst srcA listed
    refine ⟨_, steps_of_body issues (show execVtom f s = _ from rfl)
      (by simp only [dst, srcA, Fields.bit_eq, listed, if_true, State.srcV, State.srcM, State.dstM_m]; rfl) (Slot.writeM_pc ..), fun x h => ?_⟩
    rw [getLsbD_foldl_single _ _ h, lanesOf_eq_map_lanes]
    simp

end Sys2Proof.Machine
end

section

/-! PROOF. Loads and stores (O32, O33; R105, R106, R235, R236, R239 to R242): a load changes what reads have learnt and no byte; a store its
own bytes. -/

namespace Sys2Proof.Machine
open Sys2Proof.Num Sys2Proof.Claims

/-! ### What loads have learnt (R106) -/

/-- From s to t only the issuing slot changed, and of it only the order that its reads have learnt. -/
structure State.Reads (s t : State) : Prop where
  slot : s.OnlySlot t
  me : becomes t s.me

section
variable {s t u : State}

theorem State.Reads.refl (s : State) : s.Reads s := ⟨.refl s, rfl⟩

theorem State.Reads.trans (h : s.Reads t) (h' : t.Reads u) : s.Reads u where
  slot := h.slot.trans h'.slot
  me := h'.me.trans (congrArg (fun x : Slot => { x with order := u.me.order }) h.me)

theorem State.Learns.reads (h : s.Learns t) : s.Reads t := by
  cases h with
  | same => exact .refl s
  | order o => exact ⟨s.onlySlot_setMe _, by rw [becomes, State.me_setMe]⟩

end

theorem State.reads_loadOrder (s : State) (modf a n : Nat) : s.Reads (s.loadOrder modf a n) := (s.learns_loadOrder modf a n).reads

theorem State.reads_lanesLoaded (s : State) (l : List (Option Nat)) (n : Nat) : s.Reads (s.lanesLoaded l n) :=
  List.foldlRecOn (motive := s.Reads) _ _ (.refl s) fun t ht a _ => by
    cases a with
    | none => exact ht
    | some a => exact ht.trans (t.reads_loadOrder ..)

/-- A load leaves the slot as its demotion's fence would find it, but for what it has learnt. -/
theorem State.becomes_loaded (s : State) (f : Fields) (a n : Nat) : becomes (s.loaded f a n) s.me := by
  have learnt := (s.learns_loaded f a n).reads.me
  rwa [State.me_demote] at learnt

theorem becomes_retire {t : State} {x : Slot} (h : becomes t x) : becomes t.retire (x.retired (x.pc + 12)) := by
  have pc : t.me.pc = x.pc := by rw [h]
  rw [becomes, State.me_retire_eq, pc, h]
  rfl

theorem becomes_writeG {t : State} {x : Slot} (h : becomes t x) (d : BitVec 5) (y : Word) :
    becomes (t.setMe (t.me.writeG d y)) (x.writeG d y) := by
  rw [becomes, State.me_setMe, h]
  unfold Slot.writeG
  split <;> rfl

/-! ### Loads (R235, R240 to R242) -/

section
variable {f : Fields} {s s1 t : State} {d : BitVec 5} {a : Nat}

theorem execLd_gives (issues : s.issues 0x80 f) (place : s.reach (s.addr f.a 8) 8 8 = .ok a)
    (dst : (s.loaded f a 8).dst f.d (s.wordAt a) = .ok t) : exec (.ld f) s = .next t.retire := by
  have ready := State.dstReady_of_dst (s.portRoom_loaded f a 8) dst
  change execLd f s = _
  rw [execLd, State.issue_issues issues]
  simp only [State.reachAfter_of_reach place ready, dst, seqOf, State.settle_seq]

theorem execLdv_writes (issues : s.issues 0x82 f) (dst : f.d = .v d) (place : s.reach (s.addr f.a 64) 64 8 = .ok a) :
    exec (.ldv f) s = .next ((s.setMe (s.me.writeV d (BitVec.ofNat 512 (s.mem.readN a 64)))).loaded f a 64).retire := by
  change execLdv f s = _
  rw [execLdv, State.issue_issues issues]
  simp only [dst, place, State.dstV_v, State.bytes, State.settle_seq]

theorem execQld_writes {b : Word} (issues : s.issues 0x78 f) (dst : f.d = .v d) (srcB : s.src f.b = .ok (b, s1))
    (place : s1.reach (s1.addr f.a 64 + word (b.toNat % 256 * 2 ^ (6 + f.modf.toNat % 16))) 64 64 = .ok a) :
    exec (.qld f) s = .next ((s1.setMe (s1.me.writeV d (BitVec.ofNat 512 (s1.mem.readN a 64)))).loadOrder 0 a 64).retire := by
  change execQld f s = _
  rw [execQld, State.issue_issues issues]
  simp only [dst, srcB, Fields.bits_low, Nat.reduceAdd, Nat.reducePow, place, State.dstV_v, State.bytes, State.settle_seq]

theorem execLdx_writes {l : List (Option Nat)} (issues : s.issues 0x84 f) (dst : f.d = .v d) (places : s.laneReach f = .ok l) :
    exec (.ldx f) s = .next (let u := s.lanesLoaded l (f.width / 8)
      (u.setMe (u.me.writeV d (ofLanes f.width (l.map fun a => match a with | some a => s.mem.readN a (f.width / 8) | none => 0)))).retire) := by
  change execLdx f s = _
  rw [execLdx, State.issue_issues issues]
  simp only [dst, places, State.lanesD, State.dstV_v, State.settle_seq]
  rfl

/-- After the loads of the lanes, the write of D changes the slot alone. -/
theorem slotwise_lanesLoaded (s : State) (l : List (Option Nat)) (n : Nat) (d : BitVec 5) (y : Line) :
    s.Slotwise ((s.lanesLoaded l n).setMe ((s.lanesLoaded l n).me.writeV d y)).retire
      { (s.me.writeV d y).retired (s.me.pc + 12) with order := (s.lanesLoaded l n).me.order } := by
  obtain ⟨slot, me⟩ := s.reads_lanesLoaded l n
  have pc : (s.lanesLoaded l n).me.pc = s.me.pc := by rw [me]
  refine ⟨(slot.trans (State.onlySlot_setMe ..)).trans (State.onlySlot_retireTo ..), ?_⟩
  rw [State.me_retire_eq, State.me_setMe, Slot.writeV_pc, pc]
  conv_lhs => rw [me]
  rfl

end

/-! ### The places of lanes (R241) -/

theorem State.of_checkLocal {s : State} {addr : Word} {n k a : Nat} (h : s.checkLocal addr n k = .ok a) : addr.toNat % k = 0 ∧
    ((pathOf addr = 4 ∧ a = poolAt s.cur (bitsOf addr.toNat 16 0)) ∨ a = storeAt (clusterOf s.cur) (bitsOf addr.toNat 18 0)) := by
  unfold State.checkLocal at h
  dsimp only at h
  split at h
  · nomatch h
  split at h
  · nomatch h
  next even =>
  refine ⟨not_not.mp even, ?_⟩
  split at h
  next pool =>
    split at h
    · nomatch h
    · split at h
      · nomatch h
      · cases h
        exact .inl ⟨pool, rfl⟩
  next =>
    split at h
    · nomatch h
    · split at h
      · nomatch h
      · split at h
        · cases h
          exact .inr rfl
        · nomatch h

/-- A local place is aligned as its address is: pools and stores begin at multiples of 8 bytes. -/
theorem State.checkLocal_aligned {s : State} {addr : Word} {n k a : Nat} (size : k ∣ 8) (h : s.checkLocal addr n k = .ok a) : a % k = 0 := by
  obtain ⟨even, place⟩ := State.of_checkLocal h
  have low (m : Nat) : k ∣ bitsOf addr.toNat (m + 3) 0 := by
    rw [bitsOf_eq, pow_zero, Nat.div_one, Nat.sub_zero]
    refine (Nat.dvd_mod_iff (size.trans ?_)).mpr (Nat.dvd_of_mod_eq_zero even)
    exact ⟨2 ^ (m + 1), by rw [show m + 3 + 1 = 3 + (m + 1) by omega, Nat.pow_add]⟩
  have base (m : Nat) : k ∣ m * 2 ^ 3 := size.trans (Nat.dvd_mul_left ..)
  refine Nat.mod_eq_zero_of_dvd ?_
  obtain ⟨-, rfl⟩ | rfl := place
  · rw [poolAt, show 6 * 2 ^ 60 + s.cur / 8 * 2 ^ 37 + s.cur % 8 * 2 ^ 34 =
      (6 * 2 ^ 57 + s.cur / 8 * 2 ^ 34 + s.cur % 8 * 2 ^ 31) * 2 ^ 3 by ring]
    exact (base _).add (low 13)
  · rw [storeAt, show 6 * 2 ^ 60 + clusterOf s.cur * 2 ^ 37 + 2 ^ 33 = (6 * 2 ^ 57 + clusterOf s.cur * 2 ^ 34 + 2 ^ 30) * 2 ^ 3 by ring]
    exact (base _).add (low 15)

theorem State.of_lanePlaces {s : State} {base : Word} {w : Nat} (size : w / 8 ∣ 8) {is : List Nat} {l : List (Option Nat)}
    (h : s.lanePlaces base w is = .ok l) : l.length = is.length ∧ ∀ a, some a ∈ l → a % (w / 8) = 0 := by
  induction is generalizing l with
  | nil =>
    cases h
    exact ⟨rfl, nofun⟩
  | cons i is ih =>
    rw [State.lanePlaces] at h
    cases rest : s.lanePlaces base w is with
    | error e =>
      rw [rest] at h
      split at h
      · nomatch h
      · split at h <;> nomatch h
    | ok r =>
      obtain ⟨len, aligned⟩ := ih rest
      rw [rest] at h
      split at h
      · cases h
        exact ⟨by rw [List.length_cons, List.length_cons, len], fun a mem => aligned a (by simpa using mem)⟩
      · split at h
        · nomatch h
        next b place =>
        cases h
        refine ⟨by rw [List.length_cons, List.length_cons, len], fun a mem => ?_⟩
        obtain rfl | mem : a = b ∨ some a ∈ r := by simpa using mem
        · exact State.checkLocal_aligned size place
        · exact aligned a mem

theorem width_bytes (f : Fields) : f.width / 8 ∣ 8 ∧ 256 ^ (f.width / 8) = 2 ^ f.width ∧ 0 < f.width / 8 := by
  obtain h | h | h | h := width_cases f <;> rw [h] <;> decide

/-- The places that `LDX` and `STX` access: one for each lane, each aligned. -/
theorem State.of_laneReach {s : State} {f : Fields} {l : List (Option Nat)} (h : s.laneReach f = .ok l) :
    l.length = 512 / f.width ∧ ∀ a, some a ∈ l → a % (f.width / 8) = 0 := by
  obtain ⟨size, -⟩ := width_bytes f
  unfold State.laneReach at h
  dsimp only at h
  split at h
  · nomatch h
  split at h
  · nomatch h
  next places =>
  split at h
  · nomatch h
  split at h
  · nomatch h
  · cases h
    obtain ⟨len, aligned⟩ := State.of_lanePlaces size places
    exact ⟨len.trans (length_lanesOf ..), aligned⟩

theorem Mem.readN_lt (m : Mem) (a n : Nat) : Mem.readN m a n < 256 ^ n := by
  induction n generalizing a with
  | zero => exact Nat.one_pos
  | succ n ih =>
    have first := (Mem.read m a).isLt
    have rest := ih (a + 1)
    rw [Mem.readN, pow_succ]
    omega

/-- A lane that `LDX` packs: the bytes at its place, or 0. -/
theorem lanes_loaded {s : State} {f : Fields} {l : List (Option Nat)} (places : s.laneReach f = .ok l) (m : Mem) {i : Nat} (hi : i < 512 / f.width) :
    lanes f.width (ofLanes f.width (l.map fun a => match a with | some a => m.readN a (f.width / 8) | none => 0)) i =
      match l.getD i none with | some a => m.readN a (f.width / 8) | none => 0 := by
  obtain ⟨len, -⟩ := State.of_laneReach places
  obtain ⟨-, bytes, -⟩ := width_bytes f
  have inside : i < l.length := len ▸ hi
  rw [lanes_ofLanes hi, List.getD_eq_getElem _ _ (by simpa using inside), List.getElem_map, List.getD_eq_getElem _ _ inside]
  cases l[i] with
  | none => exact Nat.zero_mod _
  | some a => exact Nat.mod_eq_of_lt (bytes ▸ Mem.readN_lt ..)

/-- Settles O32: each load's state, and what reads may learn in it. -/
theorem loadsReadMemory : Obligations.LoadsReadMemory := by
  refine ⟨?ld, ?ldv, fun f s s1 d b a issues dst srcB place => execQld_writes issues dst srcB place, ?ldx, ?fepoll,
    fun f s t a issues place dst => execLd_gives issues place dst,
    fun s m a n => ⟨(s.reads_loadOrder m a n).slot, (s.reads_loadOrder m a n).me⟩⟩
  case ld =>
    intro f s d a issues dst place
    have run := execLd_gives issues place (t := (s.loaded f a 8).setMe ((s.loaded f a 8).me.writeG d (s.wordAt a))) (by rw [dst, State.dst_g])
    refine ⟨_, run, ⟨State.loaded_mem .., State.full_loaded ..⟩, ?_⟩
    have done := becomes_retire (becomes_writeG (s.becomes_loaded f a 8) d (s.wordAt a))
    rwa [Slot.writeG_pc] at done
  case ldv =>
    intro f s d a issues dst place
    refine ⟨_, execLdv_writes issues dst place, ⟨State.loaded_mem .., State.full_loaded ..⟩, ?_⟩
    have done := becomes_retire (State.becomes_loaded (s.setMe (s.me.writeV d (BitVec.ofNat 512 (s.mem.readN a 64)))) f a 64)
    rwa [State.me_setMe] at done
  case ldx =>
    intro f s d b l issues dst _ places
    exact ⟨_, _, execLdx_writes issues dst places, slotwise_lanesLoaded .., fun i hi => lanes_loaded places s.mem hi⟩
  case fepoll =>
    intro f s d a issues dst place
    exact steps_of_body issues (show execFepoll f s = _ from rfl) (by simp only [dst, place, State.dstP_p]) (Slot.writeP_pc ..)

/-! ### Plain stores (R236, R239, R240) -/

section
variable {f : Fields} {s s1 : State} {a : Nat}

theorem execSt_stores {b : Word} (issues : s.issues 0x81 f) (place : s.reach (s.addr f.a 8) 8 8 = .ok a) (srcB : s.src f.b = .ok (b, s1)) :
    exec (.st f) s = .next ((s1.poke a 8 b.toNat).stored f a 8).retire := by
  change execSt f s = _
  rw [execSt, State.issue_issues issues]
  simp only [State.reachAfter_of_reach place (State.srcReady_of_src srcB), srcB, State.settle_seq, State.pokeWord]

theorem execStv_stores {b : BitVec 5} (issues : s.issues 0x83 f) (srcB : f.b = .v b) (place : s.reach (s.addr f.a 64) 64 8 = .ok a) :
    exec (.stv f) s = .next ((s.poke a 64 (s.me.readV b).toNat).stored f a 64).retire := by
  change execStv f s = _
  rw [execStv, State.issue_issues issues]
  simp only [srcB, place, State.srcV, State.settle_seq]

/-- A store writes its bytes, and keeps every bit and the slot. -/
theorem stores_poke (s : State) (f : Fields) (a n x : Nat) : stores s ((s.poke a n x).stored f a n).retire a n x ∧
    ((s.poke a n x).stored f a n).retire.me = s.me.retired (s.me.pc + 12) := by
  refine ⟨⟨fun i => ?_, ?_⟩, ?_⟩
  · rw [State.retire_mem, State.stored_mem, State.poke_mem, Mem.read_writeN]
  · rw [State.full_retire, State.full_stored, State.poke_full]
  · rw [State.me_retire_eq, State.me_stored, State.me_poke]

end

/-! ### `STX` (R241) -/

section
variable {n : Nat}

theorem State.storeLanes_rest (s : State) (n : Nat) (l : List (Option Nat)) (xs : List Nat) :
    (s.storeLanes n l xs).full = s.full ∧ (s.storeLanes n l xs).me = s.me := by
  induction l generalizing s xs with
  | nil => exact ⟨rfl, rfl⟩
  | cons a l ih =>
    cases xs with
    | nil => cases a <;> exact ⟨rfl, rfl⟩
    | cons x xs =>
      cases a with
      | none => exact ih s xs
      | some a =>
        obtain ⟨full, me⟩ := ih ((s.poke a n x).storeOrder 0 a n) xs
        exact ⟨full.trans (State.full_storeOrder ..), me.trans (State.me_storeOrder ..)⟩

/-- A byte that no lane covers stands. -/
theorem State.read_storeLanes_out (s : State) (l : List (Option Nat)) (xs : List Nat) {i : Nat}
    (outside : ∀ a, some a ∈ l → ¬ (a ≤ i ∧ i < a + n)) : (s.storeLanes n l xs).mem.read i = s.mem.read i := by
  induction l generalizing s xs with
  | nil => rfl
  | cons a l ih =>
    have rest : ∀ a, some a ∈ l → ¬ (a ≤ i ∧ i < a + n) := fun a mem => outside a (List.mem_cons_of_mem _ mem)
    cases xs with
    | nil => cases a <;> rfl
    | cons x xs =>
      cases a with
      | none => exact ih s xs rest
      | some a =>
        rw [State.storeLanes, ih _ xs rest, State.storeOrder_mem, State.poke_mem, Mem.read_writeN, if_neg (outside a List.mem_cons_self)]

/-- Aligned places that differ do not meet. -/
theorem disjoint_of_aligned {a b i : Nat} (ha : a % n = 0) (hb : b % n = 0) (other : b ≠ a) (low : a ≤ i) (high : i < a + n) :
    ¬ (b ≤ i ∧ i < b + n) := by
  obtain ⟨p, rfl⟩ := Nat.dvd_of_mod_eq_zero ha
  obtain ⟨q, rfl⟩ := Nat.dvd_of_mod_eq_zero hb
  rintro ⟨low', high'⟩
  obtain less | rfl | more := Nat.lt_trichotomy p q
  · have := Nat.mul_le_mul_left n (Nat.succ_le_of_lt less)
    rw [Nat.mul_succ] at this
    omega
  · exact other rfl
  · have := Nat.mul_le_mul_left n (Nat.succ_le_of_lt more)
    rw [Nat.mul_succ] at this
    omega

/-- The last lane stored at a place is what it holds. -/
theorem State.readN_storeLanes (s : State) {l : List (Option Nat)} {xs : List Nat} (len : l.length = xs.length)
    (aligned : ∀ a, some a ∈ l → a % n = 0) {k a : Nat} (lane : l[k]? = some (some a))
    (last : ∀ j b, k < j → l[j]? = some (some b) → b ≠ a) : (s.storeLanes n l xs).mem.readN a n = xs.getD k 0 % 256 ^ n := by
  induction l generalizing s xs k with
  | nil => nomatch lane
  | cons c l ih =>
    cases xs with
    | nil => nomatch len
    | cons x xs =>
      have rest : ∀ a, some a ∈ l → a % n = 0 := fun a mem => aligned a (List.mem_cons_of_mem _ mem)
      have later : ∀ j b, k < j + 1 → l[j]? = some (some b) → b ≠ a := fun j b after lane => last (j + 1) b after lane
      have len' : l.length = xs.length := Nat.succ.inj len
      cases k with
      | zero =>
        obtain rfl : c = some a := by simpa using lane
        rw [State.storeLanes, Mem.readN_congr _ (Mem.writeN s.mem a n x), Mem.readN_writeN, List.getD_cons_zero]
        intro i low high
        rw [State.read_storeLanes_out, State.storeOrder_mem, State.poke_mem]
        intro b mem
        obtain ⟨j, lane⟩ := List.mem_iff_getElem?.mp mem
        exact disjoint_of_aligned (aligned a List.mem_cons_self) (rest b mem) (later j b (by omega) lane) low high
      | succ k =>
        have later' : ∀ j b, k < j → l[j]? = some (some b) → b ≠ a := fun j b after => later j b (by omega)
        cases c with
        | none => exact ih s len' rest lane later'
        | some c => exact ih _ len' rest lane later'

end

theorem execStx_stores {f : Fields} {s : State} {d : BitVec 5} {l : List (Option Nat)} (issues : s.issues 0x85 f) (dst : f.d = .v d)
    (places : s.laneReach f = .ok l) :
    exec (.stx f) s = .next (s.storeLanes (f.width / 8) l (lanesOf f.width (s.me.readV d))).retire := by
  change execStx f s = _
  rw [execStx, State.issue_issues issues]
  simp only [dst, places, State.srcV, State.settle_seq]

/-- Settles O33: the bytes of one store, and those of the lanes one after another. -/
theorem storesWriteOnlyTheirBytes : Obligations.StoresWriteOnlyTheirBytes := by
  refine ⟨fun f s s1 b a issues place srcB => ⟨_, execSt_stores issues place srcB, stores_poke ..⟩,
    fun f s b a issues srcB place => ⟨_, execStv_stores issues srcB place, stores_poke ..⟩, ?stx⟩
  intro f s d b l issues dst _ places
  obtain ⟨len, aligned⟩ := State.of_laneReach places
  obtain ⟨-, bytes, -⟩ := width_bytes f
  obtain ⟨full, me⟩ := s.storeLanes_rest (f.width / 8) l (lanesOf f.width (s.me.readV d))
  refine ⟨_, execStx_stores issues dst places, by rw [State.me_retire_eq, me], full, fun i outside => ?_, fun k a lane last => ?_⟩
  · refine State.read_storeLanes_out s l _ fun a mem => ?_
    obtain ⟨k, lane⟩ := List.mem_iff_getElem?.mp mem
    exact outside k a lane
  · have inside : k < 512 / f.width := len ▸ (List.getElem?_eq_some_iff.mp lane).1
    rw [State.retire_mem, s.readN_storeLanes (len.trans (length_lanesOf ..).symm) aligned lane last, bytes, ← laneAt, laneAt_lanesOf inside,
      Nat.mod_eq_of_lt (lanes_lt ..)]

end Sys2Proof.Machine
end

section

/-! PROOF. Queries and walkers (O44; R64, R65, R90, R92, R236 to R238): what `QST`, `WALK` and `MMEET` do, and that a pop keeps the firing that
pops. -/

namespace Sys2Proof.Machine
open Sys2Proof.Num Sys2Proof.Claims

/-! ### Words and pending firings keep the slots (R36, R46, R47) -/

section
variable {s t u : State}

theorem State.KeepsSlots.ite {c : Prop} [Decidable c] (h : s.KeepsSlots t) (h' : s.KeepsSlots u) : s.KeepsSlots (if c then t else u) := by
  split
  · exact h
  · exact h'

theorem State.KeepsSlots.of_eq (cur : t.cur = s.cur) (curSlot : t.curSlot = s.curSlot) (now : t.now = s.now) (cores : t.cores = s.cores) :
    s.KeepsSlots t :=
  ⟨cur, curSlot, now, fun c n => by rw [State.slot, State.core, cores, State.slot, State.core]⟩

end

theorem State.keepsSlots_setHere (s : State) {k : Core} (slots : k.slots = s.here.slots) : s.KeepsSlots (s.setHere k) :=
  s.keepsSlots_modCore s.cur (f := fun _ => k) slots

theorem State.keepsSlots_addPending (s : State) (c : Nat) (src : Source) (h l : Nat) : s.KeepsSlots (s.addPending c src h l) :=
  ((s.keepsSlots_modCore c rfl).trans (State.keepsSlots_post ..)).trans (.of_eq rfl rfl rfl rfl)

theorem State.keepsSlots_addFirings (c h : Nat) (ls : List Launch) (n : Nat) (s : State) (taken : List (Stock × Nat)) :
    s.KeepsSlots (State.addFirings c h ls n s taken).1 := by
  induction n generalizing s taken with
  | zero => exact .refl s
  | succ n ih =>
    unfold State.addFirings
    dsimp only
    split
    · exact .refl s
    · exact (s.keepsSlots_addPending ..).trans (ih ..)

theorem State.keepsSlots_evalRules (s : State) (c : Nat) : s.KeepsSlots (s.evalRules c) := by
  unfold State.evalRules
  refine List.foldlRecOn (motive := fun o : State × List (Stock × Nat) => s.KeepsSlots o.1) _ _ ?kept fun o ho e _ => ?added
  case kept => exact .ite (.refl s) (s.keepsSlots_modCore c rfl)
  case added =>
    split
    · exact ho
    · exact ho.trans (State.keepsSlots_addFirings ..)

theorem State.keepsSlots_freedWord (s : State) (c : Nat) (w : ChanWord) : s.KeepsSlots (s.freedWord c w) := by
  unfold State.freedWord
  refine List.foldlRecOn (motive := s.KeepsSlots) _ _ ?returned fun u hu e _ => ?offered
  case returned =>
    refine .ite ?_ (.refl s)
    split
    · exact (s.keepsSlots_modCore _ rfl).trans (State.keepsSlots_post ..)
    · exact .refl s
  case offered =>
    exact (hu.maybe (State.keepsSlots_post ..)).maybe (State.keepsSlots_post ..)

theorem State.keepsSlots_taskHead (s : State) (c : Nat) : s.KeepsSlots (s.taskHead c) := by
  unfold State.taskHead
  dsimp only
  split
  · exact .ite (.refl s) (s.keepsSlots_addPending ..)
  · exact .refl s

/-! ### A source keeps the firing (R90, R92) -/

/-- A slot as a pop leaves it: but for the task word and what its reads have learnt. -/
def Slot.SameFiring (x y : Slot) : Prop := y = { x with task := y.task, order := y.order }

theorem State.KeepsSlots.sameFiring {s t : State} (h : s.KeepsSlots t) : s.me.SameFiring t.me := by rw [h.me]; rfl

/-- A pop takes a word from a queue of the core, or the firing's task word. -/
theorem State.takeWord_cases (s : State) (p : Nat) :
    s.KeepsSlots (s.takeWord p) ∨ s.takeWord p = s.setMe { s.me with task := none } := by
  unfold State.takeWord
  dsimp only
  split
  · left
    split
    · refine .trans (.trans ?_ (State.keepsSlots_freedWord ..)) (State.keepsSlots_evalRules ..)
      exact s.keepsSlots_setHere rfl
    · exact .refl s
  split
  · exact .inl (s.keepsSlots_setHere rfl)
  split
  · exact .inl (s.keepsSlots_setHere rfl)
  split
  · exact .inl (s.keepsSlots_setHere rfl)
  split
  · exact .inr rfl
  left
  split
  · refine .trans ?_ (State.keepsSlots_taskHead ..)
    exact s.keepsSlots_modCore _ rfl
  · exact .refl s

theorem State.sameFiring_takeWord (s : State) (p : Nat) : s.me.SameFiring (s.takeWord p).me := by
  obtain kept | task := s.takeWord_cases p
  · exact kept.sameFiring
  · rw [task, State.me_setMe]
    rfl

theorem State.sameFiring_src {s t : State} {o : Operand} {x : Word} (h : s.src o = .ok (x, t)) : s.me.SameFiring t.me := by
  cases o with
  | port n =>
    rw [State.src_port, State.pop] at h
    split at h
    · nomatch h
    · dsimp only at h
      split at h
      · nomatch h
      · cases h
        have taken := s.sameFiring_takeWord n.toNat
        have learnt := (State.learns_acquired (s.takeWord n.toNat) (((s.peekPort n.toNat).map (·.seen)).getD [])).reads.me
        unfold becomes at learnt
        rw [State.afterPop, Slot.SameFiring, learnt]
        conv_lhs => rw [taken]
  | _ =>
    cases h
    rfl

/-! ### `QST` (R236) -/

section
variable {f : Fields} {s s1 : State}

theorem State.addJob_rest (s : State) (j : Job) : s.addJob j =
    { s with jobs := s.jobs ++ [{ j with id := s.nextJob }], nextJob := s.nextJob + 1, agenda := (s.addJob j).agenda } :=
  State.post_rest ..

theorem State.me_addJob (s : State) (j : Job) : (s.addJob j).me = s.me := (congrArg State.me (s.addJob_rest j) :)

/-- A job that the issuing firing starts, with a fresh number. -/
theorem State.startJob_jobs (s : State) (op modf : Nat) (run : List Word) (bar : Word) (b declared total : Nat) :
    ∃ j : Job, (s.startJob op modf run bar b declared total).jobs = s.jobs ++ [j] ∧
      (s.startJob op modf run bar b declared total).nextJob = s.nextJob + 1 ∧ j.id = s.nextJob ∧ j.opcode = op ∧ j.modf = modf ∧
      j.run = run ∧ j.barrier = b ∧ j.launch = s.me.launch ∧ j.fid = s.me.fid := by
  rw [State.startJob, State.addJob_rest]
  exact ⟨_, rfl, rfl, rfl, rfl, rfl, rfl, rfl, rfl, rfl⟩

theorem execQst_starts {b : Nat} {a : Nat} (issues : s.issues 0x79 f) (path : pathOf (s.addr f.a 8) = 5)
    (place : s.checkLocal (s.addr f.a 8) 8 8 = .ok a) (barrier : s.checkLocal (s.addr f.b 16) 16 16 = .ok b)
    (room : s.here.outReq.length < 16) : ∃ n, exec (.qst f) s = .next (s.startJob 0x79 0
      [s.addr f.a 8, s.oldG f.d, word (f.modf.toNat % 4)] (s.addr f.b 16) b (8 * n) n).retire := by
  refine ⟨(s.myLaunch.map (·.size)).getD 0, ?_⟩
  have full : ¬ s.here.outReq.length ≥ 16 := by omega
  change execQst f s = _
  rw [execQst, State.issue_issues issues]
  simp only [path, place, barrier, full, ne_eq, not_true_eq_false, if_false, Fields.bits_low, State.settle_seq]
  rfl

theorem execQst_faults (issues : s.issues 0x79 f) (path : pathOf (s.addr f.a 8) ≠ 5) :
    exec (.qst f) s = .next (s.takeExact 0x04 (word (pathOf (s.addr f.a 8))) (s.addr f.a 8)) := by
  change execQst f s = _
  rw [execQst, State.issue_issues issues]
  simp only [path, ne_eq, not_false_eq_true, if_true, State.settle_trap]

/-! ### `WALK` (R237) -/

/-- The message of a `WALK`: one deeper than the firing, with the lanes of D as its block and its carries. -/
def walkMessage (s : State) (h : Nat) (a : Word) (d : Line) (m : Members) : Walker :=
  { depth := min (s.me.depth + 1) 2047
    handler := h
    key := a.toNat % 2 ^ 48
    launch := s.me.launch % 4096
    block := elem 64 d.toNat 2 % 256
    members := m
    carry6 := word (elem 64 d.toNat 0)
    carry7 := word (elem 64 d.toNat 1)
    seen := s.given }

/-- A message on its way. -/
def State.walks (s : State) (w : Walker) : State :=
  (s.setHere { s.here with outWalk := s.here.outWalk ++ [w] }).post (.walkerMessageArrival s.cur)

theorem State.outWalk_walks_retire (s : State) (w : Walker) : (s.walks w).retire.here.outWalk = s.here.outWalk ++ [w] :=
  (congrArg Core.outWalk (State.retireTo_here ..)).trans (congrArg Core.outWalk ((State.here_post ..).trans (State.here_setHere ..)))

theorem State.me_walks (s : State) (w : Walker) : (s.walks w).me = s.me := by
  rw [State.walks, State.me_eq, State.here_post, State.curSlot_post, State.here_setHere]
  rfl

theorem State.mem_walks (s : State) (w : Walker) : (s.walks w).mem = s.mem := State.post_mem ..

theorem execWalk_of_src {a : Word} {m : BitVec 2} (issues : s.issues 0x7A f) (kind : (s.here.handler (f.modf.toNat % 32)).kindBits = 1)
    (srcA : s.src f.a = .ok (a, s1)) (srcB : f.b = .m m) : exec (.walk f) s = .next (s.settle (
      if s1.me.readM m = 0 then .ok (.seq s1)
      else if s1.here.outWalk.length ≥ 16 then .error (.stall (.outQueue 2))
      else .ok (.seq (s1.walks (walkMessage s1 (f.modf.toNat % 32) a (s1.srcV f.d) (s1.me.readM m)))))) := by
  change execWalk f s = _
  rw [execWalk, State.issue_issues issues]
  simp only [Fields.bits_low, Nat.reduceAdd, Nat.reducePow, kind, ne_eq, not_true_eq_false, if_false, srcA, srcB]
  rfl

theorem execWalk_faults (issues : s.issues 0x7A f) (kind : (s.here.handler (f.modf.toNat % 32)).kindBits ≠ 1) :
    exec (.walk f) s = .next (s.takeExact 0x02 5 0) := by
  change execWalk f s = _
  rw [execWalk, State.issue_issues issues]
  simp only [Fields.bits_low, Nat.reduceAdd, Nat.reducePow, kind, ne_eq, not_false_eq_true, if_true, State.settle_trap]

theorem elem_lane_word (x : Line) (i : Nat) : word (elem 64 x.toNat i) = lane 64 x i := ofNat_elem_lane 64 x i

/-! ### `MMEET` (R65, R238) -/

theorem execMmeet_illegal (issues : s.issues 0x7D f) (walker : s.me.kind ≠ .walker) (wrapup : s.me.kind ≠ .wrapup) :
    exec (.mmeet f) s = .next (s.takeExact 0x01 0x7D 0) := by
  change execMmeet f s = _
  rw [execMmeet, State.issue_issues issues]
  simp only [walker, wrapup, ne_eq, not_false_eq_true, and_self, if_true]
  rfl

/-- The entry that stands for a firing and a key on its core. -/
def standsFor (s : State) (a : Word) (e : WarrenEntry) : Bool :=
  e.msg.launch == s.me.launch && e.msg.handler == s.me.handler && e.msg.block == s.me.qblock && e.msg.key == a.toNat % 2 ^ 48 && e.owner == s.cur

/-- What a firing's `MMEET` asks its cluster for. -/
def State.asks (s : State) (d : BitVec 2) (a : Word) : Absorb :=
  ⟨s.fabric, s.cur, s.curSlot, s.me.fid, d, s.me.launch, s.me.handler, s.me.qblock, a.toNat % 2 ^ 48⟩

/-- The cluster noting what a firing's `MMEET` asks for. -/
def State.asked (s : State) (d : BitVec 2) (a : Word) : State :=
  s.modCluster (clusterOf s.cur) (fun k => { k with absorb := some (s.asks d a) })

/-- The firing absorbing an entry, and the entry freed. -/
def State.absorbs (s : State) (d : BitVec 2) (e : WarrenEntry) : State :=
  (s.setMe (s.me.absorb (s.here.handler s.me.handler) d e.msg e.meets)).modCluster (clusterOf s.cur) (fun k =>
    { k with warren := k.warren.filter (fun y => y.serial != e.serial) })

/-- `MMEET` names its firing as it stood before its source was read, which the source keeps. -/
theorem execMmeet_of_src {a : Word} {d : BitVec 2} (issues : s.issues 0x7D f) (walker : s.me.kind = .walker) (srcA : s.src f.a = .ok (a, s1))
    (dst : f.d = .m d) : exec (.mmeet f) s = .next (match (s1.cluster (clusterOf s1.cur)).warren.find? (standsFor s1 a) with
      | none => (s1.asked d a).retire
      | some e => (((s1.asked d a).absorbs d e).overflowReturn (clusterOf s1.cur)).retire) := by
  have firing := State.sameFiring_src srcA
  have launch : s1.me.launch = s.me.launch := by rw [firing]
  have handler : s1.me.handler = s.me.handler := by rw [firing]
  have block : s1.me.qblock = s.me.qblock := by rw [firing]
  have fid : s1.me.fid = s.me.fid := by rw [firing]
  have kind : ¬ (s.me.kind ≠ .walker ∧ s.me.kind ≠ .wrapup) := fun other => other.1 walker
  change execMmeet f s = _
  rw [execMmeet, State.issue_issues issues]
  simp only [kind, if_false, srcA, dst, if_pos walker, State.cluster_modCluster, ← launch, ← handler, ← block, ← fid]
  generalize stands : List.find? _ _ = r
  change (s1.cluster (clusterOf s1.cur)).warren.find? (standsFor s1 a) = r at stands
  rw [stands]
  cases r <;> rfl

end

/-- An entry freed takes nothing back where nothing has overflowed (R70). -/
theorem State.overflowReturn_empty {s : State} {cl : Nat} (overflow : (s.cluster cl).overflow = []) (spill : (s.cluster cl).spill = []) :
    s.overflowReturn cl = s := by
  have none : (s.cluster cl).oldestSpilled = none := by simp [Cluster.oldestSpilled, overflow, spill]
  rw [State.overflowReturn, State.returnsDue]
  simp only [none]

theorem Slot.readM_writeG (x : Slot) (n : BitVec 5) (y : Word) (d : BitVec 2) : (x.writeG n y).readM d = x.readM d := by
  rw [Slot.readM, Slot.readM, getElem_congr_coll (Slot.writeG_m x n y)]

section
variable (x : Slot) (h : Handler) (d : BitVec 2) (m : Walker) (n : Nat)

/-- A firing with a message's members in d, and its carries merged into g3 and g4. -/
def Slot.merged : Slot :=
  ((x.writeM d (x.readM d ||| m.members)).writeG 3 (carryMerge (h.carryRule true) (x.readG 3) m.carry6)).writeG 4
    (carryMerge (h.carryRule false) (x.readG 4) m.carry7)

theorem Slot.readM_absorb : (x.absorb h d m n).readM d = x.readM d ||| m.members := by
  change (x.merged h d m).readM d = _
  rw [Slot.merged, Slot.readM_writeG, Slot.readM_writeG, Slot.readM_writeM, if_pos rfl]

theorem Slot.readG_absorb_three : (x.absorb h d m n).readG 3 = carryMerge (h.carryRule true) (x.readG 3) m.carry6 := by
  change (x.merged h d m).readG 3 = _
  rw [Slot.merged, Slot.readG_writeG_ite, if_neg (by decide), Slot.readG_writeG_ite, if_pos (by decide)]

theorem Slot.readG_absorb_four : (x.absorb h d m n).readG 4 = carryMerge (h.carryRule false) (x.readG 4) m.carry7 := by
  change (x.merged h d m).readG 4 = _
  rw [Slot.merged, Slot.readG_writeG_ite, if_pos (by decide)]

theorem Slot.pc_absorb : (x.absorb h d m n).pc = x.pc := by
  change (x.merged h d m).pc = _
  rw [Slot.merged, Slot.writeG_pc, Slot.writeG_pc, Slot.writeM_pc]

theorem Slot.meets_absorb : (x.absorb h d m n).meets = min (x.meets + n) 65535 := rfl

end

theorem Slot.readM_retired (x : Slot) (pc : Word) (d : BitVec 2) : (x.retired pc).readM d = x.readM d := rfl
theorem Slot.readG_retired (x : Slot) (pc : Word) (d : BitVec 5) : (x.retired pc).readG d = x.readG d := rfl
theorem Slot.meets_retired (x : Slot) (pc : Word) : (x.retired pc).meets = x.meets := rfl
theorem Slot.pc_retired (x : Slot) (pc : Word) : (x.retired pc).pc = pc := rfl

/-- The firing and memory after an entry is absorbed. -/
theorem State.me_asked_absorbs (s : State) (d : BitVec 2) (a : Word) (e : WarrenEntry) :
    ((s.asked d a).absorbs d e).me = s.me.absorb (s.here.handler s.me.handler) d e.msg e.meets := State.me_setMe (s.asked d a) _

theorem State.mem_asked_absorbs (s : State) (d : BitVec 2) (a : Word) (e : WarrenEntry) : ((s.asked d a).absorbs d e).mem = s.mem := rfl

theorem State.cluster_asked_absorbs (s : State) (d : BitVec 2) (a : Word) (e : WarrenEntry) :
    ((s.asked d a).absorbs d e).cluster (clusterOf s.cur) = { s.cluster (clusterOf s.cur) with
      absorb := some (s.asks d a)
      warren := (s.cluster (clusterOf s.cur)).warren.filter (fun y => y.serial != e.serial) } := by
  have asked : (s.asked d a).cluster (clusterOf s.cur) = _ := s.cluster_modCluster ..
  refine (State.cluster_modCluster ..).trans ?_
  change { (s.asked d a).cluster (clusterOf s.cur) with
    warren := ((s.asked d a).cluster (clusterOf s.cur)).warren.filter (fun y => y.serial != e.serial) } = _
  rw [asked]

/-- Settles O44, instruction by instruction: the job of `QST`, the message of `WALK`, and the entry of `MMEET`. -/
theorem queriesAndWalkers : Obligations.QueriesAndWalkers := by
  refine ⟨?qst, fun f s issues path => execQst_faults issues path, ?walk, ?nothing, fun f s issues kind => execWalk_faults issues kind,
    fun f s issues walker wrapup => execMmeet_illegal issues walker wrapup, ?mmeet⟩
  case qst =>
    intro f s a b issues path place barrier room
    obtain ⟨n, run⟩ := execQst_starts issues path place barrier room
    obtain ⟨j, jobs, next, id, op, modf, words, bar, launch, fid⟩ := s.startJob_jobs 0x79 0
      [s.addr f.a 8, s.oldG f.d, word (f.modf.toNat % 4)] (s.addr f.b 16) b (8 * n) n
    exact ⟨_, j, run, jobs, next, id, op, modf, words, bar, launch, fid, s.addJob_mem _,
      by rw [State.me_retire_eq, State.startJob, State.me_addJob]⟩
  case walk =>
    intro f s s1 a d m issues kind srcA dst srcB members room
    have run := execWalk_of_src issues kind srcA srcB
    rw [if_neg members, if_neg (by omega), State.settle_seq, dst] at run
    exact ⟨_, walkMessage s1 (f.modf.toNat % 32) a (s1.me.readV d) (s1.me.readM m), run, s1.outWalk_walks_retire _, rfl, rfl, rfl, rfl, rfl,
      congrArg (· % 256) (elem_eq_lane ..), elem_lane_word .., elem_lane_word .., s1.mem_walks _, by rw [State.me_retire_eq, State.me_walks]⟩
  case nothing =>
    intro f s s1 a m issues kind srcA srcB
    have run := execWalk_of_src issues kind srcA srcB
    refine ⟨fun empty => ?_, fun members full => ?_⟩
    · rw [run, if_pos empty, State.settle_seq]
    · rw [run, if_neg members, if_pos (by omega), State.settle_stall]
  case mmeet =>
    intro f s s1 a issues walker srcA
    refine ⟨fun d dst absent => ?_, fun d e dst stands overflow spill => ?_⟩
    · have run := execMmeet_of_src issues walker srcA dst
      have none : (s1.cluster (clusterOf s1.cur)).warren.find? (standsFor s1 a) = none := absent
      rw [none] at run
      exact run
    · have run := execMmeet_of_src issues walker srcA dst
      have found : (s1.cluster (clusterOf s1.cur)).warren.find? (standsFor s1 a) = some e := stands
      have cluster := s1.cluster_asked_absorbs d a e
      rw [found] at run
      dsimp only at run
      rw [State.overflowReturn_empty ((congrArg Cluster.overflow cluster).trans overflow) ((congrArg Cluster.spill cluster).trans spill)] at run
      refine ⟨_, run, congrArg Cluster.warren cluster, ?_⟩
      simp only [State.me_retire_eq, State.me_asked_absorbs, Slot.readM_retired, Slot.readG_retired, Slot.meets_retired, Slot.pc_retired,
        Slot.readM_absorb, Slot.readG_absorb_three, Slot.readG_absorb_four, Slot.meets_absorb, Slot.pc_absorb, State.retire_mem,
        State.mem_asked_absorbs, and_self]

end Sys2Proof.Machine
end
